-- ==== Sys2Proof/Word.lean ====
section
/-! DEFINITION. The word types of the CE-1024 and the type of a sparse table. -/

namespace Sys2Proof

/-- A 64-bit word: operand-stack slots, control-space registers, header words (R12, R72). -/
abbrev Word := BitVec 64

/-- A byte of memory, of a packet or of a flit (R6). -/
abbrev Byte := BitVec 8

/-- A sparse table: key and value pairs with strictly rising keys and no entry that holds the default value. -/
abbrev Tbl (α : Type) := List (Nat × α)

end Sys2Proof
end

