-- ==== Sys2Proof/Syntax.lean ====
section
/-! DEFINITION. The commands of the CE-1024: one constructor per row of spec/opcode_table.json, and the operand types they carry.

The table gives the rows no operand fields, so the operands are this model's own (log entry 2): the unit that a
command acts on (shelf, link, host port, ring, core), and whatever content reaches the block from outside with it. -/

namespace Sys2Proof

/-- A logical core: an active slot of a shelf (R14, R340) or the warden's core (R358). -/
inductive CoreId where
  | shelf (n : Fin 64) (slot : Fin 16)
  | warden
  deriving DecidableEq, Repr

/-- The party that makes a control-space access (R373, Table 15.10). -/
inductive Party where
  /-- A host access that arrives on host port `p`. -/
  | host (p : Fin 16)
  /-- A core context of shelf `n`; `sysctl` says whether it holds SYSCTL authority (R257). -/
  | core (n : Fin 64) (sysctl : Bool)
  /-- The warden firmware. -/
  | warden
  /-- The Vexek debugger; the open session gives its level (R406). -/
  | debugger
  /-- The remote root device (R379). -/
  | remote
  deriving DecidableEq, Repr

/-- Size and alignment of a control-space access (R12). -/
inductive Access where
  | full
  | low
  | high
  /-- Any other size or alignment. -/
  | bad
  deriving DecidableEq, Repr

/-- An attachment of the flue (R22). -/
inductive Attach where
  | shelf (n : Fin 64)
  | port (p : Fin 16)
  | warden
  | alwaysOn
  deriving DecidableEq, Repr

/-- The events of Table 14.4 that no other row holds: the shelf's flue router, its island clock generator or its power domain reports a fault. -/
inductive RetireCause where
  | router | clock | power
  deriving DecidableEq, Repr

/-- The shelf that its steward retires, and the event (R348). -/
structure Retirement where
  shelf : Fin 64
  cause : RetireCause
  deriving DecidableEq, Repr

/-- What a move unit fetches of a submitted packet: its first slot, its later slots, and the place in shelf memory that the channel program
names (R83, R84). -/
structure SlotFetch where
  first : List Word
  rest : List (List Word)
  dst : BitVec 21
  deriving DecidableEq, Repr

/-- A write of SH_QFLUSH; `merged` says that the queue's latest flush came in the same ic (Table 3.17). -/
structure QflushWrite where
  v : Word
  merged : Bool
  deriving DecidableEq, Repr

/-- What the far end's receiver asks of the transmitter in EQ: a preset, and steps of each tap (R104, R105). -/
structure TxRequest where
  preset : BitVec 3
  steps : List Int
  deriving DecidableEq, Repr

/-- The core that issues a queue operation; `same` says that another agent's operation on the queue comes in the same ic (R99, Table 3.17). -/
structure QueueIssue where
  core : CoreId
  same : Bool
  deriving DecidableEq, Repr

/-- The shelf that a wake raises, and whether it came up (R395, R401). -/
structure WakeResult where
  shelf : Fin 64
  ok : Bool
  deriving DecidableEq, Repr

/-- What the PARAM exchange of a link brings from the far end (Table 4.6, R114). The two error rates are in symbol errors per 10^9 symbols. -/
structure LinkParam where
  serial : Word
  devId : BitVec 12
  idv : Bool
  link : BitVec 8
  credCmd : Nat
  credRsp : Nat
  credGlb : Nat
  credMgt : Nat
  ownErr : Nat
  farErr : Nat
  deriving DecidableEq, Repr

/-- State of a host line in a port cache (R321). -/
inductive LineState where
  | I | S | E | O | M
  deriving DecidableEq, Repr

/-- What parity covers on behalf of a physical core: an array of the core (Table 14.3), or the data of its writes on their way to host port `p`
(R350). -/
inductive ParityArray where
  | registers | ring | returnStack | storeBuffer | checkpoint
  | tlb (entry : Fin 64)
  | icache (set : Fin 64) (way : Fin 4)
  | hostWrite (p : Fin 16)
  deriving DecidableEq, Repr

/-- What the check code finds in a word of shelf memory (R304, R305): an error that it corrects, a word beyond correction, or two copies of a
granule's tag that differ. -/
inductive EccFinding where
  | corrected | word | granule
  deriving DecidableEq, Repr

/-- A finding of the check code at byte offset `off` of a shelf's memory. -/
structure EccReport where
  off : Fin 2097152
  found : EccFinding
  deriving DecidableEq, Repr

/-- A duplicated unit (R349). -/
inductive DupUnit where
  | shelfSteward (n : Fin 64)
  | groupSteward (g : Fin 8)
  | grantChecker (p : Fin 16)
  | damper (l : Fin 256)
  deriving DecidableEq, Repr

/-- A binding of the management transport (Table 15.8). -/
inductive Binding where
  | i3c | hostMailbox
  deriving DecidableEq, Repr

/-- One reading of a sensor (Tables 15.5 and 15.6). -/
structure SensorReading where
  sensor : Nat
  value : BitVec 16
  aux : BitVec 16
  deriving DecidableEq, Repr

/-- A locally clocked island (R26, Table 16.1). -/
inductive IslandId where
  | shelf (n : Fin 64)
  | port (p : Fin 16)
  | warden
  | alwaysOn
  deriving DecidableEq, Repr

/-- What a group limiter samples each microsecond (R391): power in 0.1 W, temperatures in 1/8 degree. -/
structure LimiterSample where
  power : Nat
  temp : Int
  tempNorth : Int
  tempSouth : Int
  deriving DecidableEq, Repr

/-- The outcome of a shelf's start-up test or shelf-reset test (R397, Table 16.7). -/
structure StartupResult where
  coresPass : BitVec 17
  cryptoPass : BitVec 4
  compPass : BitVec 2
  routerOk : Bool
  clockOk : Bool
  saggarOk : Bool
  /-- Failing rows found by March C-, as region numbers (R312). -/
  failRows : List Nat
  deriving DecidableEq, Repr

/-- A credit signal of a host port's bridge (Table 18.2). -/
inductive CreditChan where
  | req | rspo | dato
  deriving DecidableEq, Repr

/-- The bank of an event source: a core's private bank (the warden's sources included) or a shelf's shared sources (R289). -/
inductive SourceBank where
  | own (c : CoreId)
  | shared (n : Fin 64)
  deriving DecidableEq, Repr

/-- The report of an exception found by an instruction: its descriptor number, and FINFO and FADDR (Tables 11.1 and 11.7). -/
structure ExcReport where
  desc : Nat
  finfo : Word
  faddr : Word
  deriving DecidableEq, Repr

/-- Floating-point format of an instruction's encoding (Table 7.8). -/
inductive FpFmt where
  | f64 | f32
  deriving DecidableEq, Repr

/-- Target of a firmware-mailbox register access (Table 15.14). -/
inductive RegTarget where
  | here
  | device (id : BitVec 12)
  | path (hops : List Byte)
  deriving DecidableEq, Repr

/-- The commands of the block: one constructor per row of spec/opcode_table.json, in the table's order. -/
inductive Instr where
  /-- CONTROL_REGISTER_WRITE (R8). A control-space or core control register write to a register without a row of its own sets its fields per the access codes, subject to size, authority and steward-coincidence rules. -/
  | controlRegisterWrite (who : Party) (off : Fin 67108864) (acc : Access) (v : Word) (hwMask : Word) (hwVal : Word)
  /-- FLUE_MESSAGE (R23). A flue message is delivered in order per source-destination pair, with round-robin router arbitration and no loss. -/
  | flueMessage (dst : Attach)
  /-- NOT_PRESENT (R25). A message returned NOT-PRESENT from a shelf in reset or retired reaches its sender, which reports it to its steward and reacts per the owning chapter. -/
  | notPresent (src : Attach)
  /-- SHELF_RETIRE (R348). The shelf steward declares its shelf retired; GL_SHELFRET records it and rehoming, adoption and key-fill redirection follow. -/
  | shelfRetire (r : Retirement)
  /-- LINK_REHOME (R28). The group steward moves a link's switch to its alternate shelf within 2 µs after the home shelf is declared in reset or retired. -/
  | linkRehome (l : Fin 256)
  /-- LINK_RETURN (R30). At the warden firmware's request, once the home shelf is active, a link moves back from its alternate to its home shelf. -/
  | linkReturn (l : Fin 256)
  /-- LEDOPEN (R54). LEDOPEN reads an entry image, allocates an ORIGIN entry and commits it with the stream record's advanced NEXTOUT. -/
  | ledopen (c : CoreId)
  /-- LEDSET (R51). LEDSET requests one transition of Table 2.4 and commits it or returns BADSTATE. -/
  | ledset (c : CoreId)
  /-- LEDRD (R197). LEDRD returns a 64-bit word of the local ledger entry copy, or 0 for stale, foreign or bad offsets. -/
  | ledrd (c : CoreId)
  /-- PREPARE (R55). A PREPARE reaching the mirror target is ECHK-checked, written with PREP = 1 and answered PREPARED or RESEND. -/
  | prepare (n : Fin 64) (echkOk : Bool)
  /-- PREPARED (R55). A PREPARED reply makes the ledger unit write the local images, which is the commit point, and send COMMIT. -/
  | prepared (n : Fin 64)
  /-- RESEND (R55). A RESEND reply makes the ledger unit send the PREPARE once more; a second mismatch is a mirror fault. -/
  | resend (n : Fin 64)
  /-- COMMIT (R55). A COMMIT reaching the mirror target clears PREP of the images. -/
  | commit (n : Fin 64)
  /-- MIRROR_RESYNC_DONE (R58). The steward's resync copy ends, the mirror mode becomes HOST or BUDDY and held commits proceed in order. -/
  | mirrorResyncDone (n : Fin 64)
  /-- SH_LEDFB_WRITE (R70). A write to SH_LEDFB is ignored in HOST or RESYNC; setting VALID lets the steward leave NONE for RESYNC. -/
  | shLedfbWrite (who : Party) (n : Fin 64) (v : Word)
  /-- SH_LEDCFG_WRITE (R70). A write to SH_LEDCFG takes effect for timers started afterwards; reserved encodings leave fields unchanged. -/
  | shLedcfgWrite (who : Party) (n : Fin 64) (v : Word)
  /-- DATA (R60). An arriving DATA packet passes the arrival checks and the target's sequence procedure, opening a TARGET entry and being delivered or dropped. -/
  | data (l : Fin 256)
  /-- REQUEST (R60). An arriving REQUEST packet is checked and delivered to the target channel program under the sequence procedure. -/
  | request (l : Fin 256)
  /-- PROGRAM_COMMAND (R77). An arriving program command packet, CMD 0x80 to 0xBF, is checked and delivered with CMD intact under the sequence procedure. -/
  | programCommand (l : Fin 256)
  /-- PACKET_FORWARD (R119). An arriving packet for another device is sent on by hardware with HOPS decremented after the outbound damper checks. -/
  | packetForward (l : Fin 256)
  /-- ACK (R61). An ACK moves its DATA-DONE ORIGIN entry to ACKED, is held while ISSUED, or is discarded. -/
  | ack (l : Fin 256)
  /-- NAK_GAP (R61). A NAK-GAP raises RETX events on ORIGIN entries of the stream whose range reaches the given SEQ. -/
  | nakGap (l : Fin 256)
  /-- NAK_CLOSED (R61). A NAK-CLOSED acknowledges ranges below NEXTIN, completes the others REFUSED and retires the stream record. -/
  | nakClosed (l : Fin 256)
  /-- STREAM_OPEN (R444). A STREAM-OPEN at the target opens or keeps a record and replies STREAM-STATE, or replies NAK-CLOSED when there is no room. -/
  | streamOpen (l : Fin 256)
  /-- STREAM_CLOSE (R444). A STREAM-CLOSE at the target discards OPEN TARGET entries and retires the record once the condition holds. -/
  | streamClose (l : Fin 256)
  /-- STREAM_QUERY (R444). A STREAM-QUERY at the target replies STREAM-STATE with NEXTIN, or nothing without a record. -/
  | streamQuery (l : Fin 256)
  /-- STREAM_STATE (R125). A STREAM-STATE reply reaching the origin reports the partner's NEXTIN and returns a SUSPECT partner to PRESENT. -/
  | streamState (l : Fin 256)
  /-- EPCLOSE (R125). An EPCLOSE for an endpoint makes its cached partners LOST. -/
  | epclose (l : Fin 256) (dev : BitVec 12) (ep : BitVec 8)
  /-- ACK_TIMEOUT (R62). An ACKTO expiry on an ISSUED or DATA-DONE entry increments RETRIES and raises a RETX event. -/
  | ackTimeout (n : Fin 64) (i : Fin 4096)
  /-- DEADLINE_EXPIRY (R62). At DEADLINE an ORIGIN entry moves to COMPLETE with REASON INDOUBT-TIMEOUT. -/
  | deadlineExpiry (n : Fin 64) (i : Fin 4096)
  /-- TARGET_IDLE_TIMEOUT (R62). A TARGET entry idle for TGTTO is discarded with every OPEN TARGET entry of its stream and FRONTIER := NEXTIN. -/
  | targetIdleTimeout (n : Fin 64) (i : Fin 4096)
  /-- COMPLETION_WRITE_ACK (R51). The host port acknowledges a completion slot write; the entry moves to RETIRED and event coalescing is advanced. -/
  | completionWriteAck (r : Fin 65536)
  /-- RING_EVENT_TIMER (R92). EVTIME × 0.5 µs after the first unreported slot, the ring unit sends an event message. -/
  | ringEventTimer (r : Fin 65536)
  /-- LEDGER_ADOPT (R66). The buddy adopts a lost shelf's ledger from its mirror, resolves PREP images and writes VOID slots for orphaned indices. -/
  | ledgerAdopt (n : Fin 64)
  /-- ADOPTION_END (R66). Once the adopted region holds only RETIRED and STREAM entries and the lost shelf is active, the stream records are copied back. -/
  | adoptionEnd (n : Fin 64)
  /-- SUBMIT_SLOT_FETCH (R84). A fetched first slot is checked; a bad NSLOT writes a SLOTERR completion and disables the ring. -/
  | submitSlotFetch (r : Fin 65536) (slots : SlotFetch)
  /-- DOORBELL (R88). A doorbell write advances P or C, or is ignored as stale, overrun, disabled or without authority. -/
  | doorbell (p : Fin 16) (r : Fin 65536) (v : Word)
  /-- HELD_NOTICE_COMMIT (R89). A held notice, carrying the latest P, is committed when space appears in the notice queue. -/
  | heldNoticeCommit (r : Fin 65536)
  /-- RING_ENABLE (R95). ENABLE reads the ring descriptor and enables the ring, or returns NOTAB, BADDESC or STATE. -/
  | ringEnable (who : Party) (r : Fin 65536) (reserved : BitVec 44)
  /-- RING_DISABLE (R95). DISABLE disables the ring, or returns STATE while any live ledger entry names it. -/
  | ringDisable (who : Party) (r : Fin 65536)
  /-- RING_FLUSH (R95). FLUSH sets C := P on a SUBMIT ring, discarding unfetched slots, or returns STATE. -/
  | ringFlush (who : Party) (r : Fin 65536)
  /-- RING_QUERY (R94). QUERY loads the ring's P and C into GL_RINGIDX. -/
  | ringQuery (who : Party) (r : Fin 65536)
  /-- GL_RINGTAB_WRITE (R94). A write to GL_RINGTAB sets the descriptor table, ignored while any ring is enabled. -/
  | glRingtabWrite (who : Party) (v : Word)
  /-- SH_QFLUSH (R100). A GO write to SH_QFLUSH flushes a queue at the next item boundary and increments EPOCH. -/
  | shQflush (who : Party) (n : Fin 64) (w : QflushWrite)
  /-- SH_QCFG_WRITE (R103). A write to SH_QCFGq configures a queue, is ignored while EN is 1 except clearing EN, and sets EN only for valid fields. -/
  | shQcfgWrite (who : Party) (n : Fin 64) (q : Fin 1024) (v : Word)
  /-- DATA_FLIT (R109). A received DATA flit is checked for FEC, CRC and FSEQ, its packet bytes are taken and credit and ACK fields are applied. -/
  | dataFlit (l : Fin 256) (flit : List (Byte)) (fecOk : Bool)
  /-- IDLE_FLIT (R107). A received IDLE flit carries credit and ACK reports only. -/
  | idleFlit (l : Fin 256) (flit : List (Byte)) (fecOk : Bool)
  /-- RETRY_REQ (R111). A received RETRY-REQ makes the sender rewind to FSEQ E and resend from its retry buffer. -/
  | retryReq (l : Fin 256) (flit : List (Byte)) (fecOk : Bool)
  /-- RETRY_REQ_REPEAT (R111). Every 2 µs without the expected flit the receiver repeats RETRY-REQ; the sixteenth sends the link to RETRAIN. -/
  | retryReqRepeat (l : Fin 256)
  /-- SYNC (R132). A received SYNC flit supplies the DEVTIME values from which the link delay is measured. -/
  | sync (l : Fin 256) (flit : List (Byte)) (fecOk : Bool)
  /-- ABORT (R112). A received ABORT flit discards the partial packet in progress on its virtual channel. -/
  | abort (l : Fin 256) (flit : List (Byte)) (fecOk : Bool)
  /-- FLIT_SEND (R108). The sender emits the next flit, choosing among channels with data and credit in strict priority. -/
  | flitSend (l : Fin 256)
  /-- LINK_ENABLE (R113). Setting EN of LK_CFG moves a DISABLED link to DETECT. -/
  | linkEnable (who : Party) (l : Fin 256) (v : Word)
  /-- LINK_DISABLE (R115). Clearing EN of LK_CFG takes the link down to DISABLED. -/
  | linkDisable (who : Party) (l : Fin 256) (v : Word)
  /-- SYMBOL_LOCK (R113). Symbol lock in DETECT moves the link to EQ. -/
  | symbolLock (l : Fin 256)
  /-- EQ_DONE (R113). Successful equalisation moves the link to LOCK. -/
  | eqDone (l : Fin 256) (tx : TxRequest) (precode : Bool)
  /-- EQ_TIMEOUT (R113). EQ lasting 60 ms moves the link to FAILED. -/
  | eqTimeout (l : Fin 256)
  /-- LOCK_DONE (R113). Codeword and flit alignment move the link to PARAM. -/
  | lockDone (l : Fin 256)
  /-- LOCK_TIMEOUT (R113). LOCK lasting 1 ms moves the link to FAILED. -/
  | lockTimeout (l : Fin 256)
  /-- PARAM_EXCHANGE (R114). The PARAM exchange brings the link up, or returns it to DETECT at 53.125 GBd, or takes it down on a serial change. -/
  | paramExchange (l : Fin 256) (p : LinkParam)
  /-- PARAM_TIMEOUT (R113). PARAM lasting 100 µs moves the link to FAILED. -/
  | paramTimeout (l : Fin 256)
  /-- RETRAIN_DONE (R113). A successful RETRAIN returns the link to ACTIVE. -/
  | retrainDone (l : Fin 256) (p : LinkParam)
  /-- RETRAIN_TIMEOUT (R113). RETRAIN failing or lasting 2 ms moves the link to EQ. -/
  | retrainTimeout (l : Fin 256)
  /-- FAILED_TIMEOUT (R113). After 10 ms in FAILED the link returns to DETECT. -/
  | failedTimeout (l : Fin 256)
  /-- LOSS_OF_SIGNAL (R115). LOS from the PHY, or RXLOCK falling, ends ACTIVE and sends the link to RETRAIN. -/
  | lossOfSignal (l : Fin 256)
  /-- FLIT_SILENCE_TIMEOUT (R115). No valid flit for 2 µs takes the link down to DETECT. -/
  | flitSilenceTimeout (l : Fin 256)
  /-- DAMPER_RELEASE (R121). An outbound packet at the head of a link queue is validated and leaves once the link and partner buckets hold its length. -/
  | damperRelease (l : Fin 256)
  /-- STORM_END (R122). The 1 ms storm limit expires and the command channel returns to its damper ceiling. -/
  | stormEnd (l : Fin 256)
  /-- PARTNER_FETCH_DONE (R124). A partner-table fetch completes, filling the cache entry and evicting the LRU unpinned entry. -/
  | partnerFetchDone (n : Fin 64) (pid : BitVec 20) (entry : Word)
  /-- GL_PARTINV (R124). A GO write removes a partner from every shelf cache within 1 µs, refetching pinned entries. -/
  | glPartinv (who : Party) (v : Word)
  /-- PROBETO_EXPIRY (R125). PROBETO without traffic from an active partner sends a STREAM-QUERY, or moves the partner to SUSPECT after an unanswered probe. -/
  | probetoExpiry (n : Fin 64) (pid : BitVec 20)
  /-- PLOSTTO_EXPIRY (R125). SUSPECT lasting PLOSTTO moves the partner to LOST. -/
  | plosttoExpiry (n : Fin 64) (pid : BitVec 20)
  /-- GL_EP_WRITE (R126). A write to GL_EPe configures an endpoint; clearing EN sends EPCLOSE and is ignored while a stream record is open. -/
  | glEpWrite (who : Party) (e : Fin 256) (v : Word)
  /-- ELECT (R127). An ELECT message may lower ROOTSER and DIST, which are then re-sent on every ACTIVE link. -/
  | elect (l : Fin 256) (rootSer : Word) (dist : Nat)
  /-- ROOT_ELECT_TIMEOUT (R127). A device holding its own serial as ROOTSER for 1 ms sets ROOT. -/
  | rootElectTimeout
  /-- DISCOVER (R127). A DISCOVER is forwarded along its path; the last device answers in hardware with its serial and link states. -/
  | discover (l : Fin 256) (path : List (Byte))
  /-- IDASSIGN (R127). An IDASSIGN gives a device without IDV its id, or draws a reply with the id already held. -/
  | idassign (l : Fin 256) (path : List (Byte)) (devId : BitVec 12)
  /-- GBAR (R129). GBAR contributes to a barrier on a tag and returns its status at DONE, ABORTED or refusal. -/
  | gbar (c : CoreId)
  /-- GRED (R129). GRED contributes a value to a reduction and returns the result and status. -/
  | gred (c : CoreId) (op : BitVec 8)
  /-- GBCAST (R130). GBCAST starts a broadcast at the root, or returns NOTROOT or BADARG. -/
  | gbcast (c : CoreId)
  /-- GRECV (R198). GRECV copies the latest completed broadcast payload of a tag and returns its length. -/
  | grecv (c : CoreId)
  /-- BARRIER (R129). A BARRIER up packet counts toward the instance; when all have arrived the device sends up, or the root issues RESULT. -/
  | barrier (l : Fin 256)
  /-- REDUCE (R129). A REDUCE up packet is combined with local contributions and sent up, or turned into RESULT at the root. -/
  | reduce (l : Fin 256)
  /-- RESULT (R129). A RESULT packet is delivered to contributors, forwarded down and sets the tag DONE. -/
  | result (l : Fin 256)
  /-- BROADCAST (R130). A BROADCAST packet is stored for GRECV and forwarded to children. -/
  | broadcast (l : Fin 256)
  /-- SYSRESET (R130). A SYSRESET packet is forwarded to children, after which IDV is cleared and the device enters warm reset. -/
  | sysreset (l : Fin 256)
  /-- GL_SYS_SYSRST (R130). Writing SYSRST at the root starts a system reset down the tree. -/
  | glSysSysrst (who : Party) (v : Word)
  /-- GL_SYS_SNAP (R131). Writing SNAP at the root starts a snapshot with cut time CT sent down the tree. -/
  | glSysSnap (who : Party) (v : Word)
  /-- SNAPSHOT_CUT (R131). At DEVTIME CT every device freezes its ledger cut, copy on write, and starts writing it. -/
  | snapshotCut
  /-- SNAPSHOT_CUT_WRITTEN (R131). When its cut is written and children have reported, a device sends SNAPSHOT up and sets DONE. -/
  | snapshotCutWritten
  /-- SNAPSHOT (R131). A SNAPSHOT packet carries the cut time down or reports a child's completed cut up. -/
  | snapshot (l : Fin 256)
  /-- TIMESYNC_SEND (R132). Every 1 ms the root sends TIMESYNC with its DEVTIME. -/
  | timesyncSend
  /-- TIMESYNC (R132). A TIMESYNC packet adds the link delay, is forwarded, and DEVTIME is slewed toward the corrected value. -/
  | timesync (l : Fin 256)
  /-- GABORT (R133). A GABORT sets the tag ABORTED, is forwarded on remaining tree links and clears TREEOK. -/
  | gabort (l : Fin 256)
  /-- GLAZE_DISPATCH (R138). The dispatcher starts a waiting glaze request on the lowest free engine of its kind, with share-class metering. -/
  | glazeDispatch (n : Fin 64)
  /-- LINKOUT (R157). A LINKOUT command sets SRC, computes PCRC, compresses, seals, builds the trailer and recomputes HCHK. -/
  | linkout (n : Fin 64) (e : Fin 6)
  /-- XTSENC (R155). An XTSENC command encrypts the payload with AES-256-XTS under the slot's keys. -/
  | xtsenc (n : Fin 64) (e : Fin 6)
  /-- XTSDEC (R155). An XTSDEC command decrypts the payload with AES-256-XTS under the slot's keys. -/
  | xtsdec (n : Fin 64) (e : Fin 6)
  /-- GLAZE_OP_COMPLETE (R157). A glaze operation ends; the output is committed to OUTQ, then the status item to STATQ. -/
  | glazeOpComplete (n : Fin 64) (e : Fin 6)
  /-- COMPRESS_WAIT_EXPIRY (R152). A compression request that waited WAIT µs without an engine is sent uncompressed as BYPASS-BUSY. -/
  | compressWaitExpiry (n : Fin 64)
  /-- INBOUND_GLAZE (R137). The serving shelf's engines decrypt, check the tag, decompress and check PCRC of an arriving ledger-class packet. -/
  | inboundGlaze (l : Fin 256)
  /-- KEY_LOAD (R142). LOAD reads a key load record, unwraps it if asked, writes both slot copies by two-phase commit and clears the slot from every key cache. -/
  | keyLoad (who : Party) (v : Word)
  /-- KEY_ERASE (R142). ERASE zeroes all 80 bytes of a key slot in both copies. -/
  | keyErase (who : Party) (v : Word)
  /-- KEY_QUERY (R141). QUERY places the slot attribute word in GL_KEYATTR and FLOOR in GL_KEYFLOOR. -/
  | keyQuery (who : Party) (v : Word)
  /-- KEY_RECORD_FETCHED (R143). The load record arrives from host memory and is checked for BADREC and UNWRAP before the slot is written. -/
  | keyRecordFetched (record : List (Byte))
  /-- KEY_FILL_DONE (R144). A key-cache fill arrives from the home shelf or its buddy, or fails with NOKEY. -/
  | keyFillDone (n : Fin 64) (k : Fin 65536)
  /-- GLAZE_SELF_TEST (R159). At its scheduled offset in each 60 s period a glaze engine starts its 4 µs known-answer test. -/
  | glazeSelfTest (n : Fin 64) (e : Fin 6)
  /-- GLAZE_TEST_DONE (R161). A glaze self-test ends; a failing engine leaves service and a shelf without a passing engine of a kind is retired. -/
  | glazeTestDone (n : Fin 64) (e : Fin 6) (pass : Bool)
  /-- SH_GLCFG_WRITE (R136). A write to SH_GLCFG enables the glaze queue; GLQ is ignored while EN is 1. -/
  | shGlcfgWrite (who : Party) (n : Fin 64) (v : Word)
  /-- TAG_RETURN (R169). A tag returns its value, or poison, into the slot or register wherever it lies and wakes a waiting context. -/
  | tagReturn (c : CoreId) (store : Fin 16) (tag : Fin 8)
  /-- WAIT_SWITCH (R171). After 32 ic of waiting, the scheduler switches the core to another ready resident context. -/
  | waitSwitch (c : CoreId)
  /-- ICACHE_FILL (R164). An instruction-cache line arrives and the stalled fetch continues. -/
  | icacheFill (c : CoreId)
  /-- STORE_DRAIN (R176). The oldest store-buffer entry drains to its target in program order. -/
  | storeDrain (c : CoreId)
  /-- SH_DETCFG_COMMIT (R182). A COMMIT applies SHADOW to ACTIVE, or sets REJ, and affected cores refetch in the new mode. -/
  | shDetcfgCommit (who : Party) (n : Fin 64) (v : Word)
  /-- PIPECFG_ICINV (R164). Writing ICINV invalidates the instruction cache before the next instruction issues. -/
  | pipecfgIcinv (c : CoreId)
  /-- NOP (R192). NOP does nothing for 1 ic. -/
  | nop (c : CoreId)
  /-- DUP (R192). DUP copies the top of stack. -/
  | dup (c : CoreId)
  /-- DROP (R169). DROP removes the top slot, without waiting on a pending one. -/
  | drop (c : CoreId)
  /-- SWAP (R192). SWAP exchanges the top two slots. -/
  | swap (c : CoreId)
  /-- OVER (R192). OVER copies the second slot to the top. -/
  | over (c : CoreId)
  /-- ROT (R192). ROT rotates the top three slots. -/
  | rot (c : CoreId)
  /-- NIP (R192). NIP removes the second slot. -/
  | nip (c : CoreId)
  /-- TUCK (R192). TUCK copies the top below the second slot. -/
  | tuck (c : CoreId)
  /-- PICK (R192). PICK u copies slot u to the top. -/
  | pick (c : CoreId) (u : BitVec 8)
  /-- DEPTH (R233). DEPTH pushes the number of slots above the window base. -/
  | depth (c : CoreId)
  /-- RPUSH (R202). RPUSH moves an address with the current WB onto the return stack. -/
  | rpush (c : CoreId)
  /-- RPOP (R202). RPOP moves the top return-stack address to the operand stack. -/
  | rpop (c : CoreId)
  /-- RPEEK (R202). RPEEK copies the top return-stack address to the operand stack. -/
  | rpeek (c : CoreId)
  /-- LIT8 (R187). LIT8 pushes its sign-extended 8-bit immediate. -/
  | lit8 (c : CoreId) (x : BitVec 8)
  /-- LIT16 (R187). LIT16 pushes its sign-extended 16-bit immediate. -/
  | lit16 (c : CoreId) (x : BitVec 16)
  /-- LIT32 (R187). LIT32 pushes its sign-extended 32-bit immediate. -/
  | lit32 (c : CoreId) (x : BitVec 32)
  /-- LIT64 (R187). LIT64 pushes its 64-bit immediate. -/
  | lit64 (c : CoreId) (x : Word)
  /-- ADD (R217). ADD adds modulo 2^64. -/
  | add (c : CoreId)
  /-- SUB (R217). SUB subtracts modulo 2^64. -/
  | sub (c : CoreId)
  /-- AND (R192). AND computes the bitwise AND. -/
  | and (c : CoreId)
  /-- OR (R192). OR computes the bitwise OR. -/
  | or (c : CoreId)
  /-- XOR (R192). XOR computes the bitwise exclusive OR. -/
  | xor (c : CoreId)
  /-- NOT (R192). NOT complements the top of stack. -/
  | not (c : CoreId)
  /-- NEG (R217). NEG negates modulo 2^64. -/
  | neg (c : CoreId)
  /-- SHL (R217). SHL shifts left by n mod 64. -/
  | shl (c : CoreId)
  /-- SHR (R217). SHR shifts right logically by n mod 64. -/
  | shr (c : CoreId)
  /-- SAR (R217). SAR shifts right arithmetically by n mod 64. -/
  | sar (c : CoreId)
  /-- ROL (R217). ROL rotates left by n mod 64. -/
  | rol (c : CoreId)
  /-- ROR (R217). ROR rotates right by n mod 64. -/
  | ror (c : CoreId)
  /-- MUL (R174). MUL pushes the low product and writes the unsigned 128-bit product to MPH:MPL two ic later. -/
  | mul (c : CoreId)
  /-- MULS (R217). MULS pushes the low product and writes the signed 128-bit product to MPH:MPL. -/
  | muls (c : CoreId)
  /-- RDMPH (R174). RDMPH pushes MPH as it stands in its issue ic. -/
  | rdmph (c : CoreId)
  /-- RDMPL (R174). RDMPL pushes MPL as it stands in its issue ic. -/
  | rdmpl (c : CoreId)
  /-- EQ (R192). EQ pushes 1 if the operands are equal, else 0. -/
  | eq (c : CoreId)
  /-- LT (R192). LT pushes 1 if a < b signed. -/
  | lt (c : CoreId)
  /-- LTU (R192). LTU pushes 1 if a < b unsigned. -/
  | ltu (c : CoreId)
  /-- MIN (R192). MIN pushes the signed minimum. -/
  | min (c : CoreId)
  /-- MAX (R192). MAX pushes the signed maximum. -/
  | max (c : CoreId)
  /-- MINU (R192). MINU pushes the unsigned minimum. -/
  | minu (c : CoreId)
  /-- MAXU (R192). MAXU pushes the unsigned maximum. -/
  | maxu (c : CoreId)
  /-- SEXT (R192). SEXT u sign-extends from bit u. -/
  | sext (c : CoreId) (u : BitVec 8)
  /-- ZEXT (R192). ZEXT u clears the bits above u. -/
  | zext (c : CoreId) (u : BitVec 8)
  /-- DIV (R218). DIV issues a tagged signed division truncating toward zero, with the special cases of Table 8.1. -/
  | div (c : CoreId)
  /-- DIVU (R218). DIVU issues a tagged unsigned division. -/
  | divu (c : CoreId)
  /-- REM (R218). REM issues a tagged signed remainder with the dividend's sign. -/
  | rem (c : CoreId)
  /-- REMU (R218). REMU issues a tagged unsigned remainder. -/
  | remu (c : CoreId)
  /-- POPC (R192). POPC pushes the population count. -/
  | popc (c : CoreId)
  /-- CLZ (R192). CLZ pushes the count of leading zeros. -/
  | clz (c : CoreId)
  /-- BSWAP (R192). BSWAP reverses the byte order. -/
  | bswap (c : CoreId)
  /-- LDB (R167). LDB loads a byte zero-extended through the segment, checked in the order of Table 10.3. -/
  | ldb (c : CoreId)
  /-- LDBS (R167). LDBS loads a byte sign-extended. -/
  | ldbs (c : CoreId)
  /-- LDH (R167). LDH loads 2 bytes zero-extended. -/
  | ldh (c : CoreId)
  /-- LDHS (R167). LDHS loads 2 bytes sign-extended. -/
  | ldhs (c : CoreId)
  /-- LDW (R167). LDW loads 4 bytes zero-extended. -/
  | ldw (c : CoreId)
  /-- LDWS (R167). LDWS loads 4 bytes sign-extended. -/
  | ldws (c : CoreId)
  /-- LD (R167). LD loads 8 bytes, untagged from own shelf memory or tagged off-shelf. -/
  | ld (c : CoreId)
  /-- STB (R176). STB stores a byte into the store buffer. -/
  | stb (c : CoreId)
  /-- STH (R176). STH stores 2 bytes into the store buffer. -/
  | sth (c : CoreId)
  /-- STW (R176). STW stores 4 bytes into the store buffer. -/
  | stw (c : CoreId)
  /-- ST (R176). ST stores 8 bytes into the store buffer. -/
  | st (c : CoreId)
  /-- CAS (R215). CAS stores n into an aligned word if it equals e and returns the old word. -/
  | cas (c : CoreId)
  /-- AADD (R215). AADD atomically adds to an aligned word and returns the old word. -/
  | aadd (c : CoreId)
  /-- AOR (R215). AOR atomically ORs into an aligned word and returns the old word. -/
  | aor (c : CoreId)
  /-- AAND (R215). AAND atomically ANDs into an aligned word and returns the old word. -/
  | aand (c : CoreId)
  /-- LDC (R256). LDC loads a 16-byte capability with its tag into a segment register. -/
  | ldc (c : CoreId) (r : BitVec 3)
  /-- STC (R256). STC stores a segment register with its tag to a granule. -/
  | stc (c : CoreId) (r : BitVec 3)
  /-- SEG (R189). SEG s replaces the default segment of the following memory instruction. -/
  | seg (c : CoreId) (r : BitVec 3)
  /-- SNARROW (R256). SNARROW narrows the bounds and rights of an unsealed capability. -/
  | snarrow (c : CoreId) (imm : BitVec 8)
  /-- SCOPY (R256). SCOPY copies one segment register to another with its tag. -/
  | scopy (c : CoreId) (imm : BitVec 8)
  /-- SLOCK (R256). SLOCK seals a capability with type t under a type authority. -/
  | slock (c : CoreId) (imm : BitVec 8)
  /-- SUNLOCK (R256). SUNLOCK unseals a capability under a type authority. -/
  | sunlock (c : CoreId) (imm : BitVec 8)
  /-- SFIELD (R256). SFIELD pushes a field of a segment register. -/
  | sfield (c : CoreId) (imm : BitVec 8)
  /-- SVOID (R256). SVOID clears the tag of a segment register. -/
  | svoid (c : CoreId) (imm : BitVec 8)
  /-- BEQ (R200). BEQ branches when a equals b. -/
  | beq (c : CoreId) (d : BitVec 16)
  /-- BNE (R200). BNE branches when a differs from b. -/
  | bne (c : CoreId) (d : BitVec 16)
  /-- BLT (R200). BLT branches when a < b signed. -/
  | blt (c : CoreId) (d : BitVec 16)
  /-- BLTU (R200). BLTU branches when a < b unsigned. -/
  | bltu (c : CoreId) (d : BitVec 16)
  /-- BGE (R200). BGE branches when a ≥ b signed. -/
  | bge (c : CoreId) (d : BitVec 16)
  /-- BGEU (R200). BGEU branches when a ≥ b unsigned. -/
  | bgeu (c : CoreId) (d : BitVec 16)
  /-- BEQZ (R200). BEQZ branches when a = 0. -/
  | beqz (c : CoreId) (d : BitVec 16)
  /-- BNEZ (R200). BNEZ branches when a ≠ 0. -/
  | bnez (c : CoreId) (d : BitVec 16)
  /-- BLTZ (R200). BLTZ branches when a < 0. -/
  | bltz (c : CoreId) (d : BitVec 16)
  /-- BGEZ (R200). BGEZ branches when a ≥ 0. -/
  | bgez (c : CoreId) (d : BitVec 16)
  /-- BGTZ (R200). BGTZ branches when a > 0. -/
  | bgtz (c : CoreId) (d : BitVec 16)
  /-- BLEZ (R200). BLEZ branches when a ≤ 0. -/
  | blez (c : CoreId) (d : BitVec 16)
  /-- JMP (R192). JMP transfers to a PC-relative target. -/
  | jmp (c : CoreId) (d : BitVec 24)
  /-- JMPI (R201). JMPI transfers to the offset on top of stack. -/
  | jmpi (c : CoreId)
  /-- CALL (R201). CALL n pushes the return address and caller WB and starts the callee window n slots below the top. -/
  | call (c : CoreId) (n : BitVec 8) (d : BitVec 24)
  /-- CALLI (R201). CALLI n calls the target popped from the stack with n arguments. -/
  | calli (c : CoreId) (n : BitVec 8)
  /-- RET (R234). RET pops the return stack and restores WB. -/
  | ret (c : CoreId)
  /-- BMOVE (R208). BMOVE copies n bytes element by element, backward on overlap, resumably. -/
  | bmove (c : CoreId) (imm : BitVec 8)
  /-- BFILL (R204). BFILL writes n bytes of a fill byte element by element. -/
  | bfill (c : CoreId) (imm : BitVec 8)
  /-- CRC64 (R204). CRC64 updates a running CRC-64 over n bytes. -/
  | crc64 (c : CoreId) (imm : BitVec 8)
  /-- STM (R209). STM stores the masked operands to consecutive set-bit positions, resumably. -/
  | stm (c : CoreId) (m : BitVec 16)
  /-- LDM (R209). LDM loads the masked words and pushes them at completion. -/
  | ldm (c : CoreId) (m : BitVec 16)
  /-- QRES (R97). QRES reserves a staging slot and buffer area for an item. -/
  | qres (c : CoreId)
  /-- QWR (R214). QWR writes 32 bytes to word i of the staged item. -/
  | qwr (c : CoreId)
  /-- QCOMMIT (R97). QCOMMIT makes the staged item the newest committed item, or reports FULL, FLUSHED or NOAUTH. -/
  | qcommit (c : CoreId)
  /-- QPOP (R97). QPOP removes the oldest committed item and returns its offset and length. -/
  | qpop (q : QueueIssue)
  /-- QREL (R97). QREL frees the area of the oldest popped item. -/
  | qrel (c : CoreId)
  /-- QFLUSH (R100). QFLUSH flushes the queue at the next item boundary. -/
  | qflush (q : QueueIssue)
  /-- RKLD (R175). RKLD loads the round-key port, usable two ic later. -/
  | rkld (c : CoreId)
  /-- AESE (R175). AESE performs one AES encryption round. -/
  | aese (c : CoreId)
  /-- AESEL (R175). AESEL performs the last AES encryption round. -/
  | aesel (c : CoreId)
  /-- AESD (R175). AESD performs one AES decryption round. -/
  | aesd (c : CoreId)
  /-- AESDL (R175). AESDL performs the last AES decryption round. -/
  | aesdl (c : CoreId)
  /-- GQRY (R199). GQRY returns a bitmap of free glaze engines of a kind. -/
  | gqry (c : CoreId)
  /-- FADD (R224). FADD adds floating-point registers as a tagged operation. -/
  | fadd (c : CoreId) (f : FpFmt) (r : BitVec 8)
  /-- FSUB (R224). FSUB subtracts floating-point registers as a tagged operation. -/
  | fsub (c : CoreId) (f : FpFmt) (r : BitVec 8)
  /-- FMUL (R224). FMUL multiplies floating-point registers as a tagged operation. -/
  | fmul (c : CoreId) (f : FpFmt) (r : BitVec 8)
  /-- FDIV (R224). FDIV divides floating-point registers as a tagged operation. -/
  | fdiv (c : CoreId) (f : FpFmt) (r : BitVec 8)
  /-- FSQRT (R224). FSQRT takes a square root as a tagged operation. -/
  | fsqrt (c : CoreId) (f : FpFmt) (r : BitVec 8)
  /-- FMIN (R224). FMIN computes minimumNumber. -/
  | fmin (c : CoreId) (f : FpFmt) (r : BitVec 8)
  /-- FMAX (R224). FMAX computes maximumNumber. -/
  | fmax (c : CoreId) (f : FpFmt) (r : BitVec 8)
  /-- FCMP (R224). FCMP pushes the comparison result 0 to 3. -/
  | fcmp (c : CoreId) (f : FpFmt) (r : BitVec 8)
  /-- FMOVI (R222). FMOVI moves stack bits into an FP register. -/
  | fmovi (c : CoreId) (f : FpFmt) (r : BitVec 8)
  /-- FMOVO (R222). FMOVO pushes the bits of an FP register. -/
  | fmovo (c : CoreId) (f : FpFmt) (r : BitVec 8)
  /-- FCVTI (R224). FCVTI converts a signed integer to floating point. -/
  | fcvti (c : CoreId) (f : FpFmt) (r : BitVec 8)
  /-- FCVTF (R224). FCVTF converts floating point to a signed integer toward zero with saturation. -/
  | fcvtf (c : CoreId) (f : FpFmt) (r : BitVec 8)
  /-- FMOV (R222). FMOV copies an FP register bitwise. -/
  | fmov (c : CoreId) (f : FpFmt) (r : BitVec 8)
  /-- FNEG (R222). FNEG flips the sign bit. -/
  | fneg (c : CoreId) (f : FpFmt) (r : BitVec 8)
  /-- FABS (R222). FABS clears the sign bit. -/
  | fabs (c : CoreId) (f : FpFmt) (r : BitVec 8)
  /-- FCVT (R220). FCVT converts between binary32 and binary64. -/
  | fcvt (c : CoreId) (f : FpFmt) (r : BitVec 8)
  /-- FP_HANDOVER (R243). Once the owner has no FP tag outstanding, the FP registers are saved, the issuer's loaded and FPOWN set over 40 ic. -/
  | fpHandover (c : CoreId)
  /-- WAIT (R241). WAIT sleeps the context until an enabled wake source is pending, or completes at once. -/
  | wait (c : CoreId) (wakeSameIc : BitVec 4)
  /-- YIELD (R237). YIELD gives the core to another ready context of equal or higher PRIO. -/
  | yield (c : CoreId)
  /-- FENCE (R177). FENCE waits for the store buffer to drain and be acknowledged and pushes the store-error count. -/
  | fence (c : CoreId)
  /-- EVSYNC (R299). EVSYNC holds X for 4 ic so that every earlier mask write has passed its window. -/
  | evsync (c : CoreId)
  /-- ERET (R284). ERET restores the frame element by element and then the TSB state. -/
  | eret (c : CoreId)
  /-- TRAP (R283). TRAP u enters descriptor 32 + u. -/
  | trap (c : CoreId) (u : BitVec 8)
  /-- BKPT (R411). BKPT enters descriptor 11, or halts and triggers its group while HALTBK is set. -/
  | bkpt (c : CoreId)
  /-- RSMODE (R203). RSMODE sets the return-stack overflow mode. -/
  | rsmode (c : CoreId)
  /-- RDTIME (R192). RDTIME pushes DEVTIME. -/
  | rdtime (c : CoreId)
  /-- STIM (R419). STIM places a trace packet in the core's stimulus FIFO or drops it with STIMOVF. -/
  | stim (c : CoreId) (u : BitVec 8)
  /-- PROBE (R265). PROBE reads and classifies one translation table entry and sets WALKA on a leaf. -/
  | probe (c : CoreId)
  /-- TLBWR (R266). TLBWR invalidates overlapping entries and writes one TLB entry, or sets ERR. -/
  | tlbwr (c : CoreId)
  /-- TLBINV (R269). TLBINV removes TLB entries of the core by scope. -/
  | tlbinv (c : CoreId)
  /-- TLBINVA (R269). TLBINVA removes every TLB entry of the core. -/
  | tlbinva (c : CoreId)
  /-- CTLRD (R212). CTLRD reads a control register by number. -/
  | ctlrd (c : CoreId) (k : BitVec 16)
  /-- CTLWR (R213). CTLWR writes a control register by number, effective before the next instruction. -/
  | ctlwr (c : CoreId) (k : BitVec 16)
  /-- CCW_WRITE (R231). A write of the CCW changes only CT, RSM and WMASK without SYSCTL authority. -/
  | ccwWrite (c : CoreId)
  /-- ASR_ACCESS (R228). A CTLRD or CTLWR of ASR waits until no arithmetic tag of the context is outstanding. -/
  | asrAccess (c : CoreId) (wr : Bool)
  /-- CTX_LOAD (R232). CTXCMD LOAD brings a parked context from its TSB into a resident store. -/
  | ctxLoad (c : CoreId)
  /-- CTX_NEWLOAD (R232). CTXCMD NEWLOAD loads a new context with forced initial modes. -/
  | ctxNewload (c : CoreId)
  /-- CTX_PARK (R232). CTXCMD PARK spills a context, writes its TSB and frees the store. -/
  | ctxPark (c : CoreId)
  /-- CTX_FREE (R232). CTXCMD FREE empties a store without saving. -/
  | ctxFree (c : CoreId)
  /-- CTXCMD_DONE (R232). A context move completes and CTXRES reports its result. -/
  | ctxcmdDone (c : CoreId)
  /-- SPILL (R235). While O > 40 the spill engine writes the oldest ring slot to the stack segment. -/
  | spill (c : CoreId) (store : Fin 16)
  /-- FILL (R235). While O < 8 the spill engine reads the newest stacked slot back into the ring. -/
  | fill (c : CoreId) (store : Fin 16)
  /-- QUANTUM_EXPIRY (R237). After QUANTUM × 256 ic, the running context yields at the next boundary to a ready context of its PRIO. -/
  | quantumExpiry (c : CoreId)
  /-- WTIME_EXPIRY (R238). DEVTIME reaching WTIME raises the TMR wake and clears WTIME. -/
  | wtimeExpiry (c : CoreId) (store : Fin 16)
  /-- SH_POST (R238). A GO write to SH_POST raises a SYNC wake with CODE on a context. -/
  | shPost (who : Party) (n : Fin 64) (v : Word)
  /-- WAKE_HOLD_COMMIT (R239). A held wake is committed to WAKEQ when space appears. -/
  | wakeHoldCommit (n : Fin 64)
  /-- IDLE_TIMEOUT (R242). A shelf idle for IDLEDLY × 64 ic asks its steward to gate its power. -/
  | idleTimeout (n : Fin 64)
  /-- SHELF_GATE (R394). The steward gates the shelf within 2 µs if every idle condition holds, or drops the request. -/
  | shelfGate (n : Fin 64)
  /-- SHELF_WAKE (R395). A flue message or armed timer wakes a gated shelf and deferred self-tests run. -/
  | shelfWake (w : WakeResult)
  /-- AD_ATOMIC_DONE (R270). The A or D OR atomics to the leaf PTEs complete and the waiting access issues or misses. -/
  | adAtomicDone (c : CoreId)
  /-- GL_TLBINV (R269). A GO write starts a device-wide TLB removal by scope. -/
  | glTlbinv (who : Party) (v : Word)
  /-- GL_TLBINV_DONE (R269). BUSY of GL_TLBINV clears once matching entries and accesses through them are gone. -/
  | glTlbinvDone
  /-- GL_TAGRGN_WRITE (R276). A write to GL_TAGRGN is ignored while VALID reads 1, except clearing VALID. -/
  | glTagrgnWrite (who : Party) (v : Word)
  /-- GL_TAGTAB_WRITE (R276). A write to GL_TAGTAB is ignored while VALID of GL_TAGRGN reads 1. -/
  | glTagtabWrite (who : Party) (v : Word)
  /-- EXCEPTION_ENTRY (R283). An exception runs the six entry steps, saving state to the TSB and loading the descriptor. -/
  | exceptionEntry (c : CoreId) (x : ExcReport)
  /-- EVENT_ENTRY (R283). An event that wins arbitration runs the entry steps, subject to takeover, and pushes its priority. -/
  | eventEntry (c : CoreId)
  /-- CORE_RESET (R287). The steward resets a core after a failed double-fault or escalation entry, a core loss leading to sparing. -/
  | coreReset (c : CoreId)
  /-- SOURCE_INPUT_CHANGE (R291). An event source input changes level or edge, updating pending state and EDGES. -/
  | sourceInputChange (b : SourceBank) (i : Fin 256) (level : Bool)
  /-- COALESCE_TIMER (R294). CTIME × 0.5 µs after the first counted queue event, a data source becomes pending. -/
  | coalesceTimer (n : Fin 64) (i : Fin 256)
  /-- HOLDOFF_EXPIRY (R294). A management group's HOLD time ends and its sources may enter again. -/
  | holdoffExpiry (n : Fin 64) (g : Fin 16)
  /-- EVTMR_MATCH (R289). DEVTIME reaching CMP of EVTMR drives private source TMR high. -/
  | evtmrMatch (c : CoreId)
  /-- WDOG_EXPIRE (R289). EVWDOG COUNT reaching 0 sets WEXP and drives source WDOG. -/
  | wdogExpire (c : CoreId)
  /-- EVWDOG_WRITE (R289). A write of COUNT reloads the watchdog and clears WEXP. -/
  | evwdogWrite (c : CoreId)
  /-- EVCLAIM (R295). A read of EVCLAIM marks a source active and returns it with its EDGES, or SPURIOUS. -/
  | evclaim (c : CoreId)
  /-- EVEOI (R295). A write of EVEOI pops the running-priority stack and deactivates the named source. -/
  | eveoi (c : CoreId)
  /-- EV_CDB (R289). A GO write to EV_CDB pulses private source CDB of a slot. -/
  | evCdb (who : Party) (n : Fin 64) (v : Word)
  /-- TSBP_SET (R301). A capability transfer sets TSBP from a segment register. -/
  | tsbpSet (c : CoreId)
  /-- ETSB_SET (R301). A capability transfer sets ETSB from a segment register. -/
  | etsbSet (c : CoreId)
  /-- DTP_SET (R281). A capability transfer sets DTP and loads DAUTH from the writer's seg.t. -/
  | dtpSet (c : CoreId)
  /-- TSBP_GET (R301). A capability transfer copies TSBP into a segment register. -/
  | tsbpGet (c : CoreId)
  /-- ETSB_GET (R301). A capability transfer copies ETSB into a segment register. -/
  | etsbGet (c : CoreId)
  /-- DTP_GET (R301). A capability transfer copies DTP into a segment register. -/
  | dtpGet (c : CoreId)
  /-- ECC_REWRITE (R305). A corrected word is rewritten within 16 ic unless a master writes it first. -/
  | eccRewrite (n : Fin 64) (e : EccReport)
  /-- WEDGE_STEP (R312). Every WPER µs a wedging step copies one row to the shadow and runs March C-. -/
  | wedgeStep (n : Fin 64)
  /-- WEDGE_STEP_END (R315). A wedging step restores the row, mapping a failing row to a spare or pinning it. -/
  | wedgeStepEnd (n : Fin 64) (fail : Bool)
  /-- SH_WEDGE_WRITE (R312). A write to SH_WEDGE sets WPER; clearing WEN takes effect only in MANUFACTURE. -/
  | shWedgeWrite (who : Party) (n : Fin 64) (v : Word)
  /-- TAMPER (R310). TAMPER_N held low 100 ns starts a wipe of saggar in every shelf. -/
  | tamper
  /-- WIPE_DONE (R311). A shelf's wipe verification ends; failure repeats, and a third failure retires the shelf. -/
  | wipeDone (n : Fin 64) (ok : Bool)
  /-- RECALL_SHARE (R322). A RECALL-SHARE is answered from the port cache or write-back buffer per Table 13.4. -/
  | recallShare (p : Fin 16) (addr : BitVec 46) (rctag : BitVec 8)
  /-- RECALL_OWN (R322). A RECALL-OWN is answered from the port cache or write-back buffer per Table 13.4. -/
  | recallOwn (p : Fin 16) (addr : BitVec 46) (rctag : BitVec 8)
  /-- CTL_RD (R334). A host control read is served, or answered NOT-READY, ABSENT or zero for no authority. -/
  | ctlRd (p : Fin 16) (caddr : BitVec 26) (size64 : Bool) (rctag : BitVec 8)
  /-- CTL_WR (R334). A host control write is applied, or answered NOT-READY or ABSENT. -/
  | ctlWr (p : Fin 16) (caddr : BitVec 26) (size64 : Bool) (rctag : BitVec 8) (value : Word)
  /-- ANS_DONE (R326). An ANS-DONE completes an ACQ-RAISE, PUT-LINE or PUT-MASKED with its state and status. -/
  | ansDone (p : Fin 16) (rqtag : BitVec 10) (state : LineState) (status : BitVec 2)
  /-- ANS_EVICT (R324). An ANS-EVICT frees the write-back buffer entry of an EVICT-DIRTY. -/
  | ansEvict (p : Fin 16) (rqtag : BitVec 10)
  /-- DAT_FILL (R327). A DAT-FILL installs line data or an error, then answers any recall held for the line. -/
  | datFill (p : Fin 16) (rqtag : BitVec 10) (state : LineState) (status : BitVec 2) (poison : Bool) (data : List (Byte))
  /-- HOME_RESERVED_OPCODE (R318). A message from the home with a reserved opcode is dropped and counted in PROTERR. -/
  | homeReservedOpcode (p : Fin 16) (op : BitVec 6)
  /-- GRANT_FETCH_DONE (R328). A grant-entry fetch completes and the waiting write is checked against it. -/
  | grantFetchDone (p : Fin 16) (idx : Fin 16777216) (entry : List (Word))
  /-- GL_HPMAP_WRITE (R320). A write of GL_HPMAP holds new host requests while every port cache writes back and invalidates. -/
  | glHpmapWrite (who : Party) (v : Word)
  /-- GL_HPMAP_DONE (R320). The new serving-port map takes effect and the control write is acknowledged within 200 µs. -/
  | glHpmapDone
  /-- GL_GRANT_WRITE (R330). A write of GL_GRANT sets the table, ignored while VALID except clearing it; setting VALID loads window grants. -/
  | glGrantWrite (who : Party) (v : Word)
  /-- GL_GRINV (R333). A GO write removes a grant entry from every port. -/
  | glGrinv (who : Party) (v : Word)
  /-- GL_GRINV_DONE (R333). BUSY of GL_GRINV clears once every port has dropped the entry and checked accesses completed. -/
  | glGrinvDone
  /-- PORT_CACHE_FLUSH (R321). Writing FLUSH of HP_CTL writes back and invalidates every line of the port cache. -/
  | portCacheFlush (who : Party) (p : Fin 16) (v : Word)
  /-- PORT_CACHE_FLUSH_DONE (R321). The port cache flush ends and BUSY clears. -/
  | portCacheFlushDone (p : Fin 16)
  /-- PAIR_MISMATCH (R342). The pair comparator finds differing beats and starts a retry, or sparing when persistent. -/
  | pairMismatch (n : Fin 64) (i : Fin 8)
  /-- PAIR_LAG (R342). A beat waiting 64 ic without its counterpart is reported as a LAG mismatch. -/
  | pairLag (n : Fin 64) (i : Fin 8)
  /-- PARITY_ERROR (R343). A parity error in a core array starts a retry, or sparing when persistent. -/
  | parityError (n : Fin 64) (phys : Fin 17) (arr : ParityArray)
  /-- CORETEST_DONE (R346). CORETEST of core X ends; a passing core becomes the spare, a failing one is mapped out. -/
  | coretestDone (n : Fin 64) (phys : Fin 17) (pass : Bool)
  /-- SH_PAIRCFG_COMMIT (R352). A COMMIT starts a pairing hand-over, or is rejected with REJ. -/
  | shPaircfgCommit (who : Party) (n : Fin 64) (v : Word)
  /-- DRAINTO_EXPIRY (R353). DRAINTO after the COMMIT, contexts not yet held are held at their next instruction boundary. -/
  | draintoExpiry (n : Fin 64)
  /-- PAIR_HANDOVER_SWITCH (R353). Once every context is held and store buffers are empty, the steward switches the mode and releases the holds. -/
  | pairHandoverSwitch (n : Fin 64)
  /-- HANDOVER_TIMEOUT (R353). If step 4 has not begun 50 µs after COMMIT, the hand-over is abandoned with FAIL. -/
  | handoverTimeout (n : Fin 64)
  /-- GL_SPLITOK_WRITE (R352). A write of GL_SPLITOK takes effect only from a host-port CTL-WR. -/
  | glSplitokWrite (who : Party) (v : Word)
  /-- DUP_MISMATCH (R349). A duplicated steward, grant checker or damper disagrees and takes its fail-safe reaction. -/
  | dupMismatch (u : DupUnit)
  /-- WARDEN_WDOG_RESET (R362). WEXP of the warden watchdog held for 100 ms resets the warden island. -/
  | wardenWdogReset
  /-- WARDEN_RESET (R363). At warden reset the bisque selects, verifies and enters a firmware image, or enters recovery. -/
  | wardenReset
  /-- BOOT_TRIAL_TIMEOUT (R365). BOOTOK still 0 two seconds after entry on trial resets the warden to boot the other slot. -/
  | bootTrialTimeout
  /-- WD_BOOT_REBOOT (R371). Writing REBOOT resets the warden island. -/
  | wdBootReboot (who : Party)
  /-- WD_BOOT_SVNUP (R365). Writing SVNUP raises the fused SVN floor to the running SVN. -/
  | wdBootSvnup (who : Party)
  /-- SENSOR_SAMPLE (R366). Every 1 ms hardware samples the sensors into the snapshot, raises SNAPDONE and SENSALARM on threshold crossings. -/
  | sensorSample (readings : List SensorReading)
  /-- LOG_RECORD_COMMIT (R367). A write of WD_LOGW3 commits a firmware log record with hardware TIME and SEQ. -/
  | logRecordCommit (who : Party) (v : Word)
  /-- WD_VIOL_WRITE (R380). A write to WD_VIOL sets every field to zero. -/
  | wdViolWrite (who : Party) (v : Word)
  /-- RESPONDER_TIMEOUT (R370). A request not taken by the warden within 10 ms is answered busy by the hardware responder. -/
  | responderTimeout
  /-- MCTP_UNSUPPORTED (R369). An MCTP message of an unsupported type is dropped. -/
  | mctpUnsupported (b : Binding) (ty : BitVec 8)
  /-- SET_ENDPOINT_ID (R369). MCTP Set Endpoint ID assigns the device's EID. -/
  | setEndpointId (b : Binding) (taken : Bool) (eid : BitVec 8)
  /-- GET_ENDPOINT_ID (R369). MCTP Get Endpoint ID returns the EID. -/
  | getEndpointId (b : Binding) (taken : Bool)
  /-- GET_ENDPOINT_UUID (R369). MCTP Get Endpoint UUID returns the UUID. -/
  | getEndpointUuid (b : Binding) (taken : Bool)
  /-- GET_MCTP_VERSION_SUPPORT (R369). MCTP Get MCTP Version Support returns supported versions. -/
  | getMctpVersionSupport (b : Binding) (taken : Bool)
  /-- GET_MESSAGE_TYPE_SUPPORT (R369). MCTP Get Message Type Support returns types 0, 1 and 5. -/
  | getMessageTypeSupport (b : Binding) (taken : Bool)
  /-- GET_TID (R369). PLDM GetTID returns the terminus id. -/
  | getTid (b : Binding) (taken : Bool)
  /-- GET_PLDM_VERSION (R369). PLDM GetPLDMVersion returns a type's version. -/
  | getPldmVersion (b : Binding) (taken : Bool) (ty : BitVec 8)
  /-- GET_PLDM_TYPES (R369). PLDM GetPLDMTypes returns types 0, 2 and 5. -/
  | getPldmTypes (b : Binding) (taken : Bool)
  /-- GET_PLDM_COMMANDS (R369). PLDM GetPLDMCommands returns the supported commands of a type. -/
  | getPldmCommands (b : Binding) (taken : Bool) (ty : BitVec 8)
  /-- GET_PDR_REPOSITORY_INFO (R369). PLDM GetPDRRepositoryInfo describes the PDR repository. -/
  | getPdrRepositoryInfo (b : Binding) (taken : Bool)
  /-- GET_PDR (R369). PLDM GetPDR returns a PDR. -/
  | getPdr (b : Binding) (taken : Bool) (record : Nat)
  /-- GET_SENSOR_READING (R370). PLDM GetSensorReading is answered by the responder from the snapshot within 50 µs. -/
  | getSensorReading (b : Binding) (sensor : Fin 492)
  /-- GET_STATE_SENSOR_READINGS (R369). PLDM GetStateSensorReadings returns life-cycle and shelf states. -/
  | getStateSensorReadings (b : Binding) (taken : Bool) (sensor : Nat)
  /-- SET_EVENT_RECEIVER (R369). PLDM SetEventReceiver sets where sensor events are sent. -/
  | setEventReceiver (b : Binding) (taken : Bool) (eid : BitVec 8)
  /-- QUERY_DEVICE_IDENTIFIERS (R369). PLDM QueryDeviceIdentifiers returns device identifiers. -/
  | queryDeviceIdentifiers (b : Binding) (taken : Bool)
  /-- GET_FIRMWARE_PARAMETERS (R369). PLDM GetFirmwareParameters returns component versions. -/
  | getFirmwareParameters (b : Binding) (taken : Bool)
  /-- REQUEST_UPDATE (R369). PLDM RequestUpdate enters update mode. -/
  | requestUpdate (b : Binding) (taken : Bool)
  /-- PASS_COMPONENT_TABLE (R369). PLDM PassComponentTable names components to update. -/
  | passComponentTable (b : Binding) (taken : Bool) (comp : BitVec 16)
  /-- UPDATE_COMPONENT (R371). PLDM UpdateComponent writes an image to the slot not in use. -/
  | updateComponent (b : Binding) (taken : Bool) (comp : BitVec 16)
  /-- REQUEST_FIRMWARE_DATA (R369). Image data answering RequestFirmwareData is taken in 1,024-byte transfers. -/
  | requestFirmwareData (b : Binding) (taken : Bool) (data : List (Byte))
  /-- TRANSFER_COMPLETE (R369). PLDM TransferComplete ends the image transfer. -/
  | transferComplete (b : Binding) (taken : Bool)
  /-- VERIFY_COMPLETE (R371). VerifyComplete succeeds only if the image passes every bisque check. -/
  | verifyComplete (b : Binding) (taken : Bool)
  /-- APPLY_COMPLETE (R371). ApplyComplete sets the new header's GEN one above the running slot's. -/
  | applyComplete (b : Binding) (taken : Bool)
  /-- ACTIVATE_FIRMWARE (R371). ActivateFirmware is answered, then the firmware logs, sets REBOOT and the warden resets. -/
  | activateFirmware (b : Binding) (taken : Bool)
  /-- GET_STATUS (R369). PLDM GetStatus reports the update state. -/
  | getStatus (b : Binding) (taken : Bool)
  /-- CANCEL_UPDATE_COMPONENT (R369). PLDM CancelUpdateComponent abandons a component update. -/
  | cancelUpdateComponent (b : Binding) (taken : Bool)
  /-- CANCEL_UPDATE (R369). PLDM CancelUpdate leaves update mode. -/
  | cancelUpdate (b : Binding) (taken : Bool)
  /-- GET_VERSION (R369). SPDM GET_VERSION returns version 1.2. -/
  | getVersion (b : Binding) (taken : Bool)
  /-- GET_CAPABILITIES (R369). SPDM GET_CAPABILITIES returns CERT, CHAL and MEAS capabilities. -/
  | getCapabilities (b : Binding) (taken : Bool)
  /-- NEGOTIATE_ALGORITHMS (R369). SPDM NEGOTIATE_ALGORITHMS selects P-384 and SHA-384. -/
  | negotiateAlgorithms (b : Binding) (taken : Bool) (p384 : Bool) (sha384 : Bool)
  /-- GET_DIGESTS (R369). SPDM GET_DIGESTS returns certificate chain digests. -/
  | getDigests (b : Binding) (taken : Bool)
  /-- GET_CERTIFICATE (R369). SPDM GET_CERTIFICATE returns a certificate chain slot. -/
  | getCertificate (b : Binding) (taken : Bool) (slot : Nat)
  /-- CHALLENGE (R369). SPDM CHALLENGE returns a signed challenge response. -/
  | challenge (b : Binding) (taken : Bool) (slot : Nat) (nonce : BitVec 256)
  /-- GET_MEASUREMENTS (R369). SPDM GET_MEASUREMENTS returns the measurement blocks of Table 15.9. -/
  | getMeasurements (b : Binding) (taken : Bool) (index : Nat)
  /-- REGWR (R379). Firmware mailbox REGWR writes a control register locally or on a remote device. -/
  | regwr (target : RegTarget) (off : Fin 67108864) (v : Word)
  /-- REGRD (R379). Firmware mailbox REGRD reads a control register locally or on a remote device. -/
  | regrd (target : RegTarget) (off : Fin 67108864)
  /-- LCREQ (R375). Firmware mailbox LCREQ verifies a token and requests a life-cycle transition. -/
  | lcreq (target : BitVec 2) (token : List (Byte))
  /-- RECOVERY (R363). Firmware mailbox RECOVERY delivers an image that the bisque verifies and runs from SRAM. -/
  | recovery (image : List (Byte))
  /-- REMOTE_ACCESS (R379). A remote register access arrives and is accepted only from the root within remote rights. -/
  | remoteAccess (l : Fin 256) (serial : Word) (wr : Bool) (off : Fin 67108864) (v : Word)
  /-- REMOTE_TIMEOUT (R379). A remote access unanswered for 1 ms is reported TIMEOUT. -/
  | remoteTimeout
  /-- WD_LCREQ (R376). A GO write to WD_LCREQ runs an accepted life-cycle transition, wiping and programming fuses, or sets LCREJ. -/
  | wdLcreq (who : Party) (v : Word)
  /-- SH_RTVEC_NEW (R372). A write of NEW, after earlier warden-window writes, invalidates the shelf's instruction caches and increments EPOCH. -/
  | shRtvecNew (who : Party) (n : Fin 64) (v : Word)
  /-- SH_RTVEC_DRAINED (R372). Writing DRAINED makes CUR become NEW. -/
  | shRtvecDrained (who : Party) (n : Fin 64) (v : Word)
  /-- FREQUENCY_LOOP_WINDOW (R382). Once per 1 µs window the loop measures FMEAS and steps STRETCH and MARGIN by one, or sets FAULT. -/
  | frequencyLoopWindow (i : IslandId) (fmeas : Nat)
  /-- VOLTAGE_REQUEST (R433). A steward presents a new voltage code with a VSTB toggle. -/
  | voltageRequest (d : Fin 10) (code : BitVec 7)
  /-- VOLTAGE_ACK (R433). VACK equal to VSTB acknowledges the request and permits the next. -/
  | voltageAck (d : Fin 10)
  /-- VOLTAGE_ACK_TIMEOUT (R433). A request unacknowledged for 100 µs increments VTO and is presented again. -/
  | voltageAckTimeout (d : Fin 10)
  /-- GL_PWR_WRITE (R389). A write of GL_PWR changes the power mode or CAP ceiling, reaching new frequencies within 100 µs. -/
  | glPwrWrite (who : Party) (v : Word)
  /-- LIMITER_SAMPLE (R391). Each µs a group limiter samples power and temperature and adds or removes stretch steps and issue gating. -/
  | limiterSample (g : Fin 8) (m : LimiterSample)
  /-- THERMAL_TRIP (R392). At 125 °C the always-on island asserts THERMTRIP_N, isolates every port and removes power. -/
  | thermalTrip (sensor : Fin 492) (eighths : Int)
  /-- COLD_START (R396). PWRGD rising, or COLD_RST_N released, starts the cold-start sequence. -/
  | coldStart
  /-- COLD_RESET (R435). COLD_RST_N low for 1 µs resets the block abruptly. -/
  | coldReset
  /-- PWRGD_FALL (R435). PWRGD falling is an abrupt loss of power. -/
  | pwrgdFall
  /-- SHELF_STARTUP_TEST_DONE (R397). A shelf's start-up test ends, repairing rows, mapping cores and retiring on failure. -/
  | shelfStartupTestDone (n : Fin 64) (r : StartupResult)
  /-- RTGO (R399). Writing RTGO starts the root context of a shelf. -/
  | rtgo (who : Party) (n : Fin 64) (v : Word)
  /-- HRDY (R398). Writing HRDY makes the block host-ready and opens control space on every host port. -/
  | hrdy (who : Party) (v : Word)
  /-- WARM_RESET (R400). WARM_RST_N low quiesces the ports, clears the ledgers and restarts from 1 ms of Table 16.6. -/
  | warmReset
  /-- SHELF_RESET (R401). Writing RST of SH_PWR declares the shelf in reset and runs Table 16.7. -/
  | shelfReset (who : Party) (n : Fin 64) (v : Word)
  /-- SHELF_RESET_DONE (R401). The shelf-reset sequence ends; the shelf becomes active with its root context, or retires. -/
  | shelfResetDone (n : Fin 64) (r : StartupResult)
  /-- PGD_TIMEOUT (R434). PGD not rising within 0.5 ms of PEN retires the group's shelves or holds the block in reset. -/
  | pgdTimeout (d : Fin 10)
  /-- PGD_FALL (R434). PGD falling while in use retires the group or acts as abrupt cold reset. -/
  | pgdFall (d : Fin 10)
  /-- REFCLK_LOST (R430). No REFCLK edge for 2 µs sets REFLOST and freezes the frequency loops. -/
  | refclkLost
  /-- REFCLK_RESTORED (R430). REFLOST clears 10 µs after edges return and the loops resume. -/
  | refclkRestored
  /-- TSYNC_IN (R431). A rising edge of TSYNC_IN latches DEVTIME into GL_TSCAP. -/
  | tsyncIn
  /-- TSYNC_OUT_PERIOD (R431). At each multiple of PER µs TSYNC_OUT goes high for 100 ns. -/
  | tsyncOutPeriod
  /-- VX_READ (R405). A Vexek READ frame returns a register value, WAIT, FAULT or nothing. -/
  | vxRead (addr : BitVec 23) (hcrc : BitVec 8)
  /-- VX_WRITE (R405). A Vexek WRITE frame writes a register, or is discarded on a DCRC error. -/
  | vxWrite (addr : BitVec 23) (hcrc : BitVec 8) (data : Word) (dcrc : BitVec 8)
  /-- VX_IDLE_RESET (R405). 128 clocks of VXDIO high reset the frame state and keep the session. -/
  | vxIdleReset
  /-- OPEN_PWD (R407). OPEN-PWD opens a WARDEN session in MANUFACTURE when the password matches. -/
  | openPwd
  /-- OPEN_CRED (R409). OPEN-CRED checks a credential and starts the challenge. -/
  | openCred
  /-- VX_CHALLENGE_READY (R409). The authenticator writes the ephemeral key and challenge and sets CHAL. -/
  | vxChallengeReady
  /-- PROVE (R409). PROVE compares the probe's proof in fixed time and opens the session or sets AUTHF. -/
  | prove
  /-- CLOSE (R410). CLOSE ends the session and releases its halts and quarantines. -/
  | close
  /-- VX_LOCK_EXPIRY (R409). The 10 s port lock after eight failures ends. -/
  | vxLockExpiry
  /-- VX_HALT (R411). A write of VX_HALT triggers the named groups to halt. -/
  | vxHalt (v : Word)
  /-- CORE_HALTED (R412). A triggered core reaches a boundary, drains and sets HALTED. -/
  | coreHalted (c : CoreId)
  /-- VX_RUN (R414). A write of VX_RUN releases its groups. -/
  | vxRun (v : Word)
  /-- VX_STEP (R414). VX_RUN with STEP issues one instruction, pair or element on the selected core and halts again. -/
  | vxStep (v : Word)
  /-- VX_STATE_WRITE (R413). A write of VX_STDATA changes the selected halted store's state at release. -/
  | vxStateWrite (v : Word)
  /-- VX_MEMORY_READ (R413). A read of VX_MDATA reads shelf or host memory for the debugger. -/
  | vxMemoryRead
  /-- VX_MEMORY_WRITE (R413). A write of VX_MDATA writes shelf or host memory, grant-checked for host. -/
  | vxMemoryWrite (v : Word)
  /-- VX_QUARANTINE (R416). VX_QUAR with GO 1 holds and drains a slot's contexts for quarantine. -/
  | vxQuarantine (v : Word)
  /-- VX_QUARANTINE_CLEAR (R416). VX_QUAR with GO 0 frees the slot, releases its halt and raises STEWARD. -/
  | vxQuarantineClear (v : Word)
  /-- QUARANTINE_DONE (R416). Once every store of the slot is empty, QSTATE becomes 2. -/
  | quarantineDone
  /-- QUARANTINE_TIMEOUT (R416). Stores not empty within 1 ms release the holds and set QFAIL. -/
  | quarantineTimeout
  /-- TRACE_COLLECT (R420). Every 4 ns the trace unit takes one packet per shelf from the core FIFOs into its buffer or host ring. -/
  | traceCollect
  /-- VX_TRPOP (R421). A write of VX_TRPOP removes the oldest trace packet. -/
  | vxTrpop
  /-- FUSE_SERIAL (R438). VX_FUSECMD GO with ITEM SERIAL programs GL_SERIAL, or returns DENIED or SET. -/
  | fuseSerial (v : Word)
  /-- FUSE_PASSWORD (R438). VX_FUSECMD GO with ITEM PASSWORD programs the debug password, or returns DENIED or SET. -/
  | fusePassword (v : Word)
  /-- FUSE_PROGRAM_DONE (R438). Fuse programming and read-back end, setting RESULT and clearing BUSY. -/
  | fuseProgramDone (verified : Bool)
  /-- CREDIT_GRANT (R425). Each BCLK cycle in which a bridge CRD signal is high grants one credit on its host-port channel, letting a waiting message be sent. -/
  | creditGrant (p : Fin 16) (ch : CreditChan)
  /-- PGD_RISE (R434). PGD of a requested power domain rises after PEN, letting the domain's islands start, such as the shelf start-up test of its group. -/
  | pgdRise (d : Fin 10)
  /-- ENTDAA (R369). An I3C ENTDAA from the bus controller assigns the device its dynamic address, using the provisional ID of R436. -/
  | entdaa (dynAddr : BitVec 7)
  /-- SPI_TRANSFER_COMPLETE (R361). An SPI transfer to the serial NOR completes and raises warden event source SPIDONE. -/
  | spiTransferComplete
  /-- REMOTE_ACCESS_REPLY (R379). The reply to a remote REGWR or REGRD returns from the target's warden and completes the firmware mailbox response. -/
  | remoteAccessReply (status : BitVec 8) (value : Word)
  deriving DecidableEq, Repr

end Sys2Proof
end

