-- ==== Sys2Proof/Decode.lean ====
section
/-! DEFINITION. The command that a word spells. The opcode table gives none of its rows bits, so no word spells a command. -/

namespace Sys2Proof

/-- The command that a word of the opcode table's numbering spells: none, as no row of the table has bits. -/
def decodeTableWord (_nbits _w : Nat) : Option Instr := none

end Sys2Proof
end

