-- ==== Sys2Proof/Config.lean ====
section
/-! DEFINITION. What the spec leaves to an implementation or to another standard: free values and functions without a body. -/

namespace Sys2Proof

/-- The value that the spec leaves open, at each drawing: the step applies it to the counter `State.freeCtr` (log entry 3). -/
opaque Config.freeValue : Nat → Word

/-- The bytes of the warden's ROM; the spec gives its size and use, not its contents (R359). -/
opaque Config.rom : Nat → Byte

/-- SHA-384 of a byte string (R363, R407, R409), a standard the spec names and does not restate (log entry 4). -/
opaque Config.sha384 : List Byte → BitVec 384

/-- HMAC-SHA-384 of a key and a message (R409). -/
opaque Config.hmac384 : List Byte → List Byte → BitVec 384

/-- ECDSA P-384 verification: key digest, SHA-384 of the message, r, s (R363, R407). -/
opaque Config.ecdsaVerify : BitVec 384 → BitVec 384 → BitVec 384 → BitVec 384 → Bool

/-- ECDSA P-384 signature of a digest under the device identity key, r then s (Table 15.8). -/
opaque Config.ecdsaSign : BitVec 384 → BitVec 768

/-- The P-384 public point of a scalar, x then y (R409). -/
opaque Config.p384Public : BitVec 384 → BitVec 768

/-- The x-coordinate of a scalar times a P-384 point (R409). -/
opaque Config.p384Shared : BitVec 384 → BitVec 768 → BitVec 384

/-- The data that the compressor of a form of Table 5.4 makes of a payload (R150: a function of plaintext, algorithm and effort only); it is
used where it decodes to the payload (log entry 131). -/
opaque Config.compress : BitVec 3 → List Byte → List Byte

/-- Check of a life-cycle token against the key that Table 15.11 names: present state, target state, token. -/
opaque Config.tokenOk : BitVec 2 → BitVec 2 → List Byte → Bool

/-- SHA-384 of the fused configuration, serial excluded (Table 15.9, index 5). -/
opaque Config.fusedDigest : BitVec 384

/-- Digests of the certificate chains of slots 0 and 1 (Table 15.8). -/
opaque Config.certDigest : Nat → BitVec 384

/-- The certificate chain of a slot (Table 15.8). -/
opaque Config.certChain : Nat → List Byte

/-- The state 0 to 2 of a sensor's reading by the thresholds of its PDR, which the spec does not give (R366). -/
opaque Config.sensorState : Nat → BitVec 16 → BitVec 2

/-- Onahorn's MIPI manufacturer ID, the upper 16 bits of the provisional ID (R436). -/
opaque Config.mipiManufacturer : BitVec 16

/-- The UUID that Get Endpoint UUID returns (Table 15.8). -/
opaque Config.endpointUuid : BitVec 128

/-- The queue of the serving shelf to which packets of a stream record are delivered (R60): the spec does not say which (log entry 13). -/
opaque Config.targetQueue : Nat → Nat → BitVec 10

/-- The queue of the serving shelf that feeds a link, by link and whether the alternate shelf serves it (log entry 13). -/
opaque Config.linkQueue : Nat → Bool → BitVec 10

/-- The host address at which the payload of a packet starts, by region, entry index and SEQ: the spec says only that it lies under the grant
of its entry (R42, R77; log entry 121). -/
opaque Config.payloadAddr : Nat → Nat → Nat → Word

/-- The link on which a path-routed packet leaves, from its payload, whose layout the spec does not give (R79, R127; log entry 7). -/
opaque Config.pathHop : List Byte → BitVec 8

/-- The code within 0x30 to 0x3F and the payload of a link-management packet, from its contents as numbers (R127, log entry 7). -/
opaque Config.mgmtCode : List Nat → BitVec 4
opaque Config.mgmtBytes : List Nat → List Byte

/-- The path by which a reply returns, from the arrival link of what it answers and the device's place on the path (R127, log entry 7). -/
opaque Config.returnPath : Nat → List Byte

/-- The device whose removal from the system a broadcast announces (R127): the spec gives that broadcast no form (log entry 7). -/
opaque Config.removedDevice : List Byte → Option (BitVec 12)

end Sys2Proof
end

