-- ==== Sys2Proof/Machine/State.lean ====
section
/-! DEFINITION. The state of the CE-1024: every register, memory, queue, timer and pin that the spec gives the block, as plain data,
the queue of commands that wait, and the state right after reset. -/

namespace Sys2Proof.Machine

/-- Why a command faults. No meaning raises a fault: every event of this block has an effect or none, never an undefined stop. -/
inductive Fault where
  /-- Raised by no meaning; it stands for behaviour to which R1 gives no covering statement. Safe: the machine stops. -/
  | uncovered
  deriving DecidableEq, Repr

/-- Why a command is refused. Every row has its meaning and no meaning refuses. -/
inductive Refusal where
  /-- Raised by an arm whose row has no meaning yet. Safe: nothing can be proved of it. -/
  | notModelled (mnemonic : String)
  deriving DecidableEq, Repr

/-! ## Packets and the ledger -/

/-- A command packet: header words W0 to W3 (Table 3.1), payload, and the trailer's PCRC and TAG (Table 3.2). -/
structure Packet where
  w0 : Word
  w1 : Word
  w2 : Word
  w3 : Word
  payload : List Byte
  pcrc : Word
  tag : BitVec 128
  /-- The poison mark of data read from shelf memory: its offset in the packet (Table 12.3). -/
  bad : Option Nat := none
  deriving DecidableEq, Repr

/-- Role of a ledger entry (R48). -/
inductive Role where
  | origin | target | stream
  deriving DecidableEq, Repr

/-- State of a ledger entry (Table 2.3). -/
inductive LedSt where
  | retired | opened | issued | dataDone | acked | complete
  deriving DecidableEq, Repr

/-- A ledger entry (Table 2.1). `word30` is DEADLINE of an ORIGIN entry and OTXN of a TARGET entry. ECHK is computed (`Entry.words`). -/
structure Entry where
  role : Role := .origin
  st : LedSt := .retired
  prep : Bool := false
  eflags : BitVec 8 := 0
  gen : BitVec 30 := 0
  ownw : BitVec 4 := 0
  localEp : BitVec 8 := 0
  keySlot : BitVec 16 := 0
  stream : BitVec 16 := 0
  partner : BitVec 20 := 0
  npkt : BitVec 16 := 0
  seqFirst : BitVec 48 := 0
  retries : BitVec 8 := 0
  ackSeq : BitVec 48 := 0
  grant : BitVec 32 := 0
  bytes : BitVec 32 := 0
  cidx : BitVec 32 := 0
  cring : BitVec 16 := 0
  sring : BitVec 16 := 0
  word30 : Word := 0
  reason : BitVec 8 := 0
  ctx : BitVec 20 := 0
  deriving DecidableEq, Repr

/-- A capability with its tag (Table 10.1). -/
structure Cap where
  rights : BitVec 8 := 0
  otype : BitVec 8 := 0
  limit : BitVec 56 := 0
  base : BitVec 56 := 0
  tag : Bool := false
  deriving DecidableEq, Repr

/-- The result of a tag: a value with the ASR flags it carries, a capability, or poison with its cause (R173, R228). -/
inductive TagRes where
  | value (v : Word) (flags : Word)
  | pair (v w : Word)
  | cap (c : Cap)
  | poison (cause : Nat)
  deriving DecidableEq, Repr

/-- A tag of a context: core key, resident store, tag number (R168). -/
structure TagRef where
  core : Nat
  store : Nat
  tag : Nat
  /-- The model's own number of the tag's issue, so that a result never reaches a later use of the tag. -/
  gen : Nat := 0
  deriving DecidableEq, Repr

/-- What the ledger unit keeps beside an entry and never commits: running timers, a held ACK, packets handed to a link port or
delivered, the links that its packets used (R53, R60 to R62, R64). -/
structure EntryVol where
  ackDue : Option Nat := none
  ackStep : Nat := 0
  idleDue : Option Nat := none
  heldAck : Bool := false
  lastSeq : Option (BitVec 48) := none
  handed : List (BitVec 48) := []
  /-- Packets of the range that the outbound path has let through in order (R46), and payload bytes delivered (TARGET). -/
  released : Nat := 0
  bytes : Nat := 0
  links : List Nat := []
  /-- An outcome that is fixed and waits for a completion slot or for a commit in flight, and a partner loss that waits for one. -/
  want : Option (BitVec 8) := none
  lost : Bool := false
  /-- A DATA-DONE request that waits for earlier TARGET entries of the stream (Table 2.11). -/
  heldSet : Option TagRef := none
  deriving DecidableEq, Repr

/-- What the ledger unit keeps for an open stream and never commits (R60): FRONTIER, the time of its last NAK-GAP, a close that waits. -/
structure StreamVol where
  frontier : BitVec 48 := 0
  /-- The record is the origin's end of its stream (R44). -/
  origin : Bool := false
  nakGap : Option Nat := none
  closing : Bool := false
  /-- The close answers the partner with NAK-CLOSED once it commits (R60). -/
  nak : Bool := false
  /-- A LEDOPEN has returned SEQEND: the stream accepts no further transaction (R45). -/
  seqEnd : Bool := false
  deriving DecidableEq, Repr

/-- One entry image of a commit: the region (the shelf whose ledger it belongs to), the index and the new entry (R54). -/
structure Image where
  region : Nat
  idx : Nat
  entry : Entry
  deriving DecidableEq, Repr

/-- A commit in flight (R54, R55): its images, the regions whose mirror target has not answered, whether the PREPARE was sent a
second time, whether RESYNC holds it, the instruction that waits for it, and the packet that its commit point delivers. -/
structure Commit where
  id : Nat
  images : List Image
  awaiting : List Nat
  resent : Bool := false
  held : Bool := false
  requester : List (TagRef × TagRes) := []
  pkt : Option Packet := none
  link : Nat := 0
  deriving DecidableEq, Repr

/-- Mirror mode (R57, SH_LEDMIR). -/
inductive MirMode where
  | buddy | resync | host | none
  deriving DecidableEq, Repr

/-- Body of a flue message that the ledger units and key hardware exchange (R55, R144). -/
inductive FlueBody where
  | prepare (commit : Nat) (images : List Image)
  | prepared (commit : Nat)
  | resend (commit : Nat)
  | commit (images : List Image)
  deriving DecidableEq, Repr

/-- A flue message between two attachments (R23). -/
structure FlueMsg where
  src : Attach
  dst : Attach
  body : FlueBody
  /-- Where it stands (R20): the input by which it came to its router (a router, or 64 + an attachment), and the routers still before it, the
  one where it waits in front. -/
  inp : Nat := 0
  path : List Nat := []
  deriving DecidableEq, Repr

/-! ## Rings, queues, partners -/

/-- A packet fetched from a SUBMIT ring: its first index, its slots, its stream and partner, whether it is released (R86). -/
structure RingRun where
  first : Nat
  slots : Nat
  stream : Nat
  partner : Nat
  released : Bool
  deriving DecidableEq, Repr

/-- A delivered packet that a RECEIVE ring takes: the claimed index of its first slot, the slots that the host port has not completed, and
whether the first slot is written (R87). -/
structure RxWrite where
  packet : Packet
  cring : Nat
  htag : BitVec 32
  region : Nat
  idx : Nat
  first : Option Nat := none
  left : List Nat := []
  shown : Bool := false
  deriving DecidableEq, Repr

/-- A host ring: the descriptor read at ENABLE (Table 3.8), the free-running indices (R82), and the ring unit's counts. -/
structure Ring where
  en : Bool := false
  desc : List Word := []
  p : Word := 0
  c : Word := 0
  /-- First index not yet fetched (SUBMIT). -/
  fetched : Word := 0
  /-- Packets fetched whose slots C has not passed (R86). -/
  runs : List RingRun := []
  ovr : BitVec 16 := 0
  held : Option (BitVec 32) := none
  /-- Slots acknowledged since the last event message, and when its EVTIME ends (R92). -/
  unreported : Nat := 0
  evDue : Option Nat := none
  /-- Delivered packets that a RECEIVE ring has still to write, oldest first (R87). -/
  rx : List RxWrite := []
  deriving DecidableEq, Repr

/-- A completion slot write that is on its way or acknowledged (R51, R326). -/
structure SlotWrite where
  ring : Nat
  index : Nat
  shelf : Nat
  idx : Nat
  acked : Bool
  deriving DecidableEq, Repr

/-- Who holds a staging slot or a popped item: a core's resident store, or a hardware unit of the shelf (R97, R101). -/
inductive QOwner where
  | ctx (core store : Nat)
  | unit (u : Nat)
  deriving DecidableEq, Repr

/-- A committed or popped item of a queue: its word offset in the buffer, its length, and CT of its producer (R153). -/
structure QItem where
  off : Nat
  len : Nat
  ct : Bool := false
  /-- A glaze engine committed the item (R136). -/
  byGlaze : Bool := false
  deriving DecidableEq, Repr

/-- A staged item (R97, R100, R196). -/
structure Staged where
  owner : QOwner
  off : Nat
  len : Nat
  voided : Bool := false
  noauth : Bool := false
  deriving DecidableEq, Repr

/-- An on-device queue (R96): committed items oldest first, popped items, staged items, and EPOCH. The contents lie in shelf memory. -/
structure Queue where
  items : List QItem := []
  popped : List (QOwner × QItem) := []
  staged : List Staged := []
  /-- Hardware units that have bound a staging slot, and those that wait for one (R101). -/
  bound : List Nat := []
  waiting : List Nat := []
  epoch : BitVec 16 := 0
  /-- Producers with a QWR dropped for want of authority and nothing staged (R196). -/
  denied : List QOwner := []
  /-- The round-robin pointer: the requester after the one served last (R97). -/
  rr : Nat := 0
  /-- When a POP took an item with a COMMIT in the same ic still to land (R99), and when the queue was last flushed (Table 3.17). -/
  popAt : Option Nat := none
  flushAt : Option Nat := none
  deriving DecidableEq, Repr

/-- A queue operation of a context (Table 3.15). -/
inductive QueueOp where
  | reserve (len : Nat)
  | write (i : Nat) (b : List Byte)
  | commit (ct : Bool)
  | pop (same : Bool)
  | release
  | flush (merged : Bool)
  deriving DecidableEq, Repr

/-- A queue operation that a gated shelf's router holds (R25): the queue, the requester, and the tag that takes its status. -/
structure HeldOp where
  q : Nat
  owner : QOwner
  op : QueueOp
  tag : Option TagRef := none
  deriving DecidableEq, Repr

/-- State of a cached partner (Table 4.9). -/
inductive PartnerSt where
  | present | suspect | lost
  deriving DecidableEq, Repr

/-- A partner cache entry of a shelf (R124, R125), its probe and its token bucket (R121). -/
structure Partner where
  pid : BitVec 20
  valid : Bool
  rclass : BitVec 4
  st : PartnerSt := .present
  since : Nat := 0
  lastArrival : Nat := 0
  probeSent : Option Nat := none
  bucket : Nat := 0
  bucketAt : Nat := 0
  deriving DecidableEq, Repr

/-! ## Links -/

/-- State of a link port (Table 4.6). -/
inductive LinkSt where
  | disabled | detect | eq | lock | param | active | retrain | failed
  deriving DecidableEq, Repr

/-- A packet that waits in, or is leaving through, a link port: its virtual channel, its bytes and how many are in flits. -/
structure TxPkt where
  vc : Nat
  bytes : List Byte
  sent : Nat := 0
  /-- Offset of its poison mark. -/
  bad : Option Nat := none
  deriving DecidableEq, Repr

/-- Outcome of inbound glaze work (R137). -/
inductive GlazeOutcome where
  | ok (plain : List Byte) | tagFail | crcFail | noKey | keyBind
  deriving DecidableEq, Repr

/-- A packet that arrived whole at a link port, with its virtual channel and the outcome of its inbound glaze work. -/
structure RxPkt where
  vc : Nat
  pkt : Packet
  glazed : Option GlazeOutcome := none
  /-- The engine of the serving shelf that works on it, and the carried payload once its seal is open (R137, R138). -/
  eng : Option Nat := none
  opened : Option (List Byte) := none
  /-- Flits of receive buffer that its leaving frees (R110). -/
  flits : Nat := 0
  deriving DecidableEq, Repr

/-- A link port (R107 to R117), its damper's link part (R121, R122) and what the far end reported (Table 4.23). -/
structure Link where
  st : LinkSt := .disabled
  since : Nat := 0
  /-- The present attempt runs at 53.125 GBd (R114), and under AUTO the link has fallen back to that rate. -/
  slow : Bool := false
  fell : Bool := false
  /-- RATE of LK_STAT: 0 none, 1 53G, 2 56G. -/
  rate : BitVec 2 := 0
  preset : BitVec 3 := 0
  /-- Transmitter tap weights c(-2), c(-1), c(0), c(+1) in units of 1/1600 (Tables 4.1 and 4.2). -/
  taps : List Int := []
  precode : Bool := false
  peerDev : BitVec 12 := 0
  peerIdv : Bool := false
  /-- The far end has shown since link up that it holds an id (R117, log entry 61). -/
  farIdv : Bool := false
  peerLink : BitVec 8 := 0
  peerSerial : Option Word := none
  isol : Bool := false
  /-- The link has been ACTIVE or FAILED since the block's start (LINKDONE of GL_BOOTSTAT). -/
  reached : Bool := false
  ldCount : BitVec 16 := 0
  /-- Message bits of the codeword in progress before the next flit, and whether that codeword is uncorrectable (R106). -/
  cwPos : Nat := 0
  cwBad : Bool := false
  /-- FSEQ expected by the receiver, and the last FSEQ received in order. -/
  rxExp : BitVec 12 := 0
  /-- FSEQ that the sender uses next. -/
  txNext : BitVec 12 := 0
  /-- Retry buffer: FSEQ and flit payload with its type, oldest unacknowledged first (R111). -/
  retryBuf : List (Nat × Nat × List Byte) := []
  /-- Rewind in progress: FSEQ to resend next. -/
  rewind : Option (BitVec 12) := none
  /-- RETRY-REQ repeats outstanding: FSEQ asked for, requests sent, time of the last. -/
  reqSent : Option (Nat × Nat × Nat) := none
  reqWanted : Bool := false
  credits : Tbl Nat := []
  lastCred : Tbl Nat := []
  freed : Tbl Nat := []
  credRot : Nat := 0
  /-- Packets built by hardware that wait for the damper's checks (R122), and packets that the port has accepted. -/
  respq : List Packet := []
  /-- Forwards (R119), and ledger-class packets that wait for the packets before them in SEQ order (R46). -/
  fwdq : List Packet := []
  heldOut : List Packet := []
  txq : List TxPkt := []
  abortWanted : List Nat := []
  rxPart : Tbl (List Byte) := []
  /-- Flits of receive buffer held by the packet in progress, by channel. -/
  rxFlits : Tbl Nat := []
  rxFifo : List RxPkt := []
  uncorrAt : List Nat := []
  lastValid : Nat := 0
  bucket : Nat := 0
  bucketAt : Nat := 0
  damperrAt : List Nat := []
  stormUntil : Option Nat := none
  /-- DEVTIME of the last SYNC received and of the last SYNC sent, and the measured link delay (R132). -/
  syncRx : Nat := 0
  syncTx : Nat := 0
  delay : Nat := 0
  /-- Token bucket of the dispatcher for glaze items toward a share link, in sixteenths of a byte (R139). -/
  glBucket : Nat := 0
  glBucketAt : Nat := 0
  damperBroken : Bool := false
  deriving DecidableEq, Repr

/-! ## Global operations and system -/

/-- A contribution to a global operation (R129). -/
structure GopContrib where
  tag : TagRef
  value : Word
  op : Nat
  deriving DecidableEq, Repr

/-- One of the 16 tags of the global-operation unit (R128 to R133, R198). -/
structure GopTag where
  status : Nat := 0
  inst : BitVec 48 := 0
  reduce : Bool := false
  op : Nat := 0
  locals : List GopContrib := []
  held : List GopContrib := []
  children : List Nat := []
  acc : Option Word := none
  ovf : Bool := false
  sentUp : Bool := false
  bcast : Option (List Byte) := none
  bcastTaken : Bool := true
  /-- GRECVs that wait: their tag, their VMID, and the pieces of memory that take the payload, as `Place.key` numbers them. -/
  recv : List (TagRef × BitVec 12 × List (Nat × Nat)) := []
  deriving DecidableEq, Repr

/-- System membership, election, snapshot and time (R127, R131, R132). -/
structure Sys where
  devId : BitVec 12 := 0
  idv : Bool := false
  root : Bool := false
  treeOk : Bool := false
  rootSer : Word := 0
  dist : Nat := 0
  electAt : Nat := 0
  snapActive : Bool := false
  snapCt : Nat := 0
  snapFrozen : Bool := false
  snapCut : Tbl Entry := []
  snapChildren : List Nat := []
  snapRefused : Bool := false
  timesyncAt : Nat := 0
  /-- Correction still to be slewed into DEVTIME, in ns (R132). -/
  slew : Int := 0
  sysResetting : Bool := false
  deriving DecidableEq, Repr

/-! ## Glaze engines and keys -/

/-- A key slot (Table 5.1). -/
structure KeySlot where
  key1 : BitVec 256 := 0
  key2 : BitVec 256 := 0
  valid : Bool := false
  mode : BitVec 3 := 0
  localId : BitVec 20 := 0
  peer : BitVec 20 := 0
  floor : BitVec 48 := 0
  deriving DecidableEq, Repr

/-- A glaze request: the item's words as bytes, CT, when it began to wait, and what compression already did (R138, R152). -/
structure GlazeReq where
  bytes : List Byte
  ct : Bool
  since : Nat
  /-- The request has left the compression step: form carried, result so far, carried payload. -/
  packed : Option (Nat × Nat × List Byte) := none
  /-- The item's data carry a poison mark (Table 12.3). -/
  bad : Bool := false
  deriving DecidableEq, Repr

/-- The output of a finished glaze operation (R157). -/
structure GlazeOut where
  outq : BitVec 16
  statq : BitVec 16
  tagv : BitVec 32
  form : Nat
  result : Nat
  len : Nat
  data : List Byte
  bad : Bool := false
  deriving DecidableEq, Repr

/-- A glaze engine: the request it runs and the output it is to commit. Engines 0 to 3 are crypto, 4 and 5 compression. -/
structure Engine where
  req : Option GlazeReq := none
  out : Option GlazeOut := none
  outDone : Bool := false
  lastTest : Nat := 0
  testAt : Option Nat := none
  /-- The engine has failed a test: it takes no further requests (R161). -/
  failed : Bool := false
  deriving DecidableEq, Repr

/-- The key command in progress (R142). -/
structure KeyCmd where
  slot : Nat
  kek : Nat
  wrap : Bool
  warden : Bool
  /-- The two lines of the load record, as host memory returns them. -/
  lo : Option (List Byte) := none
  hi : Option (List Byte) := none
  deriving DecidableEq, Repr

/-! ## Efmar cores and contexts -/

/-- What a poisoned result reports (R173, Table 11.4): its tag, CAUSE, and the producer's PC and address. -/
structure Poison where
  tag : Nat
  cause : Nat
  dpc : BitVec 56
  addr : Word
  deriving DecidableEq, Repr

/-- An operand-stack slot: a value, a pending slot with its tag, or a poisoned slot (R168, R173). -/
inductive Slot where
  | val (v : Word)
  | tag (t : Nat)
  | poison (p : Poison)
  deriving DecidableEq, Repr

/-- Where a tag's result goes besides the stack slots that carry it. -/
inductive TagDest where
  | stack
  | fp (f : Nat)
  | seg (r : Nat)
  deriving DecidableEq, Repr

/-- What a tag's operation does with the bytes that it reaches in host memory. -/
inductive TagOp where
  | plain
  | load (size : Nat) (signed : Bool)
  | cas (e n : Word)
  | aadd (v : Word)
  | aor (v : Word)
  | aand (v : Word)
  | ldc
  | probe (stage level : Nat)
  /-- The value that the tag returns once a write has completed. -/
  | hold (v : Word)
  /-- The words of a capability that wait for their tag. -/
  | ldcData (w0 w1 : Word)
  deriving DecidableEq, Repr

/-- An outstanding tag (R168 to R173): the producer's PC and address, where the result goes, the operation with the pieces of host memory
that it reaches (address and length), the result once it exists, whether it is an arithmetic tag (R228), the tag of the second slot of
an instruction that pushes two (R193), and the TSBs of the exception entries since its issue, the first in front: that one holds the
issuer's ASR, and each holds a copy of the segments (R172, R228). -/
structure TagRec where
  dpc : BitVec 56
  addr : Word
  dest : TagDest
  op : TagOp := .plain
  parts : List (Nat × Nat) := []
  se : Bool := false
  /-- VMID of XLAT at issue (R330). -/
  vmid : BitVec 12 := 0
  res : Option TagRes := none
  arith : Bool := false
  /-- A floating-point operation (R243). -/
  fp : Bool := false
  mate : Option Nat := none
  tsbAt : List Nat := []
  gen : Nat := 0
  deriving DecidableEq, Repr

/-- State of a context (Table 9.1). -/
inductive CtxSt where
  | free | ready | running | waiting | sleeping | parked | loading
  deriving DecidableEq, Repr

/-- What an instruction of a context waits for (R169 to R171, R236). -/
inductive WaitWhy where
  | tag (t : Nat)
  | tagLimit
  | storeBuffer
  | ring
  | fill
  | drain
  | fpOwner
  | host
  /-- A long instruction stands between two elements (R206). -/
  | element
  | other
  deriving DecidableEq, Repr

/-- Where an access of a core lands: an address of `State.mem`, host memory, control space, or the warden's ROM, log store and
telemetry snapshot (Tables 10.6 and 15.1). -/
inductive Place where
  | mem (a : Nat)
  | host (a : Nat)
  | ctl (off : Nat)
  | rom (off : Nat)
  | log (off : Nat)
  | snap (off : Nat)
  deriving DecidableEq, Repr

/-- A resident store: the context it holds (Tables 9.1, 9.10, 11.1). The top of the operand stack is the head of `ring`. -/
structure Ctx where
  st : CtxSt := .free
  ctx : BitVec 20 := 0
  prio : BitVec 2 := 0
  ct : Bool := false
  rsm : Bool := false
  wmask : BitVec 4 := 0
  pend : BitVec 4 := 0
  wwon : Bool := false
  code : BitVec 16 := 0
  posts : BitVec 16 := 0
  wtime : Word := 0
  pc : BitVec 56 := 0
  ring : List Slot := []
  sp : BitVec 56 := 0
  /-- Slots below the window base, counted from the base of seg.s. -/
  wb : Nat := 0
  /-- Pending and poisoned slots that were spilled: effective address, where it lies, and the slot. -/
  spilled : List (Nat × Place × Slot) := []
  rstack : List (BitVec 56 × Nat) := []
  rsFloor : Nat := 0
  segs : Tbl Cap := []
  segPend : List (Nat × Nat) := []
  segPoison : List (Nat × Poison) := []
  tags : List (Nat × TagRec) := []
  pdrop : BitVec 16 := 0
  mph : Word := 0
  mpl : Word := 0
  /-- A product, and a round key, not yet visible, and when the one issued last was issued (R174, R175). -/
  prod : Option (Word × Word) := none
  rkey : BitVec 128 := 0
  rkeyNext : Option (BitVec 128) := none
  latchAt : Nat := 0
  asr : Word := 0
  pkeys : Word := 0
  xlat : Word := 0
  s1root : Word := 0
  s2root : Word := 0
  walka1 : Word := 0
  walka2 : Word := 0
  tsbp : Cap := {}
  etsb : Cap := {}
  mprog : BitVec 16 := 0
  mbuf : List Word := []
  storeErrs : Nat := 0
  wait : Option WaitWhy := none
  waitSince : Nat := 0
  hold : Bool := false
  held : Bool := false
  /-- Wakes that arrived while the context was LOADING (Table 9.5): source bits and code. -/
  lateWakes : List (BitVec 4 × BitVec 16) := []
  /-- Poisoned segment registers saved in a TSB, by the address of their copy (R173, R278), and the PC saved with a non-zero MPROG, by
  the address of the TSB (R245). -/
  tsbPoison : List (Nat × Poison) := []
  /-- A read of a side-effect page by an instruction that waits for it: the host address, and its data once they are there (R272); a line
  that the instruction's read of host memory could not bring, with the CAUSE (R327). -/
  seRead : Option (Nat × Option (List Byte)) := none
  readBad : Option (Nat × Nat) := none
  mprogPc : List (Nat × BitVec 56) := []
  /-- A BMOVE under way moves backward (R208). -/
  backward : Option Bool := none
  deriving DecidableEq, Repr

/-- A TLB entry (R264, R266). -/
structure TlbEntry where
  va : Nat
  size : BitVec 2
  asid : BitVec 16
  vmid : BitVec 12
  pte : Word
  leaf1 : Option Nat := none
  leaf2 : Option Nat := none
  deriving DecidableEq, Repr

/-- A store-buffer entry: one aligned 32-byte block, its bytes by offset in the block, and who issued it (R176). -/
structure StoreEnt where
  block : Place
  bytes : List (Nat × Byte)
  se : Bool
  store : Nat
  ctx : BitVec 20
  vmid : BitVec 12
  va : Word
  /-- The request that the entry needs is on its way. -/
  sent : Bool := false
  /-- The entry is part of the one before it, into which its store merged; or it is a later block of one store. Either way the two drain
  together (R176, R211). -/
  joined : Bool := false
  tied : Bool := false
  /-- The tag that an STC writes with its 16 bytes. -/
  capTag : Option Bool := none
  sysctl : Bool := false
  deriving DecidableEq, Repr

/-- A store-error log pair SELOGn and SELINFOn (Tables 6.13, 6.14). -/
structure SelEnt where
  valid : Bool := false
  cause : BitVec 4 := 0
  ctx : BitVec 20 := 0
  addr : Word := 0
  deriving DecidableEq, Repr

/-- An event source: its configuration and state (Table 11.15, R291 to R296). -/
structure EvSrc where
  en : Bool := false
  sense : BitVec 2 := 0
  prio : BitVec 4 := 0
  target : BitVec 4 := 0
  quar : Bool := false
  input : Bool := false
  act : Bool := false
  sat : Bool := false
  edges : BitVec 8 := 0
  qcnt : Nat := 0
  queue : BitVec 10 := 0
  kind : BitVec 2 := 0
  ccount : BitVec 8 := 0
  ctime : BitVec 11 := 2
  /-- Data sources: pending after coalescing; events counted towards it; end of its CTIME (R294). -/
  dpend : Bool := false
  counted : Nat := 0
  coalDue : Option Nat := none
  deriving DecidableEq, Repr

/-- A trace packet (Table 17.8). -/
structure TracePkt where
  time : Nat
  shelf : Nat
  slot : Nat
  port : Nat
  kind : Nat
  ctx : BitVec 20
  value : Word
  drops : Nat
  deriving DecidableEq, Repr

/-- A context move that CTXCMD started (R232): OP, the core and store that it fills, the context, and for a LOAD the places of the TSB and
its effective address. -/
structure CtxMove where
  op : Nat
  core : Nat
  store : Nat
  ctx : BitVec 20
  src : List (Place × Nat) := []
  ea : Nat := 0
  /-- The command waits for a pairing hand-over: the store that issued it and its value (R354). -/
  later : Option (Nat × Word) := none
  deriving DecidableEq, Repr

/-- A line of an instruction cache: its number (`Place.line`), its bytes as the fill brought them, and the 8-byte words of it that read as
uncorrectable (R164, Table 12.3). -/
structure CacheLine where
  line : Nat
  data : List Byte
  bad : List Nat := []
  deriving DecidableEq, Repr

/-- A set of an instruction cache: the lines of its four ways, and the tree of its pseudo-LRU replacement: each bit is true where the way
to replace next lies in the upper half (R164). -/
structure CacheSet where
  ways : List (Nat × CacheLine) := []
  root : Bool := false
  low : Bool := false
  high : Bool := false
  deriving DecidableEq, Repr

/-- A logical core: an active slot of a shelf, or the warden's core. -/
structure Core where
  run : Option Nat := none
  lastChosen : Nat := 15
  /-- When the running context was last chosen, and whether its quantum has expired (R237). -/
  chosenAt : Nat := 0
  quantumOut : Bool := false
  seg : Option (BitVec 3) := none
  bpen : Bool := true
  fuse : Bool := true
  icache : Tbl CacheSet := []
  /-- A line that a fetch waits for, and a line whose fetch failed, with the CAUSE (R173). -/
  fetchMiss : Option Nat := none
  fetchBad : Option (Nat × Nat) := none
  /-- The counters of the prediction table (R165). -/
  bht : Tbl (BitVec 2) := []
  /-- The instruction before this one was the first of a fused pair, and this one is its second (R166). -/
  pair : Bool := false
  /-- The load in X has met part of a buffered store, so that it does not fuse (R166). -/
  alone : Bool := false
  perf : Tbl Word := []
  pret : Word := 0
  tlb : List (Nat × TlbEntry) := []
  tlbMisses : BitVec 32 := 0
  tlbErr : Bool := false
  sbuf : List StoreEnt := []
  sel : Tbl SelEnt := []
  selOvf : Bool := false
  selLost : BitVec 16 := 0
  fpr : Tbl Word := []
  fpPend : List (Nat × Nat) := []
  fpPoison : List (Nat × Poison) := []
  fpOwn : Option Nat := none
  dtp : Cap := {}
  dauth : Cap := {}
  dfact : Bool := false
  escact : Bool := false
  dfcnt : BitVec 16 := 0
  lastDesc : BitVec 6 := 0
  gateOpen : Bool := true
  evBase : BitVec 4 := 0
  eslot : BitVec 4 := 0
  rps : List (BitVec 4) := []
  eoiErr : Bool := false
  swi : Bool := false
  evtmr : Word := 0
  wexp : Bool := false
  wcount : BitVec 32 := 0
  wexpAt : Option Nat := none
  srcs : Tbl EvSrc := []
  /-- Source fixed at step 5 of the latest event entry (R295); a delivery that began inside a mask window (R299): source, PRIO, and whether
  EVSYNC has ended the window. -/
  claim : Option Nat := none
  window : Option (Nat × Nat × Bool) := none
  /-- A and D atomics outstanding: TLB index, bits ORed (R270). -/
  adWait : Option (Nat × Word) := none
  mov : Option CtxMove := none
  ctxRes : Word := 0
  /-- The steward is to reset the core (R287). -/
  resetDue : Bool := false
  haltReq : Bool := false
  halted : Bool := false
  step : Bool := false
  stim : List TracePkt := []
  drops : Nat := 0
  /-- Instructions retired since the last retry (R344). -/
  sinceRetry : Option Nat := none
  deriving DecidableEq, Repr

/-! ## Shelves -/

/-- Whether a shelf runs, is gated or is in reset; retirement is the shelf's bit of `State.retired`. -/
inductive Phase where
  | active | gated | reset
  deriving DecidableEq, Repr

/-- A pairing hand-over in progress (R353). -/
structure Handover where
  split : Bool
  since : Nat
  drained : Bool := false
  deriving DecidableEq, Repr

/-- A host move unit (R14): the TARGET entry whose payload it wrote last. -/
structure Mover where
  entry : Option (Nat × Nat) := none
  deriving DecidableEq, Repr

/-- A wake held for a parked context (R239). -/
structure HeldWake where
  ctx : BitVec 20
  src : BitVec 4
  code : BitVec 16
  deriving DecidableEq, Repr

/-- A wedging step in progress or a pinned region (R312 to R315). -/
structure WedgeStep where
  region : Nat
  since : Nat
  deriving DecidableEq, Repr

/-- One shelf (R14). Its memory bytes are in `State.mem`, its cores in `State.cores`, its registers in `State.regs`. -/
structure Shelf where
  phase : Phase := .reset
  entries : Tbl Entry := []
  vol : Tbl EntryVol := []
  streams : Tbl StreamVol := []
  mirror : Tbl Entry := []
  adopt : Option Nat := none
  avol : Tbl EntryVol := []
  astreams : Tbl StreamVol := []
  preps : BitVec 16 := 0
  mode : MirMode := .buddy
  /-- Target of a resync in progress: true toward the buddy. -/
  resyncBuddy : Bool := false
  buddyBad : Bool := false
  commits : List Commit := []
  nextCommit : Nat := 0
  partners : List Partner := []
  fetching : List (BitVec 20) := []
  engines : Tbl Engine := []
  movers : Tbl Mover := []
  cryptoPool : List GlazeReq := []
  compPool : List GlazeReq := []
  /-- The item of the glaze queue that no engine or pool could take, and since when (R152). -/
  blocked : Option (Nat × QItem) := none
  /-- The links of the two classes whose inbound packet an engine took last (R139). -/
  lastGuar : Nat := 0
  lastShare : Nat := 0
  /-- Rehomed links that the shelf serves, in the order in which they reached it (R139). -/
  rehomed : List Nat := []
  /-- Key slots that an engine of the shelf waits for, and whether the fill has failed (R144). -/
  keyMiss : List (Nat × Bool) := []
  homeKeys : Tbl KeySlot := []
  mirrorKeys : Tbl KeySlot := []
  keyCache : List (Nat × KeySlot) := []
  transportKey : Option (BitVec 256) := none
  sealKey : BitVec 256 := 0
  sealCtr : BitVec 48 := 0
  saggarClosed : Bool := false
  wiping : Option Nat := none
  wedge : Option WedgeStep := none
  /-- When the next wedging step is due. -/
  wedgeAt : Nat := 0
  spareMap : List (Nat × Nat) := []
  holdList : List HeldWake := []
  idleAsked : Bool := false
  idleSince : Nat := 0
  handover : Option Handover := none
  detWaiting : Bool := false
  /-- Physical core that arrived at the last sparing of each pair or slot (R345), and cores under CORETEST. -/
  arrived : Tbl (Option Nat) := []
  coreTest : List Nat := []
  /-- When each pair or slot had its last parity error (Table 14.5). -/
  parityAt : Tbl (Option Nat) := []
  /-- The shelf has finished its test since the block's start (MEMDONE of GL_BOOTSTAT). -/
  started : Bool := false
  /-- Restoring of the ledger from the fallback region: adopted region or own, next index, image already read (R309). -/
  restore : Option (Bool × Nat) := none
  restoreImg : Option (List Byte) := none
  /-- ENTRY of the runtime image in each half of the code bank (R399). -/
  rtEntry : Tbl Nat := []
  wakeArmed : Bool := false
  /-- NOT-PRESENT returns that units of the shelf have reported to its steward (R25, R102). -/
  absents : Nat := 0
  /-- Queue operations that the router holds while the shelf is gated, oldest first (R25). -/
  heldOps : List HeldOp := []
  deriving DecidableEq, Repr

/-! ## Host ports -/

/-- Request opcode of a host port (Table 13.2). -/
inductive HostOp where
  | acqShare | acqOwn | acqRaise | readThrough | putLine | putMasked | evictDirty
  deriving DecidableEq, Repr

/-- On whose behalf a host request runs (R321, R326, R331). -/
inductive HostWho where
  | tag (t : TagRef)
  | store (core : Nat)
  | spill (core store : Nat)
  | ledger (n commit : Nat)
  | slot (ring index : Nat)
  | event (ring : Nat)
  | pte (core : Nat)
  /-- A line of instructions of a core (R164). -/
  | code (core : Nat)
  | tagTable
  | snapshot
  | logMirror
  | trace
  | debugger
  /-- A line of the load record, 0 or 1 (Table 5.2). -/
  | keyRecord (half : Nat)
  /-- A move unit: shelf and unit; shelf 64 stands for a GRECV. -/
  | payload (u m : Nat)
  /-- The tables that the device keeps in host memory (R93, R124, R328). -/
  | partner (n pid : Nat)
  | grant (p idx : Nat)
  | ringDesc (k : Nat)
  | evict
  | restore (n : Nat)
  deriving DecidableEq, Repr

/-- An outstanding request of a host port (R319). -/
structure HostReq where
  op : HostOp
  line : Nat
  se : Bool
  who : HostWho
  data : List Byte
  be : Word
  off : Nat := 0
  poison : Bool := false
  /-- Grant entry that the write was checked against (R333). -/
  grant : Option Nat := none
  deriving DecidableEq, Repr

/-- A line of a port cache (R321). -/
structure Line where
  st : LineState
  data : List Byte
  deriving DecidableEq, Repr

/-- A message of a host port (Table 13.2, Table 13.3). -/
inductive HostMsg where
  | request (rqtag : Nat) (r : HostReq)
  | datWr (rqtag : Nat) (data : List Byte) (be : Word) (poison : Bool)
  | ansNone (rctag : BitVec 8)
  | ansKept (rctag : BitVec 8)
  | ctlData (rctag : BitVec 8) (status : BitVec 2) (value : Word)
  | ctlAck (rctag : BitVec 8) (status : BitVec 2)
  | datRecall (rctag : BitVec 8) (data : List Byte) (dirty keep wbif : Bool)
  deriving DecidableEq, Repr

/-- A write that waits for its grant entry to be fetched (R328). -/
structure GrantWait where
  ref : Option (BitVec 32)
  vmid : Option (BitVec 12)
  src : Nat
  addr : Nat
  size : Nat
  who : HostWho
  data : List Byte
  be : Word
  deriving DecidableEq, Repr

/-- A recall held for a fill (R323). -/
structure HeldRecall where
  line : Nat
  own : Bool
  rctag : BitVec 8
  deriving DecidableEq, Repr

/-- A host port (R317 to R335). Lines are listed most recently used first. -/
structure Port where
  lines : List (Nat × Line) := []
  wbuf : List (Nat × List Byte) := []
  reqs : List (Nat × HostReq) := []
  heldRecalls : List HeldRecall := []
  reqCr : Nat := 0
  rspCr : Nat := 0
  datCr : Nat := 0
  outq : List HostMsg := []
  grants : List (Nat × List Word) := []
  grantFetch : List Nat := []
  grantWait : List GrantWait := []
  grantBroken : Bool := false
  /-- Dirty lines that a flush has still to write back (R320, Table 13.15). -/
  flushLeft : List Nat := []
  /-- The write data on its way from shelf memory to the next DAT-WR beat has a parity error (R350). -/
  parity : Bool := false
  deriving DecidableEq, Repr

/-! ## Warden, power, debug, outside -/

/-- A firmware image: its 256-byte header and its body (Table 15.3). -/
structure FwImage where
  hdr : List Byte := []
  body : List Byte := []
  deriving DecidableEq, Repr

/-- A firing-log record (Table 15.7). -/
structure LogRec where
  time : Nat
  src : BitVec 8
  unit : BitVec 12
  sev : BitVec 2
  seq : BitVec 32
  code : BitVec 16
  data : Word
  deriving DecidableEq, Repr

/-- A snapshot entry (Table 15.6). -/
structure SnapEnt where
  time : Nat := 0
  st : BitVec 2 := 3
  aux : BitVec 16 := 0
  value : BitVec 16 := 0
  deriving DecidableEq, Repr

/-- Where the warden firmware stands (R363, R370). -/
inductive WardenSt where
  | reset | running | recovery
  deriving DecidableEq, Repr

/-- Step of a PLDM firmware update (R369, R371). -/
inductive UpdSt where
  | idle | learn | ready | download | verify | apply | activate
  deriving DecidableEq, Repr

/-- A management request that the warden has not taken (R370): binding, arrival, 0 MCTP control or PLDM, 1 SPDM. -/
structure MgmtWait where
  binding : Binding
  at_ : Nat
  spdm : Bool
  deriving DecidableEq, Repr

/-- The warden: boot, log, snapshot, transport, update, mailbox (chapter 15). -/
structure Warden where
  st : WardenSt := .reset
  since : Nat := 0
  /-- When the trial of the running image began (R365). -/
  entered : Option Nat := none
  /-- Slot whose trial has failed, so that the next boot takes the other one. -/
  trialFailed : Option Bool := none
  norA : FwImage := {}
  norB : FwImage := {}
  rtA : FwImage := {}
  rtB : FwImage := {}
  /-- The 64 bytes of the platform configuration record in the NOR (Table 15.19). -/
  pcr : List Byte := []
  running : FwImage := {}
  measured : BitVec 384 := 0
  log : List LogRec := []
  logSeq : BitVec 32 := 0
  logW : Tbl Word := []
  /-- Records of dropped writes whose copy for the mirror is due (R368, Table 13.8). -/
  unmirrored : List LogRec := []
  flushed : BitVec 32 := 0
  ovwr : BitVec 16 := 0
  snap : Tbl SnapEnt := []
  eid : BitVec 8 := 0
  tid : BitVec 8 := 1
  dynAddr : Option (BitVec 7) := none
  evReceiver : Option (BitVec 8) := none
  waiting : List MgmtWait := []
  upd : UpdSt := .idle
  updComp : BitVec 16 := 0
  updData : List Byte := []
  spdmVersion : Bool := false
  spdmCaps : Bool := false
  spdmAlgs : Bool := false
  remote : Option (Nat × Bool) := none
  fwResp : List Word := []
  shadowLc : Option (BitVec 2) := none
  /-- When the firmware last read the cones; for each shelf D0 in 0.01 % and the time of its last re-plan (R385). -/
  coneAt : Option Nat := none
  d0 : Tbl Nat := []
  planAt : Tbl Nat := []
  deriving DecidableEq, Repr

/-- The fuse array (Table 18.8). -/
structure Fuses where
  lc : BitVec 2 := 0
  returns : BitVec 4 := 0
  floor : BitVec 32 := 0
  step : BitVec 8 := 0
  serial : Word := 0
  serSet : Bool := false
  serNew : Word := 0
  pwd : BitVec 128 := 0
  pwdSet : Bool := false
  pwdNew : BitVec 128 := 0
  /-- MFLOOR of shelf island n (key n), of host-port island p (key 64 + p), of the warden island (80) and of the always-on island (81). -/
  mfloor : Tbl (BitVec 6) := []
  pshmax : BitVec 8 := 100
  fwKey : BitVec 384 := 0
  debugKey : BitVec 384 := 0
  ownerKey : BitVec 384 := 0
  /-- Digest of the owner certificate chain, programmed at the step to PROVISIONED. -/
  ownerCert : BitVec 384 := 0
  deriving DecidableEq, Repr

/-- State of the block as the host sees it (Table 13.10). -/
inductive BlockSt where
  | unpowered | poweredDown | inReset | mgmtReady | hostReady
  deriving DecidableEq, Repr

/-- The clock of an island of fixed target: the last FMEAS, STRETCH, windows outside the range, FAULT (R382, R384). -/
structure OwnClk where
  fmeas : Nat := 0
  stretch : Nat := 0
  badWindows : Nat := 0
  fault : Bool := false
  deriving DecidableEq, Repr

/-- Power, clocks and pins (chapters 16 and 18). -/
structure Power where
  block : BlockSt := .inReset
  /-- A cold reset is held by COLD_RST_N or by a failed host or SRAM domain. -/
  startAt : Nat := 0
  pen : BitVec 10 := 0
  penAt : Tbl Nat := []
  pgd : BitVec 10 := 0
  vreq : Tbl (BitVec 7) := []
  vstb : BitVec 10 := 0
  vack : BitVec 10 := 0
  vreqAt : Tbl Nat := []
  refLost : Bool := false
  thermtrip : Bool := false
  tsyncAt : Option Nat := none
  /-- MARGIN that the clock generators of shelf n (key n) and port p (key 64 + p) step toward, and windows outside the range. -/
  margin : Tbl (Option Nat) := []
  badWindows : Tbl Nat := []
  /-- Stretch steps that the limiter holds on shelf n (key n) and on port p (key 64 + p). -/
  lim : Tbl Nat := []
  /-- When the limiter of a group reached its floor, and when it last removed a step. -/
  floorAt : Tbl (Option Nat) := []
  easedAt : Tbl Nat := []
  groupPassed : BitVec 8 := 0
  /-- The clocks of the warden island (0) and of the always-on island (1), which no register shows. -/
  ownClk : Tbl OwnClk := []
  warm : Bool := false
  deriving DecidableEq, Repr

/-- An answer on the Vexek port: STATUS, and DATA of a read (Table 17.1). -/
inductive VxAnswer where
  | silent
  | ok (data : Option Word)
  | wait
  | fault
  deriving DecidableEq, Repr

/-- The Vexek port, its session, run control and trace (chapter 17). -/
structure Vexek where
  level : Nat := 0
  shelves : Word := 0
  chal : Bool := false
  lockUntil : Option Nat := none
  fails : Nat := 0
  pwd0 : Word := 0
  pwd1 : Word := 0
  eph : Option (BitVec 384) := none
  challenge : BitVec 384 := 0
  credOk : Bool := false
  /-- The credential that the authenticator has checked (R409). -/
  cred : List Byte := []
  quar : List (Nat × Nat) := []
  draining : Option (Nat × Nat × Nat) := none
  /-- STEWARD of R416 step 2 has been raised for the slot that drains. -/
  drainTold : Bool := false
  trace : List TracePkt := []
  fuse0 : Word := 0
  fuse1 : Word := 0
  fusing : Option Nat := none
  pendingRead : Option Nat := none
  readData : Option Word := none
  stWrites : List (Nat × Nat × Nat × Word) := []
  wdLogOnly : Bool := false
  deriving DecidableEq, Repr

/-- What a management reply carries: a completion code and the values it returns (R369, R370). -/
structure MgmtReply where
  busy : Bool := false
  code : Nat := 0
  data : List Nat := []
  bytes : List Byte := []
  deriving DecidableEq, Repr

/-- A link-management packet that the block builds; the spec gives its contents and not its byte layout (R127, log entry 7). -/
inductive MgmtMsg where
  | elect (rootSer : Word) (dist : Nat)
  | discover (path : List Byte)
  | discovered (path : List Byte) (serial : Word) (links : List (Nat × Word))
  | idassign (path : List Byte) (devId : BitVec 12)
  | idReply (path : List Byte) (devId : BitVec 12)
  | epclose (dev : BitVec 12) (ep : BitVec 8)
  | access (target : RegTarget) (wr : Bool) (off : Nat) (v : Word)
  | accessReply (status : BitVec 8) (v : Word)
  deriving DecidableEq, Repr

/-- What leaves the block, in order (the model's own record of its outputs). -/
inductive Output where
  | flit (l : Nat) (bytes : List Byte)
  | host (p : Nat) (m : HostMsg)
  /-- The link management logic hands a packet to the port of link `l`; flits of channel 3 carry it. -/
  | link (l : Nat) (m : MgmtMsg)
  /-- What this end sends in PARAM: serial, device id if valid, link index, the credits of the four channels, the pre-FEC error rate. -/
  | param (l : Nat) (serial : Word) (devId : Option (BitVec 12)) (credits : List Nat) (err : Word)
  | mgmt (b : Binding) (r : MgmtReply)
  | sensorEvent (sensor : Nat) (value : BitVec 16)
  | vexek (a : VxAnswer)
  | pen (d : Nat) (on : Bool)
  | vreq (d : Nat) (code : BitVec 7) (stb : Bool)
  | thermtrip (asserted : Bool)
  | tsyncOut (high : Bool)
  /-- The 48-bit provisional ID that ENTDAA reads (R436). -/
  | provisionalId (id : BitVec 48)
  /-- Credits that the block grants on a host port when its isolation opens (R425). -/
  | hostCredits (p snp rsp dat : Nat)
  deriving DecidableEq, Repr

/-- The machine. -/
structure State where
  /-- Commands that wait, first in, first out. -/
  pending : List Instr
  /-- The model's own record of what left the block, newest first. -/
  outbox : List Output
  /-- The model's own counter of free values (log entry 3). -/
  freeCtr : Nat
  /-- The model's own count of tags issued. -/
  tagCtr : Nat
  /-- DEVTIME (R7), in ns. -/
  devtime : Word
  /-- Control-space registers that hold plain fields, by offset; an absent offset holds its reset value. -/
  regs : Tbl (Option Word)
  /-- Shelf memory and the warden's private SRAM, in bytes (R302, R359). -/
  mem : List Host.Cell
  /-- Tag bits of the granules of shelf memory and SRAM (R251). -/
  ctags : Tbl Bool
  /-- Words that read as uncorrectable (R305). -/
  bad : Tbl Bool
  shelves : Tbl Shelf
  cores : Tbl Core
  ctxs : Tbl Ctx
  links : Tbl Link
  ports : Tbl Port
  queues : Tbl Queue
  rings : Tbl Ring
  slotWrites : List SlotWrite
  /-- Shared event sources: key shelf * 256 + source (R289). -/
  evsrcs : Tbl EvSrc
  /-- End of a management group's hold-off: key shelf * 16 + group (R294). -/
  holdoff : Tbl Nat
  gops : Tbl GopTag
  /-- Flue messages in transit, oldest first; arrived; returned NOT-PRESENT; for each router output the input after the one that it granted
  last (R23, R25). -/
  flue : List FlueMsg
  arrived : List FlueMsg
  returned : List FlueMsg
  granted : Tbl Nat
  /-- Flue routers that have reported a fault (R22, Table 14.4). -/
  routerBad : Word
  /-- GL_SHELFRET and GL_LINKALT (Tables 1.16, 1.17). -/
  retired : Word
  linkAlt : BitVec 256
  sys : Sys
  keyCmd : Option KeyCmd
  /-- TLB entries that the removal of GL_TLBINV in progress has taken out (R269). -/
  tlbGone : List TlbEntry
  /-- A GL_HPMAP value that waits for the port caches (R320), and the control writes to answer then: port and RCTAG. -/
  hpmapNew : Option Word
  hpmapReply : List (Nat × BitVec 8)
  warden : Warden
  fuses : Fuses
  power : Power
  vexek : Vexek
  deriving DecidableEq, Repr

/-- The machine right after reset: the start of a cold start (Table 16.6, time 0), with isolation closed and DEVTIME 0. -/
def State.reset : State where
  pending := []
  outbox := []
  freeCtr := 0
  tagCtr := 0
  devtime := 0
  regs := []
  mem := []
  ctags := []
  bad := []
  shelves := []
  cores := []
  ctxs := []
  links := []
  ports := []
  queues := []
  rings := []
  slotWrites := []
  evsrcs := []
  holdoff := []
  gops := []
  flue := []
  arrived := []
  returned := []
  granted := []
  routerBad := 0
  retired := 0
  linkAlt := 0
  sys := {}
  keyCmd := none
  tlbGone := []
  hpmapNew := none
  hpmapReply := []
  warden := {}
  fuses := {}
  power := {}
  vexek := {}

end Sys2Proof.Machine
end

