-- ==== Sys2Proof/Machine/Table.lean ====
section
/-! DEFINITION. Sparse tables: what an absent key reads as, and the one update that keeps the canonical form. -/

namespace Sys2Proof.Machine

/-- The value at key `k`; an absent key reads as the default `d`. -/
def tget {α : Type} (d : α) : Tbl α → Nat → α
  | [], _ => d
  | (j, v) :: t, k => if j = k then v else tget d t k

/-- Insert a value at key `k` in key order, in place of an entry with the same key. -/
def tins {α : Type} (k : Nat) (v : α) : Tbl α → Tbl α
  | [] => [(k, v)]
  | (j, w) :: t => if k < j then (k, v) :: (j, w) :: t else if k = j then (k, v) :: t else (j, w) :: tins k v t

/-- Remove every entry of key `k`. -/
def tdel {α : Type} (k : Nat) : Tbl α → Tbl α
  | [] => []
  | (j, w) :: t => if k = j then tdel k t else (j, w) :: tdel k t

/-- The one update of a sparse table: writing the default value removes the entry. -/
def tset {α : Type} [DecidableEq α] (d : α) (t : Tbl α) (k : Nat) (v : α) : Tbl α :=
  if v = d then tdel k t else tins k v t

/-- Keys rise strictly. -/
def keysRise {α : Type} : Tbl α → Bool
  | [] => true
  | [_] => true
  | (j, _) :: (k, w) :: t => decide (j < k) && keysRise ((k, w) :: t)

/-- The canonical form: keys rise strictly and no entry holds the default value. -/
def tblOk {α : Type} [DecidableEq α] (d : α) (t : Tbl α) : Bool :=
  keysRise t && t.all (fun e => decide (e.2 ≠ d))

/-- The canonical form of memory: addresses rise strictly, and no entry is equal to the 0 that an unlisted byte reads as (log entry 5). -/
def Memory.wf (m : List Host.Cell) : Bool := tblOk 0 m

/-- Apply `f` to the value at key `k`. -/
def tmod {α : Type} [DecidableEq α] (d : α) (t : Tbl α) (k : Nat) (f : α → α) : Tbl α :=
  tset d t k (f (tget d t k))

/-- The value of the first pair with key `k`. -/
def alook {α : Type} (k : Nat) : List (Nat × α) → Option α
  | [] => none
  | (j, v) :: t => if j = k then some v else alook k t

/-- The list of pairs with key `k` set to `v`, at its place or in front. -/
def aput {α : Type} (k : Nat) (v : α) (t : List (Nat × α)) : List (Nat × α) :=
  (k, v) :: t.filter (fun e => e.1 ≠ k)

/-- The list of pairs without key `k`. -/
def adel {α : Type} (k : Nat) (t : List (Nat × α)) : List (Nat × α) := t.filter (fun e => e.1 ≠ k)

/-- The least number below `n` that is no key of the list. -/
def firstFree {α : Type} (n : Nat) (t : List (Nat × α)) : Option Nat :=
  (List.range n).find? (fun i => (alook i t).isNone)

end Sys2Proof.Machine
end

