-- ==== Sys2Proof/Machine/Bits.lean ====
section
/-! DEFINITION. Bit fields, byte order and small arithmetic shared by all families. -/

namespace Sys2Proof.Machine

/-- Bits `hi` to `lo` of a word, as a number (R6). -/
def fld (w : Word) (hi lo : Nat) : Nat := (w.toNat / 2 ^ lo) % 2 ^ (hi + 1 - lo)

/-- Bit `i` of a word. -/
def bitAt (w : Word) (i : Nat) : Bool := w.getLsbD i

/-- The mask of bits `hi` to `lo`. -/
def fmask (hi lo : Nat) : Word := BitVec.ofNat 64 ((2 ^ (hi + 1 - lo) - 1) * 2 ^ lo)

/-- A number placed at bits `hi` to `lo`; bits that do not fit are dropped. -/
def place (hi lo x : Nat) : Word := BitVec.ofNat 64 ((x % 2 ^ (hi + 1 - lo)) * 2 ^ lo)

/-- The word with bits `hi` to `lo` replaced. -/
def setFld (w : Word) (hi lo x : Nat) : Word := (w &&& ~~~ fmask hi lo) ||| place hi lo x

/-- A condition at bit `i`. -/
def bitIf (i : Nat) (b : Bool) : Word := if b then BitVec.ofNat 64 (2 ^ i) else 0

/-- A condition as a number. -/
def b2n (b : Bool) : Nat := if b then 1 else 0

/-- A condition as a word (comparisons give 1 or 0). -/
def b2w (b : Bool) : Word := if b then 1 else 0

/-- A number as a byte. -/
def byteOf (x : Nat) : Byte := BitVec.ofNat 8 x

/-- The `k` bytes of a number, lowest first (R6). -/
def leBytes : Nat → Nat → List Byte
  | 0, _ => []
  | k + 1, x => byteOf x :: leBytes k (x / 256)

/-- The number whose bytes, lowest first, are the list (R6). -/
def leNat : List Byte → Nat
  | [] => 0
  | b :: t => b.toNat + 256 * leNat t

/-- The bytes of a word, lowest first. -/
def wordBytes (w : Word) : List Byte := leBytes 8 w.toNat

/-- The word of the first eight bytes. -/
def bytesWord (l : List Byte) : Word := BitVec.ofNat 64 (leNat (l.take 8))

/-- The word at byte offset `off` of a byte string. -/
def wordIn (l : List Byte) (off : Nat) : Word := bytesWord (l.drop off)

/-- Bytes `off` to `off + k - 1`. -/
def slice (l : List Byte) (off k : Nat) : List Byte := (l.drop off).take k

/-- The number of `k` bytes at byte offset `off`. -/
def natIn (l : List Byte) (off k : Nat) : Nat := leNat (slice l off k)

/-- Words of a byte string. -/
def toWords : Nat → List Byte → List Word
  | 0, _ => []
  | k + 1, l => bytesWord l :: toWords k (l.drop 8)

/-- Bytes of a list of words. -/
def fromWords (l : List Word) : List Byte := l.flatMap wordBytes

/-- The list with zero bytes after it up to length `n`, or cut to `n`. -/
def padTo (n : Nat) (l : List Byte) : List Byte := (l ++ List.replicate (n - l.length) 0).take n

/-- Bitwise exclusive or of two byte strings, as long as the shorter. -/
def xorBytes (a b : List Byte) : List Byte := List.zipWith (· ^^^ ·) a b

/-- A count that stays at its largest value (saturating). -/
def satAdd (mx x k : Nat) : Nat := min mx (x + k)

/-- Round up the quotient. -/
def ceilDiv (a b : Nat) : Nat := (a + b - 1) / b

/-- Sign extension of the low `w` bits to 64. -/
def sext (w : Nat) (v : Word) : Word := (v.setWidth w).signExtend 64

/-- Zero extension of the low `w` bits. -/
def zext (w : Nat) (v : Word) : Word := (v.setWidth w).setWidth 64

/-- Number of one bits. -/
def popcount (v : Word) : Nat := ((List.range 64).filter (bitAt v)).length

/-- Number of zero bits above the highest one; 64 for zero. -/
def clz (v : Word) : Nat := (((List.range 64).map (fun i => 63 - i)).takeWhile (fun i => ! bitAt v i)).length

/-- Bytes in the other order. -/
def bswap (v : Word) : Word := bytesWord (wordBytes v).reverse

/-- Replace the element at index `i` of a list. -/
def setAt {α : Type} (l : List α) (i : Nat) (x : α) : List α := l.set i x

/-- Replace bytes at offset `off`. -/
def putBytes (l : List Byte) (off : Nat) (b : List Byte) : List Byte := l.take off ++ b ++ l.drop (off + b.length)

/-- Apply a step to each element in turn. -/
def foldS {α σ : Type} (l : List α) (f : σ → α → σ) (s : σ) : σ := l.foldl f s

end Sys2Proof.Machine
end

