-- ==== Sys2Proof/Machine/RegMap.lean ====
section
/-! DEFINITION. The registers of control space: their offsets (Tables 1.14 to 18.9) and their fields (the field tables of each chapter). -/

namespace Sys2Proof.Machine

/-- Access codes of Table 0.2 but RAZ/WI, which needs no field. -/
inductive Acc where
  | ro | rw | wo | w1c
  deriving DecidableEq, Repr

/-- A field of a register: its bits, access code, reset value, and the smallest and largest encoding that is not reserved (R11). -/
structure Fld where
  hi : Nat
  lo : Nat
  acc : Acc
  rst : Nat := 0
  least : Nat := 0
  most : Nat := 2 ^ 64 - 1
  deriving DecidableEq, Repr

/-- The registers of control space, with shelf, port, link and index numbers. -/
inductive Reg where
  | glArchid
  | glShelfret
  | glLinkalt (i : Nat)
  | glRingtab
  | glRingcmd
  | glRingstat
  | glRingidx
  | glSys
  | glSerial
  | glPart
  | glPartinv
  | glSnap
  | glGoptag (i : Nat)
  | glPclass (i : Nat)
  | glKeycmd
  | glKeyaddr
  | glKeystat
  | glKeyattr
  | glKeyfloor
  | glTlbinv
  | glTlbva
  | glTagrgn
  | glTagtab
  | glWipe
  | glWipefail
  | glHpmap
  | glGrant
  | glGrinv
  | glSplitok
  | glPwr
  | glLimstat
  | glBootstat
  | glTscfg
  | glTscap
  | glRt (i : Nat)
  | glEp (i : Nat)
  | glDb (i : Nat)
  | shLedcfg (n : Nat)
  | shLedmir (n : Nat)
  | shLedfb (n : Nat)
  | shLedcnt (n : Nat)
  | shQflush (n : Nat)
  | shPktcnt (n : Nat)
  | shGlcfg (n : Nat)
  | shGlstat (n : Nat)
  | shGlcnt (n : Nat)
  | shDetcfg (n : Nat)
  | shSchcfg (n : Nat)
  | shSchstat (n : Nat)
  | shPost (n : Nat)
  | evGrp (n i : Nat)
  | evCdb (n : Nat)
  | shEsccfg (n : Nat)
  | shMemarb (n : Nat)
  | shWedge (n : Nat)
  | shEcc (n : Nat)
  | shRepair (n : Nat)
  | shConf (n i : Nat)
  | shPaircfg (n : Nat)
  | shFtcfg (n : Nat)
  | shFtstat (n : Nat)
  | shCorestat (n : Nat)
  | shSlotmap0 (n : Nat)
  | shSlotmap1 (n : Nat)
  | shRtvec (n : Nat)
  | shClk (n : Nat)
  | shPwr (n : Nat)
  | shQcfg (n i : Nat)
  | shQstat (n i : Nat)
  | shQown (n i : Nat)
  | evScfg (n i : Nat)
  | hpCtl (p : Nat)
  | hpStat (p : Nat)
  | hpCnt (p : Nat)
  | hpGerr (p : Nat)
  | hpGref (p : Nat)
  | hpClk (p : Nat)
  | lkCfg (l : Nat)
  | lkStat (l : Nat)
  | lkDamp (l : Nat)
  | lkCnt (l : Nat)
  | wdMbctl
  | wdMbstat
  | wdBuf (i : Nat)
  | wdStat
  | wdBoot
  | wdLcreq
  | wdHostacl
  | wdViol
  | wdViolrec
  | wdLogmir
  | wdLogstat
  | wdLogw (i : Nat)
  | wdScfg (i : Nat)
  | vxId
  | vxSess
  | vxStat
  | vxCtl
  | vxHalt
  | vxRun
  | vxQuar
  | vxCoresel
  | vxStidx
  | vxStdata
  | vxMaddr
  | vxMdata
  | vxPwd (i : Nat)
  | vxTrcfg
  | vxTrring
  | vxTrridx
  | vxTrpop
  | vxTrdata (i : Nat)
  | vxFusecmd
  | vxFusedata (i : Nat)
  | vxSbuf (i : Nat)
  | vxShtrg (i : Nat)
  | vxShstat (i : Nat)
  deriving DecidableEq, Repr

/-- Offset of a register in control space (Table 18.9). -/
def Reg.off : Reg → Nat
  | .glArchid => 0x0
  | .glShelfret => 0x20
  | .glLinkalt i => 0x40 + 8 * i
  | .glRingtab => 0x100
  | .glRingcmd => 0x108
  | .glRingstat => 0x110
  | .glRingidx => 0x118
  | .glSys => 0x200
  | .glSerial => 0x208
  | .glPart => 0x210
  | .glPartinv => 0x218
  | .glSnap => 0x220
  | .glGoptag i => 0x300 + 8 * i
  | .glPclass i => 0x400 + 8 * i
  | .glKeycmd => 0x500
  | .glKeyaddr => 0x508
  | .glKeystat => 0x510
  | .glKeyattr => 0x518
  | .glKeyfloor => 0x520
  | .glTlbinv => 0x600
  | .glTlbva => 0x608
  | .glTagrgn => 0x610
  | .glTagtab => 0x618
  | .glWipe => 0x700
  | .glWipefail => 0x708
  | .glHpmap => 0x800
  | .glGrant => 0x808
  | .glGrinv => 0x810
  | .glSplitok => 0x900
  | .glPwr => 0xA00
  | .glLimstat => 0xA08
  | .glBootstat => 0xA10
  | .glTscfg => 0xB00
  | .glTscap => 0xB08
  | .glRt i => 0x40000 + 8 * i
  | .glEp i => 0x48000 + 8 * i
  | .glDb i => 0x80000 + 8 * i
  | .shLedcfg n => 0x1000000 + n * 0x40000 + 0x8000
  | .shLedmir n => 0x1000000 + n * 0x40000 + 0x8008
  | .shLedfb n => 0x1000000 + n * 0x40000 + 0x8010
  | .shLedcnt n => 0x1000000 + n * 0x40000 + 0x8018
  | .shQflush n => 0x1000000 + n * 0x40000 + 0x9000
  | .shPktcnt n => 0x1000000 + n * 0x40000 + 0x9008
  | .shGlcfg n => 0x1000000 + n * 0x40000 + 0xA000
  | .shGlstat n => 0x1000000 + n * 0x40000 + 0xA008
  | .shGlcnt n => 0x1000000 + n * 0x40000 + 0xA010
  | .shDetcfg n => 0x1000000 + n * 0x40000 + 0xB000
  | .shSchcfg n => 0x1000000 + n * 0x40000 + 0xC000
  | .shSchstat n => 0x1000000 + n * 0x40000 + 0xC008
  | .shPost n => 0x1000000 + n * 0x40000 + 0xC010
  | .evGrp n i => 0x1000000 + n * 0x40000 + 0xD000 + 8 * i
  | .evCdb n => 0x1000000 + n * 0x40000 + 0xD080
  | .shEsccfg n => 0x1000000 + n * 0x40000 + 0xD088
  | .shMemarb n => 0x1000000 + n * 0x40000 + 0xE000
  | .shWedge n => 0x1000000 + n * 0x40000 + 0xE008
  | .shEcc n => 0x1000000 + n * 0x40000 + 0xE010
  | .shRepair n => 0x1000000 + n * 0x40000 + 0xE018
  | .shConf n i => 0x1000000 + n * 0x40000 + 0xE100 + 8 * i
  | .shPaircfg n => 0x1000000 + n * 0x40000 + 0xF000
  | .shFtcfg n => 0x1000000 + n * 0x40000 + 0xF008
  | .shFtstat n => 0x1000000 + n * 0x40000 + 0xF010
  | .shCorestat n => 0x1000000 + n * 0x40000 + 0xF018
  | .shSlotmap0 n => 0x1000000 + n * 0x40000 + 0xF020
  | .shSlotmap1 n => 0x1000000 + n * 0x40000 + 0xF028
  | .shRtvec n => 0x1000000 + n * 0x40000 + 0xF800
  | .shClk n => 0x1000000 + n * 0x40000 + 0xF900
  | .shPwr n => 0x1000000 + n * 0x40000 + 0xF908
  | .shQcfg n i => 0x1000000 + n * 0x40000 + 0x10000 + 8 * i
  | .shQstat n i => 0x1000000 + n * 0x40000 + 0x12000 + 8 * i
  | .shQown n i => 0x1000000 + n * 0x40000 + 0x14000 + 8 * i
  | .evScfg n i => 0x1000000 + n * 0x40000 + 0x16000 + 8 * i
  | .hpCtl p => 0x2000000 + p * 0x10000 + 0x0
  | .hpStat p => 0x2000000 + p * 0x10000 + 0x8
  | .hpCnt p => 0x2000000 + p * 0x10000 + 0x10
  | .hpGerr p => 0x2000000 + p * 0x10000 + 0x18
  | .hpGref p => 0x2000000 + p * 0x10000 + 0x20
  | .hpClk p => 0x2000000 + p * 0x10000 + 0x28
  | .lkCfg l => 0x3000000 + l * 0x1000 + 0x0
  | .lkStat l => 0x3000000 + l * 0x1000 + 0x8
  | .lkDamp l => 0x3000000 + l * 0x1000 + 0x10
  | .lkCnt l => 0x3000000 + l * 0x1000 + 0x18
  | .wdMbctl => 0x3800000
  | .wdMbstat => 0x3800008
  | .wdBuf i => 0x3801000 + 8 * i
  | .wdStat => 0x3808000
  | .wdBoot => 0x3808008
  | .wdLcreq => 0x3808010
  | .wdHostacl => 0x3808018
  | .wdViol => 0x3808020
  | .wdViolrec => 0x3808028
  | .wdLogmir => 0x3808030
  | .wdLogstat => 0x3808038
  | .wdLogw i => 0x3808040 + 8 * i
  | .wdScfg i => 0x3808100 + 8 * i
  | .vxId => 0x3900000
  | .vxSess => 0x3900008
  | .vxStat => 0x3900010
  | .vxCtl => 0x3900018
  | .vxHalt => 0x3900020
  | .vxRun => 0x3900028
  | .vxQuar => 0x3900030
  | .vxCoresel => 0x3900038
  | .vxStidx => 0x3900040
  | .vxStdata => 0x3900048
  | .vxMaddr => 0x3900050
  | .vxMdata => 0x3900058
  | .vxPwd i => 0x3900060 + 8 * i
  | .vxTrcfg => 0x3900080
  | .vxTrring => 0x3900088
  | .vxTrridx => 0x3900090
  | .vxTrpop => 0x3900098
  | .vxTrdata i => 0x39000A0 + 8 * i
  | .vxFusecmd => 0x3900100
  | .vxFusedata i => 0x3900108 + 8 * i
  | .vxSbuf i => 0x3901000 + 8 * i
  | .vxShtrg i => 0x3902000 + 8 * i
  | .vxShstat i => 0x3902200 + 8 * i

/-- The register of the shelf range at shelf-relative offset `o`. -/
def Reg.ofShelf (n o : Nat) : Option Reg :=
  if o = 0x8000 then some (.shLedcfg n)
  else if o = 0x8008 then some (.shLedmir n)
  else if o = 0x8010 then some (.shLedfb n)
  else if o = 0x8018 then some (.shLedcnt n)
  else if o = 0x9000 then some (.shQflush n)
  else if o = 0x9008 then some (.shPktcnt n)
  else if o = 0xA000 then some (.shGlcfg n)
  else if o = 0xA008 then some (.shGlstat n)
  else if o = 0xA010 then some (.shGlcnt n)
  else if o = 0xB000 then some (.shDetcfg n)
  else if o = 0xC000 then some (.shSchcfg n)
  else if o = 0xC008 then some (.shSchstat n)
  else if o = 0xC010 then some (.shPost n)
  else if 0xD008 ≤ o ∧ o < 0xD080 then some (.evGrp n ((o - 0xD000) / 8))
  else if o = 0xD080 then some (.evCdb n)
  else if o = 0xD088 then some (.shEsccfg n)
  else if o = 0xE000 then some (.shMemarb n)
  else if o = 0xE008 then some (.shWedge n)
  else if o = 0xE010 then some (.shEcc n)
  else if o = 0xE018 then some (.shRepair n)
  else if 0xE100 ≤ o ∧ o < 0xE238 then some (.shConf n ((o - 0xE100) / 8))
  else if o = 0xF000 then some (.shPaircfg n)
  else if o = 0xF008 then some (.shFtcfg n)
  else if o = 0xF010 then some (.shFtstat n)
  else if o = 0xF018 then some (.shCorestat n)
  else if o = 0xF020 then some (.shSlotmap0 n)
  else if o = 0xF028 then some (.shSlotmap1 n)
  else if o = 0xF800 then some (.shRtvec n)
  else if o = 0xF900 then some (.shClk n)
  else if o = 0xF908 then some (.shPwr n)
  else if 0x10000 ≤ o ∧ o < 0x12000 then some (.shQcfg n ((o - 0x10000) / 8))
  else if 0x12000 ≤ o ∧ o < 0x14000 then some (.shQstat n ((o - 0x12000) / 8))
  else if 0x14000 ≤ o ∧ o < 0x16000 then some (.shQown n ((o - 0x14000) / 8))
  else if 0x16080 ≤ o ∧ o < 0x16800 then some (.evScfg n ((o - 0x16000) / 8))
  else none

/-- The register of the host-port range at relative offset `o`. -/
def Reg.ofPort (p o : Nat) : Option Reg :=
  if o = 0x0 then some (.hpCtl p)
  else if o = 0x8 then some (.hpStat p)
  else if o = 0x10 then some (.hpCnt p)
  else if o = 0x18 then some (.hpGerr p)
  else if o = 0x20 then some (.hpGref p)
  else if o = 0x28 then some (.hpClk p)
  else none

/-- The register of the link range at relative offset `o`. -/
def Reg.ofLink (l o : Nat) : Option Reg :=
  if o = 0x0 then some (.lkCfg l)
  else if o = 0x8 then some (.lkStat l)
  else if o = 0x10 then some (.lkDamp l)
  else if o = 0x18 then some (.lkCnt l)
  else none

/-- The register of the global range at offset `o`. -/
def Reg.ofGlobal (o : Nat) : Option Reg :=
  if o = 0x0 then some .glArchid
  else if o = 0x20 then some .glShelfret
  else if 0x40 ≤ o ∧ o < 0x60 then some (.glLinkalt ((o - 0x40) / 8))
  else if o = 0x100 then some .glRingtab
  else if o = 0x108 then some .glRingcmd
  else if o = 0x110 then some .glRingstat
  else if o = 0x118 then some .glRingidx
  else if o = 0x200 then some .glSys
  else if o = 0x208 then some .glSerial
  else if o = 0x210 then some .glPart
  else if o = 0x218 then some .glPartinv
  else if o = 0x220 then some .glSnap
  else if 0x300 ≤ o ∧ o < 0x380 then some (.glGoptag ((o - 0x300) / 8))
  else if 0x400 ≤ o ∧ o < 0x480 then some (.glPclass ((o - 0x400) / 8))
  else if o = 0x500 then some .glKeycmd
  else if o = 0x508 then some .glKeyaddr
  else if o = 0x510 then some .glKeystat
  else if o = 0x518 then some .glKeyattr
  else if o = 0x520 then some .glKeyfloor
  else if o = 0x600 then some .glTlbinv
  else if o = 0x608 then some .glTlbva
  else if o = 0x610 then some .glTagrgn
  else if o = 0x618 then some .glTagtab
  else if o = 0x700 then some .glWipe
  else if o = 0x708 then some .glWipefail
  else if o = 0x800 then some .glHpmap
  else if o = 0x808 then some .glGrant
  else if o = 0x810 then some .glGrinv
  else if o = 0x900 then some .glSplitok
  else if o = 0xA00 then some .glPwr
  else if o = 0xA08 then some .glLimstat
  else if o = 0xA10 then some .glBootstat
  else if o = 0xB00 then some .glTscfg
  else if o = 0xB08 then some .glTscap
  else if 0x40000 ≤ o ∧ o < 0x48000 then some (.glRt ((o - 0x40000) / 8))
  else if 0x48000 ≤ o ∧ o < 0x48800 then some (.glEp ((o - 0x48000) / 8))
  else if 0x80000 ≤ o ∧ o < 0x100000 then some (.glDb ((o - 0x80000) / 8))
  else none

/-- The register of the warden and debug ranges at offset `o`. -/
def Reg.ofHigh (o : Nat) : Option Reg :=
  if o = 0x3800000 then some .wdMbctl
  else if o = 0x3800008 then some .wdMbstat
  else if 0x3801000 ≤ o ∧ o < 0x3805000 then some (.wdBuf ((o - 0x3801000) / 8))
  else if o = 0x3808000 then some .wdStat
  else if o = 0x3808008 then some .wdBoot
  else if o = 0x3808010 then some .wdLcreq
  else if o = 0x3808018 then some .wdHostacl
  else if o = 0x3808020 then some .wdViol
  else if o = 0x3808028 then some .wdViolrec
  else if o = 0x3808030 then some .wdLogmir
  else if o = 0x3808038 then some .wdLogstat
  else if 0x3808040 ≤ o ∧ o < 0x3808060 then some (.wdLogw ((o - 0x3808040) / 8))
  else if 0x3808180 ≤ o ∧ o < 0x3808500 then some (.wdScfg ((o - 0x3808100) / 8))
  else if o = 0x3900000 then some .vxId
  else if o = 0x3900008 then some .vxSess
  else if o = 0x3900010 then some .vxStat
  else if o = 0x3900018 then some .vxCtl
  else if o = 0x3900020 then some .vxHalt
  else if o = 0x3900028 then some .vxRun
  else if o = 0x3900030 then some .vxQuar
  else if o = 0x3900038 then some .vxCoresel
  else if o = 0x3900040 then some .vxStidx
  else if o = 0x3900048 then some .vxStdata
  else if o = 0x3900050 then some .vxMaddr
  else if o = 0x3900058 then some .vxMdata
  else if 0x3900060 ≤ o ∧ o < 0x3900070 then some (.vxPwd ((o - 0x3900060) / 8))
  else if o = 0x3900080 then some .vxTrcfg
  else if o = 0x3900088 then some .vxTrring
  else if o = 0x3900090 then some .vxTrridx
  else if o = 0x3900098 then some .vxTrpop
  else if 0x39000A0 ≤ o ∧ o < 0x39000C0 then some (.vxTrdata ((o - 0x39000A0) / 8))
  else if o = 0x3900100 then some .vxFusecmd
  else if 0x3900108 ≤ o ∧ o < 0x3900118 then some (.vxFusedata ((o - 0x3900108) / 8))
  else if 0x3901000 ≤ o ∧ o < 0x3901200 then some (.vxSbuf ((o - 0x3901000) / 8))
  else if 0x3902000 ≤ o ∧ o < 0x3902200 then some (.vxShtrg ((o - 0x3902000) / 8))
  else if 0x3902200 ≤ o ∧ o < 0x3902400 then some (.vxShstat ((o - 0x3902200) / 8))
  else none

/-- The register that holds offset `o`, whose low three bits do not count; none where nothing is assigned (R440). -/
def Reg.at (off : Nat) : Option Reg :=
  let o := off / 8 * 8
  if o < 0x1000000 then Reg.ofGlobal o
  else if o < 0x2000000 then Reg.ofShelf ((o - 0x1000000) / 0x40000) ((o - 0x1000000) % 0x40000)
  else if o < 0x2100000 then Reg.ofPort ((o - 0x2000000) / 0x10000) ((o - 0x2000000) % 0x10000)
  else if o < 0x3000000 then none
  else if o < 0x3100000 then Reg.ofLink ((o - 0x3000000) / 0x1000) ((o - 0x3000000) % 0x1000)
  else Reg.ofHigh o

/-- Fields of a register, most significant first; bits of no field are reserved (R9). Fuse resets are given by `Reg.rst`. -/
def Reg.fields : Reg → List Fld
  | .glArchid => [⟨63, 48, .ro, 3297, 0, 65535⟩, ⟨47, 40, .ro, 0, 0, 255⟩, ⟨31, 24, .ro, 64, 0, 255⟩, ⟨23, 16, .ro, 17, 0, 255⟩,
      ⟨15, 8, .ro, 4, 0, 255⟩, ⟨7, 0, .ro, 16, 0, 255⟩]
  | .glShelfret => [⟨63, 0, .ro, 0, 0, 18446744073709551615⟩]
  | .glLinkalt _ => [⟨63, 0, .ro, 0, 0, 18446744073709551615⟩]
  | .glRingtab => [⟨51, 22, .rw, 0, 0, 1073741823⟩, ⟨0, 0, .rw, 0, 0, 1⟩]
  | .glRingcmd => [⟨63, 60, .wo, 0, 0, 15⟩, ⟨15, 0, .wo, 0, 0, 65535⟩]
  | .glRingstat => [⟨63, 63, .ro, 0, 0, 1⟩, ⟨62, 60, .ro, 0, 0, 7⟩, ⟨48, 48, .ro, 0, 0, 1⟩, ⟨47, 32, .ro, 0, 0, 65535⟩, ⟨31, 16, .ro, 0, 0, 65535⟩]
  | .glRingidx => [⟨63, 32, .ro, 0, 0, 4294967295⟩, ⟨31, 0, .ro, 0, 0, 4294967295⟩]
  | .glSys => [⟨63, 52, .ro, 0, 0, 4095⟩, ⟨51, 51, .ro, 0, 0, 1⟩, ⟨50, 50, .ro, 0, 0, 1⟩, ⟨49, 49, .ro, 0, 0, 1⟩, ⟨48, 48, .wo, 0, 0, 1⟩,
      ⟨47, 47, .wo, 0, 0, 1⟩, ⟨43, 40, .rw, 8, 2, 8⟩, ⟨39, 36, .rw, 0, 0, 12⟩]
  | .glSerial => [⟨63, 0, .ro, 0, 0, 18446744073709551615⟩]
  | .glPart => [⟨63, 52, .rw, 63, 1, 4095⟩, ⟨51, 23, .rw, 0, 0, 536870911⟩, ⟨22, 15, .rw, 10, 1, 255⟩, ⟨0, 0, .rw, 0, 0, 1⟩]
  | .glPartinv => [⟨63, 63, .wo, 0, 0, 1⟩, ⟨19, 0, .wo, 0, 0, 1048575⟩]
  | .glSnap => [⟨51, 24, .rw, 0, 0, 268435455⟩, ⟨1, 1, .ro, 0, 0, 1⟩, ⟨0, 0, .rw, 0, 0, 1⟩]
  | .glGoptag _ => [⟨63, 53, .rw, 0, 0, 1024⟩, ⟨52, 50, .ro, 0, 0, 7⟩, ⟨47, 0, .ro, 0, 0, 281474976710655⟩]
  | .glPclass _ => [⟨63, 56, .rw, 255, 0, 255⟩, ⟨55, 48, .rw, 64, 9, 255⟩]
  | .glKeycmd => [⟨63, 60, .wo, 0, 0, 15⟩, ⟨59, 59, .wo, 0, 0, 1⟩, ⟨31, 16, .wo, 0, 0, 65535⟩, ⟨15, 0, .wo, 0, 0, 65535⟩]
  | .glKeyaddr => [⟨51, 7, .rw, 0, 0, 35184372088831⟩]
  | .glKeystat => [⟨63, 63, .ro, 0, 0, 1⟩, ⟨62, 60, .ro, 0, 0, 7⟩, ⟨15, 0, .ro, 0, 0, 65535⟩]
  | .glKeyattr => [⟨63, 20, .ro, 0, 0, 17592186044415⟩]
  | .glKeyfloor => [⟨47, 0, .ro, 0, 0, 281474976710655⟩]
  | .glTlbinv => [⟨63, 63, .wo, 0, 0, 1⟩, ⟨62, 62, .ro, 0, 0, 1⟩, ⟨61, 60, .wo, 0, 0, 3⟩, ⟨59, 48, .wo, 0, 0, 4095⟩, ⟨47, 32, .wo, 0, 0, 65535⟩]
  | .glTlbva => [⟨47, 12, .rw, 0, 0, 68719476735⟩]
  | .glTagrgn => [⟨63, 63, .rw, 0, 0, 1⟩, ⟨51, 30, .rw, 0, 0, 4194303⟩, ⟨5, 0, .rw, 30, 30, 40⟩]
  | .glTagtab => [⟨51, 12, .rw, 0, 0, 1099511627775⟩]
  | .glWipe => [⟨63, 63, .ro, 0, 0, 1⟩, ⟨62, 61, .ro, 0, 0, 3⟩, ⟨47, 32, .ro, 0, 0, 65535⟩]
  | .glWipefail => [⟨63, 0, .ro, 0, 0, 18446744073709551615⟩]
  | .glHpmap => [⟨63, 60, .rw, 15, 0, 15⟩, ⟨59, 56, .rw, 14, 0, 15⟩, ⟨55, 52, .rw, 13, 0, 15⟩, ⟨51, 48, .rw, 12, 0, 15⟩, ⟨47, 44, .rw, 11, 0, 15⟩,
      ⟨43, 40, .rw, 10, 0, 15⟩, ⟨39, 36, .rw, 9, 0, 15⟩, ⟨35, 32, .rw, 8, 0, 15⟩, ⟨31, 28, .rw, 7, 0, 15⟩, ⟨27, 24, .rw, 6, 0, 15⟩,
      ⟨23, 20, .rw, 5, 0, 15⟩, ⟨19, 16, .rw, 4, 0, 15⟩, ⟨15, 12, .rw, 3, 0, 15⟩, ⟨11, 8, .rw, 2, 0, 15⟩, ⟨7, 4, .rw, 1, 0, 15⟩, ⟨3, 0, .rw, 0, 0, 15⟩]
  | .glGrant => [⟨63, 63, .rw, 0, 0, 1⟩, ⟨51, 12, .rw, 0, 0, 1099511627775⟩, ⟨4, 0, .rw, 10, 10, 24⟩]
  | .glGrinv => [⟨63, 63, .wo, 0, 0, 1⟩, ⟨62, 62, .ro, 0, 0, 1⟩, ⟨23, 0, .wo, 0, 0, 16777215⟩]
  | .glSplitok => [⟨63, 0, .rw, 0, 0, 18446744073709551615⟩]
  | .glPwr => [⟨63, 62, .rw, 0, 0, 2⟩, ⟨61, 54, .rw, 135, 60, 135⟩, ⟨53, 46, .ro, 0, 0, 255⟩]
  | .glLimstat => [⟨63, 56, .ro, 0, 0, 255⟩, ⟨55, 48, .ro, 0, 0, 255⟩, ⟨47, 40, .ro, 0, 0, 255⟩, ⟨39, 32, .ro, 0, 0, 255⟩, ⟨31, 16, .ro, 0, 0, 65535⟩]
  | .glBootstat => [⟨63, 63, .rw, 0, 0, 1⟩, ⟨62, 62, .ro, 0, 0, 1⟩, ⟨61, 61, .ro, 0, 0, 1⟩, ⟨60, 60, .ro, 0, 0, 1⟩, ⟨59, 58, .ro, 0, 0, 3⟩,
      ⟨31, 0, .ro, 0, 0, 4294967295⟩]
  | .glTscfg => [⟨63, 63, .ro, 0, 0, 1⟩, ⟨47, 32, .ro, 0, 0, 65535⟩, ⟨19, 0, .rw, 0, 0, 1048575⟩]
  | .glTscap => [⟨63, 0, .ro, 0, 0, 18446744073709551615⟩]
  | .glRt _ => [⟨63, 63, .rw, 0, 0, 1⟩, ⟨62, 62, .rw, 0, 0, 1⟩, ⟨61, 54, .rw, 0, 0, 255⟩, ⟨53, 46, .rw, 0, 0, 255⟩, ⟨45, 38, .rw, 0, 0, 255⟩,
      ⟨37, 30, .rw, 0, 0, 255⟩]
  | .glEp _ => [⟨63, 63, .rw, 0, 0, 1⟩, ⟨62, 57, .rw, 0, 0, 63⟩]
  | .glDb _ => [⟨31, 0, .wo, 0, 0, 4294967295⟩]
  | .shLedcfg _ => [⟨63, 48, .rw, 1000, 1, 65535⟩, ⟨47, 32, .rw, 200, 1, 65535⟩, ⟨31, 28, .rw, 3, 0, 15⟩, ⟨26, 16, .rw, 256, 0, 1024⟩]
  | .shLedmir _ => [⟨47, 32, .ro, 0, 0, 65535⟩, ⟨22, 17, .ro, 0, 0, 63⟩, ⟨16, 16, .ro, 0, 0, 1⟩, ⟨1, 0, .ro, 0, 0, 3⟩]
  | .shLedfb _ => [⟨51, 20, .rw, 0, 0, 4294967295⟩, ⟨0, 0, .rw, 0, 0, 1⟩]
  | .shLedcnt _ => [⟨63, 48, .w1c, 0, 0, 65535⟩, ⟨44, 32, .ro, 0, 0, 8191⟩, ⟨31, 0, .w1c, 0, 0, 4294967295⟩]
  | .shQflush _ => [⟨63, 63, .wo, 0, 0, 1⟩, ⟨9, 0, .wo, 0, 0, 1023⟩]
  | .shPktcnt _ => [⟨63, 48, .w1c, 0, 0, 65535⟩, ⟨47, 32, .w1c, 0, 0, 65535⟩, ⟨31, 16, .w1c, 0, 0, 65535⟩, ⟨15, 0, .w1c, 0, 0, 65535⟩]
  | .shGlcfg _ => [⟨63, 63, .rw, 0, 0, 1⟩, ⟨9, 0, .rw, 0, 0, 1023⟩]
  | .shGlstat _ => [⟨63, 60, .ro, 15, 0, 15⟩, ⟨59, 58, .ro, 3, 0, 3⟩, ⟨57, 52, .ro, 0, 0, 63⟩, ⟨31, 0, .ro, 0, 0, 4294967295⟩]
  | .shGlcnt _ => [⟨63, 48, .w1c, 0, 0, 65535⟩, ⟨47, 32, .w1c, 0, 0, 65535⟩, ⟨31, 16, .w1c, 0, 0, 65535⟩, ⟨15, 0, .w1c, 0, 0, 65535⟩]
  | .shDetcfg _ => [⟨63, 63, .wo, 0, 0, 1⟩, ⟨62, 62, .ro, 0, 0, 1⟩, ⟨47, 32, .ro, 0, 0, 65535⟩, ⟨15, 0, .rw, 0, 0, 65535⟩]
  | .shSchcfg _ => [⟨63, 63, .rw, 0, 0, 1⟩, ⟨57, 48, .rw, 0, 0, 1023⟩, ⟨47, 40, .rw, 4, 0, 255⟩, ⟨39, 24, .rw, 1024, 0, 65535⟩]
  | .shSchstat _ => [⟨63, 63, .w1c, 0, 0, 1⟩, ⟨62, 62, .w1c, 0, 0, 1⟩, ⟨61, 55, .ro, 0, 0, 127⟩]
  | .shPost _ => [⟨63, 63, .wo, 0, 0, 1⟩, ⟨47, 32, .wo, 0, 0, 65535⟩, ⟨19, 0, .wo, 0, 0, 1048575⟩]
  | .evGrp _ _ => [⟨63, 48, .rw, 0, 0, 65535⟩, ⟨47, 47, .ro, 0, 0, 1⟩]
  | .evCdb _ => [⟨63, 63, .wo, 0, 0, 1⟩, ⟨3, 0, .wo, 0, 0, 15⟩]
  | .shEsccfg _ => [⟨63, 63, .rw, 0, 0, 1⟩, ⟨15, 0, .rw, 0, 0, 65535⟩]
  | .shMemarb _ => [⟨38, 0, .rw, 0, 0, 549755813887⟩]
  | .shWedge _ => [⟨63, 63, .rw, 1, 0, 1⟩, ⟨62, 62, .ro, 0, 0, 1⟩, ⟨47, 32, .rw, 4880, 1, 65535⟩, ⟨31, 16, .ro, 0, 0, 65535⟩,
      ⟨13, 0, .ro, 0, 0, 16383⟩]
  | .shEcc _ => [⟨63, 48, .w1c, 0, 0, 65535⟩, ⟨47, 32, .w1c, 0, 0, 65535⟩, ⟨20, 0, .ro, 0, 0, 2097151⟩]
  | .shRepair _ => [⟨63, 60, .ro, 0, 0, 15⟩, ⟨59, 56, .ro, 0, 0, 15⟩, ⟨55, 52, .ro, 0, 0, 15⟩, ⟨51, 48, .ro, 0, 0, 15⟩, ⟨47, 44, .ro, 0, 0, 15⟩,
      ⟨43, 40, .ro, 0, 0, 15⟩, ⟨39, 36, .ro, 0, 0, 15⟩, ⟨35, 32, .ro, 0, 0, 15⟩, ⟨31, 28, .ro, 0, 0, 15⟩, ⟨27, 24, .ro, 0, 0, 15⟩,
      ⟨23, 20, .ro, 0, 0, 15⟩, ⟨19, 16, .ro, 0, 0, 15⟩, ⟨15, 12, .ro, 0, 0, 15⟩, ⟨11, 8, .ro, 0, 0, 15⟩, ⟨7, 4, .ro, 0, 0, 15⟩, ⟨3, 0, .ro, 0, 0, 15⟩]
  | .shConf _ _ => [⟨31, 0, .w1c, 0, 0, 4294967295⟩]
  | .shPaircfg _ => [⟨63, 63, .wo, 0, 0, 1⟩, ⟨62, 62, .ro, 0, 0, 1⟩, ⟨61, 61, .ro, 0, 0, 1⟩, ⟨60, 60, .ro, 0, 0, 1⟩, ⟨57, 57, .rw, 0, 0, 1⟩,
      ⟨56, 56, .ro, 0, 0, 1⟩, ⟨55, 40, .rw, 40, 1, 45⟩]
  | .shFtcfg _ => [⟨63, 56, .rw, 16, 1, 255⟩, ⟨55, 51, .rw, 4, 1, 16⟩]
  | .shFtstat _ => [⟨63, 48, .w1c, 0, 0, 65535⟩, ⟨47, 32, .w1c, 0, 0, 65535⟩, ⟨31, 16, .w1c, 0, 0, 65535⟩, ⟨15, 8, .ro, 0, 0, 255⟩,
      ⟨7, 4, .ro, 0, 0, 15⟩, ⟨3, 0, .ro, 0, 0, 15⟩]
  | .shCorestat _ => [⟨63, 59, .ro, 16, 0, 31⟩, ⟨58, 42, .ro, 0, 0, 131071⟩, ⟨41, 26, .ro, 0, 0, 65535⟩]
  | .shSlotmap0 _ => [⟨39, 35, .ro, 7, 0, 31⟩, ⟨34, 30, .ro, 6, 0, 31⟩, ⟨29, 25, .ro, 5, 0, 31⟩, ⟨24, 20, .ro, 4, 0, 31⟩, ⟨19, 15, .ro, 3, 0, 31⟩,
      ⟨14, 10, .ro, 2, 0, 31⟩, ⟨9, 5, .ro, 1, 0, 31⟩, ⟨4, 0, .ro, 0, 0, 31⟩]
  | .shSlotmap1 _ => [⟨39, 35, .ro, 15, 0, 31⟩, ⟨34, 30, .ro, 14, 0, 31⟩, ⟨29, 25, .ro, 13, 0, 31⟩, ⟨24, 20, .ro, 12, 0, 31⟩,
      ⟨19, 15, .ro, 11, 0, 31⟩, ⟨14, 10, .ro, 10, 0, 31⟩, ⟨9, 5, .ro, 9, 0, 31⟩, ⟨4, 0, .ro, 8, 0, 31⟩]
  | .shRtvec _ => [⟨63, 63, .w1c, 0, 0, 1⟩, ⟨62, 62, .ro, 0, 0, 1⟩, ⟨61, 61, .rw, 0, 0, 1⟩, ⟨47, 32, .rw, 100, 1, 65535⟩, ⟨31, 16, .ro, 0, 0, 65535⟩]
  | .shClk _ => [⟨63, 52, .rw, 2000, 1200, 2400⟩, ⟨51, 40, .ro, 0, 0, 4095⟩, ⟨39, 34, .rw, 0, 0, 63⟩, ⟨33, 28, .ro, 0, 0, 63⟩,
      ⟨27, 20, .ro, 0, 0, 255⟩, ⟨19, 19, .ro, 0, 0, 1⟩, ⟨18, 18, .ro, 0, 0, 1⟩]
  | .shPwr _ => [⟨63, 62, .ro, 0, 0, 3⟩, ⟨61, 61, .wo, 0, 0, 1⟩, ⟨60, 60, .wo, 0, 0, 1⟩, ⟨47, 32, .ro, 0, 0, 65535⟩, ⟨31, 16, .ro, 0, 0, 65535⟩]
  | .shQcfg _ _ => [⟨63, 63, .rw, 0, 0, 1⟩, ⟨62, 52, .rw, 0, 2, 1024⟩, ⟨51, 43, .rw, 0, 1, 258⟩, ⟨42, 38, .rw, 0, 1, 16⟩, ⟨15, 0, .rw, 0, 0, 65535⟩]
  | .shQstat _ _ => [⟨63, 48, .ro, 0, 0, 65535⟩, ⟨42, 32, .ro, 0, 0, 2047⟩, ⟨20, 16, .ro, 0, 0, 31⟩]
  | .shQown _ _ => [⟨63, 63, .rw, 0, 0, 1⟩, ⟨62, 62, .rw, 0, 0, 1⟩, ⟨19, 0, .rw, 0, 0, 1048575⟩]
  | .evScfg _ _ => [⟨63, 63, .rw, 0, 0, 1⟩, ⟨62, 61, .rw, 0, 0, 3⟩, ⟨60, 57, .rw, 0, 0, 15⟩, ⟨56, 53, .rw, 0, 0, 15⟩, ⟨52, 52, .w1c, 0, 0, 1⟩,
      ⟨51, 51, .ro, 0, 0, 1⟩, ⟨50, 50, .ro, 0, 0, 1⟩, ⟨49, 49, .w1c, 0, 0, 1⟩, ⟨48, 41, .ro, 0, 0, 255⟩, ⟨40, 31, .ro, 0, 0, 1023⟩,
      ⟨30, 21, .rw, 0, 0, 1023⟩, ⟨20, 19, .rw, 0, 0, 3⟩, ⟨18, 11, .rw, 0, 0, 255⟩, ⟨10, 0, .rw, 2, 1, 2000⟩]
  | .hpCtl _ => [⟨63, 63, .wo, 0, 0, 1⟩, ⟨62, 62, .ro, 0, 0, 1⟩]
  | .hpStat _ => [⟨47, 32, .ro, 0, 0, 65535⟩, ⟨16, 11, .ro, 0, 0, 63⟩, ⟨10, 0, .ro, 0, 0, 2047⟩]
  | .hpCnt _ => [⟨63, 48, .w1c, 0, 0, 65535⟩, ⟨47, 32, .w1c, 0, 0, 65535⟩, ⟨31, 16, .w1c, 0, 0, 65535⟩, ⟨15, 0, .w1c, 0, 0, 65535⟩]
  | .hpGerr _ => [⟨63, 60, .ro, 0, 0, 15⟩, ⟨51, 0, .ro, 0, 0, 4503599627370495⟩]
  | .hpGref _ => [⟨32, 32, .ro, 0, 0, 1⟩, ⟨31, 0, .ro, 0, 0, 4294967295⟩]
  | .hpClk _ => [⟨63, 52, .rw, 2000, 1200, 2400⟩, ⟨51, 40, .ro, 0, 0, 4095⟩, ⟨39, 34, .rw, 0, 0, 63⟩, ⟨33, 28, .ro, 0, 0, 63⟩,
      ⟨27, 20, .ro, 0, 0, 255⟩, ⟨19, 19, .ro, 0, 0, 1⟩, ⟨18, 18, .ro, 0, 0, 1⟩]
  | .lkCfg _ => [⟨63, 63, .rw, 0, 0, 1⟩, ⟨62, 61, .rw, 0, 0, 2⟩, ⟨60, 58, .rw, 4, 0, 7⟩, ⟨57, 57, .rw, 1, 0, 1⟩, ⟨56, 55, .rw, 0, 0, 2⟩]
  | .lkStat _ => [⟨63, 52, .ro, 0, 0, 4095⟩, ⟨51, 51, .ro, 0, 0, 1⟩, ⟨50, 50, .ro, 0, 0, 1⟩, ⟨49, 48, .ro, 0, 0, 3⟩, ⟨47, 40, .ro, 0, 0, 255⟩,
      ⟨35, 33, .ro, 0, 0, 7⟩, ⟨18, 3, .ro, 0, 0, 65535⟩, ⟨2, 0, .ro, 0, 0, 7⟩]
  | .lkDamp _ => [⟨63, 56, .rw, 255, 0, 255⟩, ⟨55, 48, .rw, 64, 9, 255⟩, ⟨47, 40, .rw, 16, 1, 255⟩, ⟨32, 32, .ro, 0, 0, 1⟩]
  | .lkCnt _ => [⟨63, 48, .w1c, 0, 0, 65535⟩, ⟨47, 32, .w1c, 0, 0, 65535⟩, ⟨31, 16, .w1c, 0, 0, 65535⟩, ⟨15, 0, .w1c, 0, 0, 65535⟩]
  | .wdMbctl => [⟨63, 63, .wo, 0, 0, 1⟩, ⟨62, 62, .wo, 0, 0, 1⟩, ⟨28, 16, .wo, 0, 0, 8191⟩, ⟨12, 0, .wo, 0, 0, 8191⟩]
  | .wdMbstat => [⟨63, 60, .ro, 0, 0, 15⟩, ⟨28, 16, .ro, 0, 0, 8191⟩, ⟨12, 0, .ro, 0, 0, 8191⟩]
  | .wdBuf _ => [⟨63, 0, .rw, 0, 0, 18446744073709551615⟩]
  | .wdStat => [⟨63, 62, .ro, 0, 0, 3⟩, ⟨61, 61, .w1c, 0, 0, 1⟩, ⟨60, 57, .ro, 0, 0, 15⟩]
  | .wdBoot => [⟨63, 63, .wo, 0, 0, 1⟩, ⟨62, 62, .rw, 0, 0, 1⟩, ⟨61, 61, .ro, 0, 0, 1⟩, ⟨60, 60, .w1c, 0, 0, 1⟩, ⟨59, 59, .ro, 0, 0, 1⟩,
      ⟨58, 58, .ro, 0, 0, 1⟩, ⟨57, 57, .wo, 0, 0, 1⟩, ⟨47, 32, .ro, 0, 0, 65535⟩, ⟨31, 0, .ro, 0, 0, 4294967295⟩]
  | .wdLcreq => [⟨63, 63, .wo, 0, 0, 1⟩, ⟨1, 0, .wo, 0, 0, 3⟩]
  | .wdHostacl => [⟨15, 0, .rw, 65535, 0, 65535⟩]
  | .wdViol => [⟨63, 48, .ro, 0, 0, 65535⟩, ⟨47, 32, .ro, 0, 0, 65535⟩, ⟨31, 16, .ro, 0, 0, 65535⟩, ⟨15, 0, .ro, 0, 0, 65535⟩]
  | .wdViolrec => [⟨63, 60, .ro, 0, 0, 15⟩, ⟨59, 54, .ro, 0, 0, 63⟩, ⟨53, 53, .ro, 0, 0, 1⟩, ⟨25, 0, .ro, 0, 0, 67108863⟩]
  | .wdLogmir => [⟨63, 63, .rw, 0, 0, 1⟩, ⟨51, 20, .rw, 0, 0, 4294967295⟩]
  | .wdLogstat => [⟨63, 32, .rw, 0, 0, 4294967295⟩, ⟨31, 16, .ro, 0, 0, 65535⟩, ⟨15, 0, .ro, 0, 0, 65535⟩]
  | .wdLogw _ => [⟨63, 0, .wo, 0, 0, 18446744073709551615⟩]
  | .wdScfg _ => [⟨63, 63, .rw, 0, 0, 1⟩, ⟨62, 61, .rw, 0, 0, 3⟩, ⟨60, 57, .rw, 0, 0, 15⟩, ⟨56, 53, .rw, 0, 0, 15⟩, ⟨52, 52, .w1c, 0, 0, 1⟩,
      ⟨51, 51, .ro, 0, 0, 1⟩, ⟨50, 50, .ro, 0, 0, 1⟩, ⟨49, 49, .w1c, 0, 0, 1⟩, ⟨48, 41, .ro, 0, 0, 255⟩, ⟨40, 31, .ro, 0, 0, 1023⟩,
      ⟨30, 21, .rw, 0, 0, 1023⟩, ⟨20, 19, .rw, 0, 0, 3⟩, ⟨18, 11, .rw, 0, 0, 255⟩, ⟨10, 0, .rw, 2, 1, 2000⟩]
  | .vxId => [⟨63, 0, .ro, 928117934172143617, 0, 18446744073709551615⟩]
  | .vxSess => [⟨63, 60, .wo, 0, 0, 15⟩, ⟨59, 58, .ro, 0, 0, 3⟩, ⟨57, 57, .ro, 0, 0, 1⟩, ⟨56, 56, .ro, 0, 0, 1⟩]
  | .vxStat => [⟨63, 63, .w1c, 0, 0, 1⟩, ⟨62, 62, .w1c, 0, 0, 1⟩, ⟨61, 61, .w1c, 0, 0, 1⟩, ⟨60, 60, .w1c, 0, 0, 1⟩, ⟨59, 59, .w1c, 0, 0, 1⟩,
      ⟨58, 58, .w1c, 0, 0, 1⟩, ⟨57, 57, .w1c, 0, 0, 1⟩, ⟨56, 56, .ro, 0, 0, 1⟩]
  | .vxCtl => [⟨63, 63, .rw, 0, 0, 1⟩, ⟨62, 62, .rw, 0, 0, 1⟩, ⟨61, 58, .rw, 0, 0, 15⟩]
  | .vxHalt => [⟨63, 63, .wo, 0, 0, 1⟩, ⟨15, 1, .wo, 0, 0, 32767⟩]
  | .vxRun => [⟨63, 63, .wo, 0, 0, 1⟩, ⟨15, 1, .wo, 0, 0, 32767⟩]
  | .vxQuar => [⟨63, 63, .wo, 0, 0, 1⟩, ⟨62, 61, .ro, 0, 0, 3⟩, ⟨9, 4, .rw, 0, 0, 63⟩, ⟨3, 0, .rw, 0, 0, 15⟩]
  | .vxCoresel => [⟨63, 58, .rw, 0, 0, 63⟩, ⟨57, 54, .rw, 0, 0, 15⟩, ⟨53, 50, .rw, 0, 0, 15⟩]
  | .vxStidx => [⟨10, 3, .rw, 0, 0, 255⟩]
  | .vxStdata => [⟨63, 0, .rw, 0, 0, 18446744073709551615⟩]
  | .vxMaddr => [⟨63, 63, .rw, 0, 0, 1⟩, ⟨51, 3, .rw, 0, 0, 562949953421311⟩]
  | .vxMdata => [⟨63, 0, .rw, 0, 0, 18446744073709551615⟩]
  | .vxPwd _ => [⟨63, 0, .wo, 0, 0, 18446744073709551615⟩]
  | .vxTrcfg => [⟨63, 63, .rw, 0, 0, 1⟩, ⟨62, 62, .rw, 0, 0, 1⟩, ⟨31, 0, .rw, 0, 0, 4294967295⟩]
  | .vxTrring => [⟨63, 32, .rw, 0, 0, 4294967295⟩, ⟨31, 12, .rw, 0, 0, 1048575⟩, ⟨4, 0, .rw, 6, 6, 20⟩]
  | .vxTrridx => [⟨63, 32, .ro, 0, 0, 4294967295⟩, ⟨31, 0, .rw, 0, 0, 4294967295⟩]
  | .vxTrpop => [⟨63, 0, .wo, 0, 0, 18446744073709551615⟩]
  | .vxTrdata _ => [⟨63, 0, .ro, 0, 0, 18446744073709551615⟩]
  | .vxFusecmd => [⟨63, 63, .wo, 0, 0, 1⟩, ⟨62, 62, .ro, 0, 0, 1⟩, ⟨61, 60, .ro, 0, 0, 3⟩, ⟨59, 59, .ro, 0, 0, 1⟩, ⟨58, 58, .ro, 0, 0, 1⟩,
      ⟨1, 0, .wo, 0, 0, 3⟩]
  | .vxFusedata _ => [⟨63, 0, .wo, 0, 0, 18446744073709551615⟩]
  | .vxSbuf _ => [⟨63, 0, .rw, 0, 0, 18446744073709551615⟩]
  | .vxShtrg _ => [⟨63, 60, .rw, 0, 0, 15⟩, ⟨59, 56, .rw, 0, 0, 15⟩, ⟨55, 52, .rw, 0, 0, 15⟩, ⟨51, 48, .rw, 0, 0, 15⟩, ⟨47, 44, .rw, 0, 0, 15⟩,
      ⟨43, 40, .rw, 0, 0, 15⟩, ⟨39, 36, .rw, 0, 0, 15⟩, ⟨35, 32, .rw, 0, 0, 15⟩, ⟨31, 28, .rw, 0, 0, 15⟩, ⟨27, 24, .rw, 0, 0, 15⟩,
      ⟨23, 20, .rw, 0, 0, 15⟩, ⟨19, 16, .rw, 0, 0, 15⟩, ⟨15, 12, .rw, 0, 0, 15⟩, ⟨11, 8, .rw, 0, 0, 15⟩, ⟨7, 4, .rw, 0, 0, 15⟩, ⟨3, 0, .rw, 0, 0, 15⟩]
  | .vxShstat _ => [⟨63, 48, .ro, 0, 0, 65535⟩, ⟨47, 32, .ro, 0, 0, 65535⟩]

end Sys2Proof.Machine
end

