-- ==== Sys2Proof/Machine/Regs.lean ====
section
/-! DEFINITION. Reading and writing control-space registers by field: the access codes of Table 0.2 and the rules R9 to R11. -/

namespace Sys2Proof.Machine

/-- The mask of a field. -/
def Fld.mask (f : Fld) : Word := fmask f.hi f.lo

/-- A register's value after reset: the reset column of its field table; MARGIN and MFLOOR of SH_CLK and HP_CLK come from fuses. -/
def regRst (fu : Fuses) (r : Reg) : Word :=
  let w := (Reg.fields r).foldl (fun w f => w ||| place f.hi f.lo f.rst) 0
  match r with
  | .shClk n => w ||| place 39 34 (tget 0 fu.mfloor n).toNat ||| place 33 28 (tget 0 fu.mfloor n).toNat
  | .hpClk p => w ||| place 39 34 (tget 0 fu.mfloor (64 + p)).toNat ||| place 33 28 (tget 0 fu.mfloor (64 + p)).toNat
  | _ => w

/-- The stored value of a register. -/
def rdReg (s : State) (r : Reg) : Word := (tget none s.regs r.off).getD (regRst s.fuses r)

/-- Store a register's value; a value equal to the reset value is held as an absent entry. -/
def wrReg (s : State) (r : Reg) (v : Word) : State :=
  { s with regs := tset none s.regs r.off (if v = regRst s.fuses r then none else some v) }

/-- Put a register back to its reset value. -/
def rstReg (s : State) (r : Reg) : State := { s with regs := tdel r.off s.regs }

/-- A field of a register. -/
def getF (s : State) (r : Reg) (hi lo : Nat) : Nat := fld (rdReg s r) hi lo

/-- One bit of a register. -/
def getB (s : State) (r : Reg) (i : Nat) : Bool := bitAt (rdReg s r) i

/-- Hardware sets a field of a register. -/
def setF (s : State) (r : Reg) (hi lo x : Nat) : State := wrReg s r (setFld (rdReg s r) hi lo x)

/-- Hardware sets one bit of a register. -/
def setB (s : State) (r : Reg) (i : Nat) (b : Bool) : State := setF s r i i (b2n b)

/-- A counting field goes up by `k` and saturates at all ones. -/
def bumpF (s : State) (r : Reg) (hi lo k : Nat) : State :=
  setF s r hi lo (satAdd (2 ^ (hi + 1 - lo) - 1) (getF s r hi lo) k)

/-- What a write of `v` through the byte lanes of `m` does to one field (R8 to R11). -/
def fldWrite (v m w : Word) (f : Fld) : Word :=
  match f.acc with
  | .rw =>
    let w' := (w &&& ~~~ (f.mask &&& m)) ||| (v &&& f.mask &&& m)
    if f.least ≤ fld w' f.hi f.lo ∧ fld w' f.hi f.lo ≤ f.most then w' else w
  | .w1c =>
    if f.hi = f.lo then w &&& ~~~ (v &&& m &&& f.mask)
    else if v &&& m &&& f.mask = 0 then w else w &&& ~~~ f.mask
  | _ => w

/-- What a write of `v` through the byte lanes of `m` does to a register that holds `w`. -/
def regWrite (fs : List Fld) (v m w : Word) : Word := fs.foldl (fldWrite v m) w

/-- A hardware reaction in the same cycle: an RO or RW field that it sets takes its value, a W1C bit that it sets reads 1, a W1C
count holds its events on top of what the write left (R10, R35). -/
def hwCoincide (hm hv w : Word) (f : Fld) : Word :=
  if f.mask &&& hm = 0 then w
  else match f.acc with
    | .w1c => if f.hi = f.lo then w ||| (hv &&& f.mask)
      else setFld w f.hi f.lo (satAdd (2 ^ (f.hi + 1 - f.lo) - 1) (fld w f.hi f.lo) (fld hv f.hi f.lo))
    | .wo => w
    | _ => (w &&& ~~~ f.mask) ||| (hv &&& f.mask)

/-- A write by a party together with a hardware reaction in the same cycle (R35). -/
def regWriteBoth (fs : List Fld) (v m hm hv w : Word) : Word := fs.foldl (hwCoincide hm hv) (regWrite fs v m w)

/-- The byte lanes of an access (R12). -/
def accLanes : Access → Word
  | .full => BitVec.allOnes 64
  | .low => fmask 31 0
  | .high => fmask 63 32
  | .bad => 0

/-- The value of an access, at its half of the register. -/
def laneVal (a : Access) (v : Word) : Word :=
  match a with
  | .full => v
  | .low => v &&& fmask 31 0
  | .high => (v &&& fmask 31 0) <<< 32
  | .bad => 0

/-- Mask of the fields of one access code. -/
def accMask (fs : List Fld) (a : Acc) : Word := fs.foldl (fun w f => if f.acc = a then w ||| f.mask else w) 0

/-- A 32-bit write as a 64-bit one: the other half of an RW field keeps its value, and of any other field is zero. -/
def widen (s : State) (r : Reg) (a : Access) (v : Word) : Word :=
  match a with
  | .full => v
  | .low => (v &&& fmask 31 0) ||| (rdReg s r &&& accMask r.fields .rw &&& fmask 63 32)
  | .high => ((v &&& fmask 31 0) <<< 32) ||| (rdReg s r &&& accMask r.fields .rw &&& fmask 31 0)
  | .bad => 0

end Sys2Proof.Machine
end

