-- ==== Sys2Proof/Machine/Ops.lean ====
section
/-! DEFINITION. The named operations over State: each table's read and update, shelf memory, free values, outputs, timers. -/

namespace Sys2Proof.Machine

/-! ## Tables -/

def State.shelf (s : State) (n : Nat) : Shelf := tget {} s.shelves n
def State.setShelf (s : State) (n : Nat) (x : Shelf) : State := { s with shelves := tset {} s.shelves n x }
def State.modShelf (s : State) (n : Nat) (f : Shelf → Shelf) : State := s.setShelf n (f (s.shelf n))

def State.core (s : State) (k : Nat) : Core := tget {} s.cores k
def State.setCore (s : State) (k : Nat) (x : Core) : State := { s with cores := tset {} s.cores k x }
def State.modCore (s : State) (k : Nat) (f : Core → Core) : State := s.setCore k (f (s.core k))

/-- The resident store `r` of core `k`. -/
def State.ctx (s : State) (k r : Nat) : Ctx := tget {} s.ctxs (16 * k + r)
def State.setCtx (s : State) (k r : Nat) (x : Ctx) : State := { s with ctxs := tset {} s.ctxs (16 * k + r) x }
def State.modCtx (s : State) (k r : Nat) (f : Ctx → Ctx) : State := s.setCtx k r (f (s.ctx k r))

def State.link (s : State) (l : Nat) : Link := tget {} s.links l
def State.setLink (s : State) (l : Nat) (x : Link) : State := { s with links := tset {} s.links l x }
def State.modLink (s : State) (l : Nat) (f : Link → Link) : State := s.setLink l (f (s.link l))

def State.port (s : State) (p : Nat) : Port := tget {} s.ports p
def State.setPort (s : State) (p : Nat) (x : Port) : State := { s with ports := tset {} s.ports p x }
def State.modPort (s : State) (p : Nat) (f : Port → Port) : State := s.setPort p (f (s.port p))

/-- Queue `q` of shelf `n`. -/
def State.queue (s : State) (n q : Nat) : Queue := tget {} s.queues (1024 * n + q)
def State.setQueue (s : State) (n q : Nat) (x : Queue) : State := { s with queues := tset {} s.queues (1024 * n + q) x }
def State.modQueue (s : State) (n q : Nat) (f : Queue → Queue) : State := s.setQueue n q (f (s.queue n q))

def State.ring (s : State) (r : Nat) : Ring := tget {} s.rings r
def State.setRing (s : State) (r : Nat) (x : Ring) : State := { s with rings := tset {} s.rings r x }
def State.modRing (s : State) (r : Nat) (f : Ring → Ring) : State := s.setRing r (f (s.ring r))

def State.gop (s : State) (t : Nat) : GopTag := tget {} s.gops t
def State.setGop (s : State) (t : Nat) (x : GopTag) : State := { s with gops := tset {} s.gops t x }

/-- Entry `i` of the ledger of shelf `n`: its own region. -/
def State.entry (s : State) (n i : Nat) : Entry := tget {} (s.shelf n).entries i
def State.setEntry (s : State) (n i : Nat) (e : Entry) : State :=
  s.modShelf n (fun h => { h with entries := tset {} h.entries i e })

def State.modWarden (s : State) (f : Warden → Warden) : State := { s with warden := f s.warden }
def State.modPower (s : State) (f : Power → Power) : State := { s with power := f s.power }
def State.modVexek (s : State) (f : Vexek → Vexek) : State := { s with vexek := f s.vexek }
def State.modSys (s : State) (f : Sys → Sys) : State := { s with sys := f s.sys }

/-! ## Time, outputs, free values -/

/-- DEVTIME as a number of ns (R7). -/
def State.now (s : State) : Nat := s.devtime.toNat

/-- Record an output, newest first. -/
def State.emit (s : State) (o : Output) : State := { s with outbox := o :: s.outbox }

/-- One nanosecond passes. Once in a microsecond the tick is 2 ns or 0 ns while a correction is still to be slewed in (R132); DEVTIME
stands while the block has no power or no reset is over (log entry 22). -/
def State.tick (s : State) : State :=
  if s.power.block = .unpowered ∨ s.power.block = .poweredDown then s
  else if s.devtime.toNat % 1000 = 0 ∧ 0 < s.sys.slew then
    { s with
      devtime := s.devtime + 2
      sys := { s.sys with slew := s.sys.slew - 1 } }
  else if s.devtime.toNat % 1000 = 999 ∧ s.sys.slew < 0 then { s with sys := { s.sys with slew := s.sys.slew + 1 } }
  else { s with devtime := s.devtime + 1 }

/-- The free value of this moment (log entry 3). -/
def State.free (s : State) : Word := Config.freeValue s.freeCtr

/-- The next free value differs from this one in nothing but its number. -/
def State.drawn (s : State) : State := { s with freeCtr := s.freeCtr + 1 }

/-- The first `n` bytes of an operand; bytes that it lacks are free values, and bytes past the end belong to no part of it (log entry 126). -/
def State.fit (s : State) (n : Nat) (b : List Byte) : List Byte :=
  b.take n ++ (List.range (n - b.length)).map (fun i => (Config.freeValue (s.freeCtr + i)).setWidth 8)

/-- As many words of an operand. -/
def State.fitWords (s : State) (n : Nat) (w : List Word) : List Word :=
  w.take n ++ (List.range (n - w.length)).map (fun i => Config.freeValue (s.freeCtr + i))

/-- The free values that `fit` took are drawn. -/
def State.drawnFor {α : Type} (s : State) (n : Nat) (b : List α) : State := { s with freeCtr := s.freeCtr + (n - b.length) }

/-- DEVTIME has reached a due time. -/
def State.reached (s : State) (due : Option Nat) : Bool :=
  match due with
  | some d => decide (d ≤ s.now)
  | none => false

/-! ## Shelves and cores -/

/-- A unit of shelf `n` reports a NOT-PRESENT return to the shelf's own steward (R25, R102). -/
def State.absentSeen (s : State) (n : Nat) : State := s.modShelf n (fun h => { h with absents := h.absents + 1 })

/-- The shelf's bit of GL_SHELFRET (Table 1.16). -/
def State.isRetired (s : State) (n : Nat) : Bool := bitAt s.retired n

/-- A shelf that runs: not in reset, not gated, not retired. -/
def State.shelfActive (s : State) (n : Nat) : Bool := (s.shelf n).phase == .active && !s.isRetired n

/-- A shelf that a flue message finds not present: in reset or retired (R25). -/
def State.shelfGone (s : State) (n : Nat) : Bool := (s.shelf n).phase == .reset || s.isRetired n

/-- Saggar of a shelf can be reached: its shelf is neither in reset nor retired and no wipe holds it closed (R308, R310). -/
def State.saggarOpen (s : State) (n : Nat) : Bool := !s.shelfGone n && !(s.shelf n).saggarClosed

/-- MODE of SH_PAIRCFG is PAIRED (Table 14.8). -/
def State.paired (s : State) (n : Nat) : Bool := !getB s (.shPaircfg n) 56

/-- First slot of the pair of a slot, or the slot itself in SPLIT mode. -/
def State.unitOf (s : State) (n i : Nat) : Nat := if s.paired n then i / 2 * 2 else i

/-- Slots that go with a slot. -/
def State.unitSlots (s : State) (n i : Nat) : List Nat := if s.paired n then [i / 2 * 2, i / 2 * 2 + 1] else [i]

/-- A slot is out of service (R347): a pair with either of its slots (log entry 145). -/
def State.slotOff (s : State) (n i : Nat) : Bool := (s.unitSlots n i).any (fun j => getB s (.shCorestat n) (26 + j))

/-- Key of the warden's core. -/
def wardenKey : Nat := 1024

/-- Key of a core: 16n + slot. In PAIRED mode both slots of a pair hold the same state, kept at the even slot (R37, R229). -/
def State.coreKey (s : State) : CoreId → Nat
  | .shelf n slot => 16 * n.val + (if s.paired n.val then slot.val / 2 * 2 else slot.val)
  | .warden => wardenKey

/-- Shelf of a core key; 64 for the warden. -/
def keyShelf (k : Nat) : Nat := k / 16

/-- Active slot of a core key. -/
def keySlot (k : Nat) : Nat := k % 16

/-- The buddy of a shelf (R18). -/
def buddy (n : Nat) : Nat := n ^^^ 1

/-- Group of a shelf: its column (R17). -/
def groupOf (n : Nat) : Nat := n % 8

/-- Alternate shelf of a link (R27). -/
def altShelf (l : Nat) : Nat := (l / 4) ^^^ (2 * (l % 4) + 1)

/-- GL_LINKALT bit of a link (Table 1.17). -/
def State.onAlt (s : State) (l : Nat) : Bool := s.linkAlt.getLsbD l

/-- The shelf that serves a link. -/
def State.servingShelf (s : State) (l : Nat) : Nat := if s.onAlt l then altShelf l else l / 4

/-- Index of a link among the links a shelf serves: 0 to 3 home, 4 + k alternate (Table 11.10). -/
def State.servedIndex (s : State) (l : Nat) : Nat := if s.onAlt l then 4 + l % 4 else l % 4

/-- Some shelf can serve the link: its alternate once it has been rehomed, else its home shelf or the alternate to which it is about to
move; otherwise the link is down (R30, Table 1.7). -/
def State.linkHoused (s : State) (l : Nat) : Bool := !s.shelfGone (altShelf l) || (!s.onAlt l && !s.shelfGone (l / 4))

/-- Clock of a core's island in MHz: the target of the shelf (SH_CLK), 1,000 for the warden (R358, R381). -/
def State.coreMHz (s : State) (k : Nat) : Nat := if k = wardenKey then 1000 else max 1 (getF s (.shClk (keyShelf k)) 63 52)

/-- `n` ic of a core's island in ns, rounded up. -/
def State.icNs (s : State) (k n : Nat) : Nat := ceilDiv (n * 1000) (s.coreMHz k)

/-! ## Shelf memory and SRAM -/

/-- Address of offset `x` of shelf `n` in `State.mem`. -/
def shelfAddr (n x : Nat) : Nat := n * 0x200000 + x

/-- Address of offset `x` of the warden's SRAM in `State.mem` (R359). -/
def sramAddr (x : Nat) : Nat := 0x8000000 + x

/-- One byte; a byte that nothing has written reads as zero (log entry 5). -/
def State.byte (s : State) (a : Nat) : Byte := tget 0 s.mem a

/-- `k` bytes from address `a`. -/
def State.bytes (s : State) (a k : Nat) : List Byte := (List.range k).map (fun i => s.byte (a + i))

/-- The word at address `a`. -/
def State.word (s : State) (a : Nat) : Word := bytesWord (s.bytes a 8)

/-- Store bytes; nothing but the bytes changes. -/
def putMem (m : List Host.Cell) (a : Nat) : List Byte → List Host.Cell
  | [] => m
  | b :: t => putMem (tset 0 m a b) (a + 1) t

/-- The granule (R251) of an address, and its word. -/
def granule (a : Nat) : Nat := a / 16
def wordIdx (a : Nat) : Nat := a / 8

/-- Keys of a sparse table below `hi` and from `lo` on are dropped. -/
def dropKeys {α : Type} (t : Tbl α) (lo hi : Nat) : Tbl α := t.filter (fun e => e.1 < lo ∨ hi ≤ e.1)

/-- A data write: the bytes change, the tag of every granule it touches clears (R251), and words written whole are correctable
again (R305). -/
def State.store (s : State) (a : Nat) (b : List Byte) : State :=
  if b = [] then s
  else { s with
    mem := putMem s.mem a b
    ctags := dropKeys s.ctags (granule a) (granule (a + b.length - 1) + 1)
    bad := dropKeys s.bad (ceilDiv a 8) ((a + b.length) / 8) }

/-- Store words. -/
def State.storeWords (s : State) (a : Nat) (ws : List Word) : State := s.store a (fromWords ws)

/-- The tag of the granule at `a`. -/
def State.tagAt (s : State) (a : Nat) : Bool := tget false s.ctags (granule a)

/-- Set the tag of the granule at `a`. -/
def State.setTag (s : State) (a : Nat) (t : Bool) : State := { s with ctags := tset false s.ctags (granule a) t }

/-- Some word of the range reads as uncorrectable (R305). -/
def State.badIn (s : State) (a k : Nat) : Bool :=
  (List.range ((a + k + 7) / 8 - a / 8)).any (fun i => tget false s.bad (a / 8 + i))

/-- The first word of the range that reads as uncorrectable. -/
def State.badAt (s : State) (a k : Nat) : Option Nat :=
  ((List.range ((a + k + 7) / 8 - a / 8)).find? (fun i => tget false s.bad (a / 8 + i))).map (fun i => 8 * (a / 8 + i))

/-- Words that hold an uncorrectable encoding from now on (R305). -/
def State.spoil (s : State) (a k : Nat) : State :=
  { s with bad := (List.range ((a + k + 7) / 8 - a / 8)).foldl (fun t i => tset false t (a / 8 + i) true) s.bad }

/-- The offset lies in the general region (Table 12.1). -/
def inGeneral (x : Nat) : Bool := decide (0xC0000 ≤ x ∧ x < 0x200000)

/-! ## Capabilities in memory (Table 10.1) -/

/-- The two words of a capability, the lower first. -/
def Cap.words (c : Cap) : List Word :=
  [place 55 0 c.base.toNat ||| place 63 56 c.limit.toNat,
   place 47 0 (c.limit.toNat / 256) ||| place 55 48 c.otype.toNat ||| place 63 56 c.rights.toNat]

/-- A capability from two words and a tag. -/
def capOfWords (w0 w1 : Word) (t : Bool) : Cap :=
  { rights := BitVec.ofNat 8 (fld w1 63 56), otype := BitVec.ofNat 8 (fld w1 55 48),
    limit := BitVec.ofNat 56 (fld w1 47 0 * 256 + fld w0 63 56), base := BitVec.ofNat 56 (fld w0 55 0), tag := t }

end Sys2Proof.Machine
end

