-- ==== Sys2Proof/Machine/Flue.lean ====
section
/-! DEFINITION. The flue: attachments and their routers (R16, R22), the dimension-order path over nearest-neighbour and express channels
(R20), and the round-robin grant of each router output among its inputs (R23). -/

namespace Sys2Proof.Machine

/-! ## Attachments -/

/-- Number of an attachment. -/
def attNo : Attach → Nat
  | .shelf n => n.val
  | .port p => 64 + p.val
  | .warden => 80
  | .alwaysOn => 81

/-- Flue attachment of a shelf. -/
def attShelf (n : Nat) : Attach := .shelf (Fin.ofNat 64 n)

/-- Hops between two positions of a row or of a column, with an express channel while the distance is 4 or more (R20). -/
def lineHops (a b : Nat) : Nat := let d := (a - b) + (b - a); d / 4 + d % 4

/-- Hops between two routers (R16, R20). -/
def meshHops (a b : Nat) : Nat := lineHops (a % 8) (b % 8) + lineHops (a / 8) (b / 8)

/-- The router that an attachment uses toward router `far` (R22). The always-on island uses the nearer of its two, router 0 on a tie
(log entry 122). -/
def State.routerOf (s : State) (far : Nat) : Attach → Nat
  | .shelf n => n.val
  | .port p => if p.val < 8 then p.val else 48 + p.val
  | .warden => if bitAt s.routerBad 27 then 36 else 27
  | .alwaysOn => if meshHops far 63 < meshHops far 0 then 63 else 0

/-! ## The path of a message -/

/-- The next position along a row or a column: the express channel while the distance is 4 or more (R20). -/
def lineNext (a b : Nat) : Nat :=
  if a < b then (if 4 ≤ b - a then a + 4 else a + 1)
  else if b < a then (if 4 ≤ a - b then a - 4 else a - 1)
  else a

/-- The next router on the way: along the row to the column of the destination, then along that column (R20). -/
def meshNext (a b : Nat) : Nat :=
  if a % 8 = b % 8 then 8 * lineNext (a / 8) (b / 8) + a % 8 else 8 * (a / 8) + lineNext (a % 8) (b % 8)

/-- The routers from `a` to `b`, both among them; no way has more than eight hops. -/
def meshPath : Nat → Nat → Nat → List Nat
  | 0, a, _ => [a]
  | k + 1, a, b => if a = b then [a] else a :: meshPath k (meshNext a b) b

/-- The path of a message between two attachments. -/
def State.fluePath (s : State) (src dst : Attach) : List Nat :=
  let b := s.routerOf (s.routerOf 0 src) dst
  meshPath 8 (s.routerOf b src) b

/-- Put a flue message on its way: it enters the router of its source (R23). -/
def State.sendFlue (s : State) (src dst : Attach) (b : FlueBody) : State :=
  { s with flue := s.flue ++ [{ src := src, dst := dst, body := b, inp := 64 + attNo src, path := s.fluePath src dst }] }

/-! ## Grants of router outputs (R23) -/

/-- The output that a message waits for: its router, and the next router or the attachment of its destination. -/
def FlueMsg.output (m : FlueMsg) : Nat :=
  match m.path with
  | a :: b :: _ => 256 * a + b
  | [a] => 256 * a + 64 + attNo m.dst
  | [] => 64 + attNo m.dst

/-- The message has reached the router of its destination. -/
def FlueMsg.arrivedAt (m : FlueMsg) : Bool := decide (m.path.length ≤ 1)

/-- How far an input stands behind the one that an output is to grant first. -/
def State.turnOf (s : State) (out inp : Nat) : Nat := (inp + 256 - tget 0 s.granted out % 256) % 256

/-- The message that an output grants: of the input whose turn comes first, the oldest. -/
def State.flueTurn (s : State) (out : Nat) : Option FlueMsg :=
  (s.flue.filter (fun m => m.output == out)).foldl (fun best m =>
    match best with
    | none => some m
    | some x => if s.turnOf out m.inp < s.turnOf out x.inp then some m else some x) none

/-- Change the first entry of a list that equals `x`. -/
def changeFirst {α : Type} [DecidableEq α] (x y : α) : List α → List α
  | [] => []
  | a :: t => if a = x then y :: t else a :: changeFirst x y t

/-- The output passes a message on to the next router; its turn goes to the inputs after the one that it granted. -/
def State.forwardFlue (s : State) (m : FlueMsg) : State :=
  { s with
    flue := changeFirst m { m with inp := m.path.headD 0, path := m.path.drop 1 } s.flue
    granted := tset 0 s.granted m.output ((m.inp + 1) % 256) }

/-- One handshake interval: each router output that leads to another router grants one message. -/
def State.flueRound (s : State) : State :=
  let outs := ((s.flue.filter (fun m => !m.arrivedAt)).map FlueMsg.output).eraseDups
  foldS (outs.filterMap s.flueTurn) State.forwardFlue s

/-- Messages move until one of them waits at the router of the destination. -/
def State.flueRun (s : State) (dst : Attach) : Nat → State
  | 0 => s
  | k + 1 => if s.flue.any (fun m => m.dst == dst && m.arrivedAt) then s else s.flueRound.flueRun dst k

/-- The state in which a message for `dst` waits at that router's output to it, and the message that the output grants. -/
def State.flueNext (s : State) (dst : Attach) : Option (State × FlueMsg) :=
  if s.flue.any (fun m => m.dst == dst) then
    let t := s.flueRun dst (8 * s.flue.length)
    match t.flue.find? (fun m => m.dst == dst && m.arrivedAt) with
    | some m => (t.flueTurn m.output).map (fun x => (t, x))
    | none => none
  else none

/-- The output passes a message to the attachment of its destination. -/
def State.takeFlue (s : State) (m : FlueMsg) : State :=
  { s with
    flue := s.flue.erase m
    granted := tset 0 s.granted m.output ((m.inp + 1) % 256) }

end Sys2Proof.Machine
end

