-- ==== Sys2Proof/Machine/Aes.lean ====
section
/-! DEFINITION. AES-256 with GCM, GMAC, XTS and key unwrap, as FIPS 197, SP 800-38D, IEEE 1619 and RFC 3394 give them (log entry 4). -/

namespace Sys2Proof.Machine

/-- AES S-box, entries 0 to 63. -/
def sboxPart0 : List Nat :=
  [99, 124, 119, 123, 242, 107, 111, 197, 48, 1, 103, 43, 254, 215, 171, 118,
   202, 130, 201, 125, 250, 89, 71, 240, 173, 212, 162, 175, 156, 164, 114, 192,
   183, 253, 147, 38, 54, 63, 247, 204, 52, 165, 229, 241, 113, 216, 49, 21,
   4, 199, 35, 195, 24, 150, 5, 154, 7, 18, 128, 226, 235, 39, 178, 117]

/-- AES S-box, entries 64 to 127. -/
def sboxPart1 : List Nat :=
  [9, 131, 44, 26, 27, 110, 90, 160, 82, 59, 214, 179, 41, 227, 47, 132,
   83, 209, 0, 237, 32, 252, 177, 91, 106, 203, 190, 57, 74, 76, 88, 207,
   208, 239, 170, 251, 67, 77, 51, 133, 69, 249, 2, 127, 80, 60, 159, 168,
   81, 163, 64, 143, 146, 157, 56, 245, 188, 182, 218, 33, 16, 255, 243, 210]

/-- AES S-box, entries 128 to 191. -/
def sboxPart2 : List Nat :=
  [205, 12, 19, 236, 95, 151, 68, 23, 196, 167, 126, 61, 100, 93, 25, 115,
   96, 129, 79, 220, 34, 42, 144, 136, 70, 238, 184, 20, 222, 94, 11, 219,
   224, 50, 58, 10, 73, 6, 36, 92, 194, 211, 172, 98, 145, 149, 228, 121,
   231, 200, 55, 109, 141, 213, 78, 169, 108, 86, 244, 234, 101, 122, 174, 8]

/-- AES S-box, entries 192 to 255. -/
def sboxPart3 : List Nat :=
  [186, 120, 37, 46, 28, 166, 180, 198, 232, 221, 116, 31, 75, 189, 139, 138,
   112, 62, 181, 102, 72, 3, 246, 14, 97, 53, 87, 185, 134, 193, 29, 158,
   225, 248, 152, 17, 105, 217, 142, 148, 155, 30, 135, 233, 206, 85, 40, 223,
   140, 161, 137, 13, 191, 230, 66, 104, 65, 153, 45, 15, 176, 84, 187, 22]

/-- Inverse S-box, entries 0 to 63. -/
def invSboxPart0 : List Nat :=
  [82, 9, 106, 213, 48, 54, 165, 56, 191, 64, 163, 158, 129, 243, 215, 251,
   124, 227, 57, 130, 155, 47, 255, 135, 52, 142, 67, 68, 196, 222, 233, 203,
   84, 123, 148, 50, 166, 194, 35, 61, 238, 76, 149, 11, 66, 250, 195, 78,
   8, 46, 161, 102, 40, 217, 36, 178, 118, 91, 162, 73, 109, 139, 209, 37]

/-- Inverse S-box, entries 64 to 127. -/
def invSboxPart1 : List Nat :=
  [114, 248, 246, 100, 134, 104, 152, 22, 212, 164, 92, 204, 93, 101, 182, 146,
   108, 112, 72, 80, 253, 237, 185, 218, 94, 21, 70, 87, 167, 141, 157, 132,
   144, 216, 171, 0, 140, 188, 211, 10, 247, 228, 88, 5, 184, 179, 69, 6,
   208, 44, 30, 143, 202, 63, 15, 2, 193, 175, 189, 3, 1, 19, 138, 107]

/-- Inverse S-box, entries 128 to 191. -/
def invSboxPart2 : List Nat :=
  [58, 145, 17, 65, 79, 103, 220, 234, 151, 242, 207, 206, 240, 180, 230, 115,
   150, 172, 116, 34, 231, 173, 53, 133, 226, 249, 55, 232, 28, 117, 223, 110,
   71, 241, 26, 113, 29, 41, 197, 137, 111, 183, 98, 14, 170, 24, 190, 27,
   252, 86, 62, 75, 198, 210, 121, 32, 154, 219, 192, 254, 120, 205, 90, 244]

/-- Inverse S-box, entries 192 to 255. -/
def invSboxPart3 : List Nat :=
  [31, 221, 168, 51, 136, 7, 199, 49, 177, 18, 16, 89, 39, 128, 236, 95,
   96, 81, 127, 169, 25, 181, 74, 13, 45, 229, 122, 159, 147, 201, 156, 239,
   160, 224, 59, 77, 174, 42, 245, 176, 200, 235, 187, 60, 131, 83, 153, 97,
   23, 43, 4, 126, 186, 119, 214, 38, 225, 105, 20, 99, 85, 33, 12, 125]

/-- AES S-box. -/
def sbox (b : Byte) : Byte :=
  let i := b.toNat
  byteOf ((if i < 64 then sboxPart0 else if i < 128 then sboxPart1 else if i < 192 then sboxPart2 else sboxPart3).getD (i % 64) 0)

/-- Inverse S-box. -/
def invSbox (b : Byte) : Byte :=
  let i := b.toNat
  byteOf ((if i < 64 then invSboxPart0 else if i < 128 then invSboxPart1 else if i < 192 then invSboxPart2 else invSboxPart3).getD (i % 64) 0)

/-- Multiplication by x in GF(2^8). -/
def xtime (b : Byte) : Byte := (b <<< 1) ^^^ (if b.msb then 0x1B else 0)

/-- Multiplication by a small constant in GF(2^8). -/
def gmul (c : Nat) (b : Byte) : Byte :=
  let b2 := xtime b; let b4 := xtime b2; let b8 := xtime b4
  (if c % 2 = 1 then b else 0) ^^^ (if c / 2 % 2 = 1 then b2 else 0) ^^^ (if c / 4 % 2 = 1 then b4 else 0) ^^^ (if c / 8 % 2 = 1 then b8 else 0)

/-- The state byte that ShiftRows moves to place `i` (column-major order). -/
def shiftRowsIx (i : Nat) : Nat := (i + 4 * (i % 4)) % 16
/-- The state byte that InvShiftRows moves to place `i`. -/
def invShiftRowsIx (i : Nat) : Nat := (i + 16 - 4 * (i % 4)) % 16

def permute (f : Nat → Nat) (l : List Byte) : List Byte := (List.range 16).map (fun i => l.getD (f i) 0)

/-- One column under the circulant matrix with first row `a b c d`. -/
def mixCol (a b c d : Nat) (l : List Byte) (k : Nat) : List Byte :=
  let x := l.getD (4 * k) 0; let y := l.getD (4 * k + 1) 0; let z := l.getD (4 * k + 2) 0; let w := l.getD (4 * k + 3) 0
  [gmul a x ^^^ gmul b y ^^^ gmul c z ^^^ gmul d w, gmul d x ^^^ gmul a y ^^^ gmul b z ^^^ gmul c w,
   gmul c x ^^^ gmul d y ^^^ gmul a z ^^^ gmul b w, gmul b x ^^^ gmul c y ^^^ gmul d z ^^^ gmul a w]

def mixColumns (l : List Byte) : List Byte := (List.range 4).flatMap (mixCol 2 3 1 1 l)
def invMixColumns (l : List Byte) : List Byte := (List.range 4).flatMap (mixCol 14 11 13 9 l)

/-- SubBytes then ShiftRows. -/
def subShift (l : List Byte) : List Byte := permute shiftRowsIx (l.map sbox)
/-- InvShiftRows then InvSubBytes. -/
def invSubShift (l : List Byte) : List Byte := (permute invShiftRowsIx l).map invSbox

/-- A middle round and the last round of encryption with a round key. -/
def aesRound (rk l : List Byte) : List Byte := xorBytes (mixColumns (subShift l)) rk
def aesLast (rk l : List Byte) : List Byte := xorBytes (subShift l) rk
/-- A middle round and the last round of decryption, in the order of the equivalent inverse cipher. -/
def aesInvRound (rk l : List Byte) : List Byte := xorBytes (invMixColumns (invSubShift l)) rk
def aesInvLast (rk l : List Byte) : List Byte := xorBytes (invSubShift l) rk

/-- Key expansion of a 256-bit key: the words so far in reverse, the number of the next word, words still to make. -/
def expandKey : Nat → Nat → List (List Byte) → List (List Byte)
  | 0, _, ws => ws.reverse
  | k + 1, i, ws =>
    let t := ws.headD []
    let t := if i % 8 = 0 then
        let r := ((t.drop 1) ++ t.take 1).map sbox
        xorBytes r [((List.range (i / 8 - 1)).foldl (fun b _ => xtime b) 1), 0, 0, 0]
      else if i % 8 = 4 then t.map sbox else t
    expandKey k (i + 1) (xorBytes (ws.getD 7 []) t :: ws)

/-- The 15 round keys of a 32-byte key. -/
def roundKeys (key : List Byte) : List (List Byte) :=
  let w := expandKey 52 8 ((List.range 8).map (fun i => slice key (4 * i) 4)).reverse
  (List.range 15).map (fun r => (List.range 4).flatMap (fun j => w.getD (4 * r + j) []))

/-- AES-256 of one block. -/
def aesEnc (key blk : List Byte) : List Byte :=
  let rk := roundKeys key
  let x := (List.range 13).foldl (fun l i => aesRound (rk.getD (i + 1) []) l) (xorBytes blk (rk.getD 0 []))
  aesLast (rk.getD 14 []) x

/-- Inverse AES-256 of one block. -/
def aesDec (key blk : List Byte) : List Byte :=
  let rk := roundKeys key
  let x := (List.range 13).foldl (fun l i => invMixColumns (xorBytes (invSubShift l) (rk.getD (13 - i) []))) (xorBytes blk (rk.getD 14 []))
  xorBytes (invSubShift x) (rk.getD 0 [])

/-! ## GCM (SP 800-38D) -/

/-- A block as a 128-bit number, first byte most significant. -/
def beNat (l : List Byte) : Nat := l.foldl (fun a b => a * 256 + b.toNat) 0
/-- The `k` bytes of a number, most significant first. -/
def beBytes (k x : Nat) : List Byte := (leBytes k x).reverse

/-- Multiplication in GF(2^128) with the bit order of GCM. -/
def ghashMul (x y : BitVec 128) : BitVec 128 :=
  ((List.range 128).foldl (fun (zv : BitVec 128 × BitVec 128) i =>
    let z := if x.getMsbD i then zv.1 ^^^ zv.2 else zv.1
    let v := if zv.2.getLsbD 0 then (zv.2 >>> 1) ^^^ (0xE1 <<< 120) else zv.2 >>> 1
    (z, v)) (0, y)).1

/-- 16-byte blocks, the last padded with zeros. -/
def blocks16 : Nat → List Byte → List (List Byte)
  | 0, _ => []
  | k + 1, l => if l = [] then [] else padTo 16 (l.take 16) :: blocks16 k (l.drop 16)

def ghash (h : BitVec 128) (bs : List (List Byte)) : BitVec 128 :=
  bs.foldl (fun y b => ghashMul (y ^^^ BitVec.ofNat 128 (beNat b)) h) 0

/-- Counter blocks from the given 32-bit counter. -/
def gcmCtr (key : List Byte) (iv : List Byte) : Nat → Nat → List Byte → List Byte
  | 0, _, _ => []
  | k + 1, c, l => if l = [] then [] else xorBytes l (aesEnc key (iv ++ beBytes 4 c)) ++ gcmCtr key iv k (c + 1) (l.drop 16)

/-- The authentication tag over additional data and ciphertext. -/
def gcmTag (key iv aad ct : List Byte) : List Byte :=
  let h := BitVec.ofNat 128 (beNat (aesEnc key (List.replicate 16 0)))
  let y := ghash h (blocks16 (aad.length + 1) aad ++ blocks16 (ct.length + 1) ct ++ [beBytes 8 (8 * aad.length) ++ beBytes 8 (8 * ct.length)])
  xorBytes (beBytes 16 y.toNat) (aesEnc key (iv ++ beBytes 4 1))

/-- GCM encryption: ciphertext and tag. -/
def gcmSeal (key iv aad pt : List Byte) : List Byte × List Byte :=
  let ct := gcmCtr key iv (pt.length + 1) 2 pt
  (ct, gcmTag key iv aad ct)

/-- GCM decryption; none where the tag fails. -/
def gcmOpen (key iv aad ct tag : List Byte) : Option (List Byte) :=
  if gcmTag key iv aad ct = tag then some (gcmCtr key iv (ct.length + 1) 2 ct) else none

/-! ## XTS (IEEE 1619) -/

/-- Multiplication of a tweak by x: least significant byte first. -/
def xtsMul (t : List Byte) : List Byte :=
  let n := leNat t
  let d := n * 2 % 2 ^ 128
  leBytes 16 (if n < 2 ^ 127 then d else d ^^^ 0x87)

def xtsBlocks (f : List Byte → List Byte) : Nat → List Byte → List Byte → List Byte
  | 0, _, _ => []
  | k + 1, t, l => if l = [] then [] else xorBytes (f (xorBytes (l.take 16) t)) t ++ xtsBlocks f k (xtsMul t) (l.drop 16)

/-- XTS of one data unit of whole blocks under two keys, for encryption or decryption. -/
def xtsUnit (enc : Bool) (k1 k2 : List Byte) (tweak : Nat) (data : List Byte) : List Byte :=
  xtsBlocks (if enc then aesEnc k1 else aesDec k1) (data.length / 16) (aesEnc k2 (leBytes 16 tweak)) data

/-! ## Key unwrap (RFC 3394) -/

/-- One unwrap step `t` on (A, R list of 8-byte words). -/
def unwrapStep (kek : List Byte) (n : Nat) (st : List Byte × List (List Byte)) (t : Nat) : List Byte × List (List Byte) :=
  let i := (t - 1) % n
  let b := aesDec kek (xorBytes st.1 (beBytes 8 t) ++ st.2.getD i [])
  (b.take 8, st.2.set i (b.drop 8))

/-- Unwrap under a key-encryption key; none where the integrity value is not A6A6A6A6A6A6A6A6. -/
def keyUnwrap (kek wrapped : List Byte) : Option (List Byte) :=
  let n := wrapped.length / 8 - 1
  let r := (List.range n).map (fun i => slice wrapped (8 * i + 8) 8)
  let st := ((List.range (6 * n)).map (fun i => 6 * n - i)).foldl (unwrapStep kek n) (wrapped.take 8, r)
  if st.1 = List.replicate 8 0xA6 then some st.2.flatten else none

end Sys2Proof.Machine
end

