-- ==== Sys2Proof/Machine/Crc.lean ====
section
/-! DEFINITION. The cyclic redundancy checks: CRC-16 of HCHK and ECHK (R74), CRC-64 (R75), CRC-32 of a flit (R107). -/

namespace Sys2Proof.Machine

/-- One byte into the CRC-16, polynomial 0x1021, most significant bit first (R74). -/
def crc16Byte (c : BitVec 16) (b : Byte) : BitVec 16 :=
  (List.range 8).foldl (fun x _ => (x <<< 1) ^^^ (if x.msb then 0x1021 else 0)) (c ^^^ (b.setWidth 16 <<< 8))

/-- CRC-16 of a byte string, initial value 0xFFFF (R74). -/
def crc16 (l : List Byte) : BitVec 16 := l.foldl crc16Byte 0xFFFF

/-- One byte into the reflected CRC-64 of ECMA-182 (R75). -/
def crc64Byte (c : Word) (b : Byte) : Word :=
  (List.range 8).foldl (fun x _ => (x >>> 1) ^^^ (if x.getLsbD 0 then 0xC96C5795D7870F42 else 0)) (c ^^^ b.setWidth 64)

/-- CRC-64 of a byte string (R75). -/
def crc64 (l : List Byte) : Word := ~~~ (l.foldl crc64Byte (BitVec.allOnes 64))

/-- One byte into the reflected CRC-32 of IEEE 802.3 (R107). -/
def crc32Byte (c : BitVec 32) (b : Byte) : BitVec 32 :=
  (List.range 8).foldl (fun x _ => (x >>> 1) ^^^ (if x.getLsbD 0 then 0xEDB88320 else 0)) (c ^^^ b.setWidth 32)

/-- CRC-32 of a byte string (R107). -/
def crc32 (l : List Byte) : BitVec 32 := ~~~ (l.foldl crc32Byte (BitVec.allOnes 32))

end Sys2Proof.Machine
end

