-- ==== Sys2Proof/Machine/HostWrite.lean ====
section
/-! DEFINITION. Host ports as every unit uses them: serving port, grant check, requests, port-cache lines, writes (R317 to R331). -/

namespace Sys2Proof.Machine

/-- The serving port of a host line (R320). -/
def State.servingPort (s : State) (line : Nat) : Nat :=
  let a := line * 64
  let k := (a / 256 % 16) ^^^ (a / 4096 % 16)
  getF s .glHpmap (4 * k + 3) (4 * k)

/-! ## Messages and credit (R317, R424, R425) -/

/-- Credit channel of a message of the CE-1024: 0 REQ, 1 RSP, 2 DAT. -/
def HostMsg.chan : HostMsg → Nat
  | .request _ _ => 0
  | .datWr _ _ _ _ => 2
  | .datRecall _ _ _ _ _ => 2
  | _ => 1

def Port.credit (p : Port) (c : Nat) : Nat := if c = 0 then p.reqCr else if c = 1 then p.rspCr else p.datCr

def Port.takeCredit (p : Port) (c : Nat) : Port :=
  if c = 0 then { p with reqCr := p.reqCr - 1 } else if c = 1 then { p with rspCr := p.rspCr - 1 } else { p with datCr := p.datCr - 1 }

/-- A message as it leaves: a parity error of the write data sets POISON on the DAT-WR beat (R350). -/
def Port.beat (p : Port) (m : HostMsg) : HostMsg :=
  match m with
  | .datWr t d be poison => .datWr t d be (poison || p.parity)
  | m => m

/-- The port once a message has left: its credit is used, and with a DAT-WR the parity error has been reported. -/
def Port.sent (p : Port) (m : HostMsg) : Port :=
  { p.takeCredit m.chan with parity := p.parity && (match m with | .datWr _ _ _ _ => false | _ => true) }

/-- Send each waiting message whose channel has credit, in order on each channel; the rest waits and nothing is dropped (R317). -/
def pumpMsgs : List HostMsg → Port → List HostMsg → List HostMsg × Port × List HostMsg
  | [], p, out => ([], p, out)
  | m :: t, p, out =>
    if p.credit m.chan = 0 then
      let r := pumpMsgs t p out
      (m :: r.1, r.2.1, r.2.2)
    else pumpMsgs t (p.sent m) (out ++ [p.beat m])

/-- Record the messages that a port sent. -/
def emitMsgs (s : State) (p : Nat) (ms : List HostMsg) : State := ms.foldl (fun s m => s.emit (.host p m)) s

/-- Send what credit allows on port `p`. -/
def State.pump (s : State) (p : Nat) : State :=
  let r := pumpMsgs (s.port p).outq (s.port p) []
  emitMsgs (s.setPort p { r.2.1 with outq := r.1 }) p r.2.2

/-- Queue a message on port `p` and send what credit allows. -/
def State.sendMsg (s : State) (p : Nat) (m : HostMsg) : State :=
  (s.modPort p (fun x => { x with outq := x.outq ++ [m] })).pump p

/-! ## Requests -/

/-- Requests with numbers from here on wait for a request tag and are not sent. -/
def rqWaiting : Nat := 1024

/-- The ports are not isolated and no new map is pending, so that requests leave (R320, R334). -/
def State.canRequest (s : State) : Bool := s.power.block == .hostReady && s.hpmapNew == none

/-- Messages of a request: the REQ, and DAT-WR with the data of a write. -/
def reqMsgs (t : Nat) (r : HostReq) : List HostMsg :=
  match r.op with
  | .putLine | .putMasked | .evictDirty => [.request t r, .datWr t r.data r.be r.poison]
  | _ => [.request t r]

/-- Whether an ACQ for the line is outstanding on the port. -/
def Port.acquiring (p : Port) (line : Nat) : Bool :=
  p.reqs.any (fun e => decide (e.1 < rqWaiting) && e.2.line == line && (e.2.op == .acqShare || e.2.op == .acqOwn || e.2.op == .acqRaise))

/-- Number for a request that waits: one above every number in use. -/
def Port.waitNo (p : Port) : Nat := p.reqs.foldl (fun m e => max m (e.1 + 1)) rqWaiting

/-- Send a request under the lowest free tag, or hold it where none is free, the ports are held, its line is in the write-back buffer
(R325), or an acquisition of the line is outstanding. -/
def State.request (s : State) (p : Nat) (r : HostReq) : State :=
  let x := s.port p
  let free := (List.range rqWaiting).find? (fun i => (alook i x.reqs).isNone)
  let blocked := (r.op != .evictDirty && (alook r.line x.wbuf).isSome) || x.acquiring r.line
  match free with
  | some t =>
    if (s.canRequest || (r.op == .evictDirty && s.power.block == .hostReady)) && !blocked then
      ((s.setPort p { x with reqs := x.reqs ++ [(t, r)], outq := x.outq ++ reqMsgs t r })).pump p
    else s.setPort p { x with reqs := x.reqs ++ [(x.waitNo, r)] }
  | none => s.setPort p { x with reqs := x.reqs ++ [(x.waitNo, r)] }

/-- Read an entry of one of the device's own tables at host address `a`, without allocating a line. -/
def State.readTable (s : State) (who : HostWho) (a : Nat) : State :=
  s.request (s.servingPort (a / 64)) { op := .readThrough, line := a / 64, se := false, who := who, data := [], be := 0, off := a % 64 }

/-- The reads of a table entry end. -/
def State.readEnds (s : State) (who : HostWho) : State :=
  (List.range 16).foldl (fun s p => if (s.port p).reqs.any (fun e => e.2.who == who)
    then s.modPort p (fun x => { x with reqs := x.reqs.filter (fun e => e.2.who != who) }) else s) s

/-- What the reads of a table entry under way bring is no longer wanted: one that was sent is answered into nothing, one that waits ends. -/
def State.readStale (s : State) (who : HostWho) : State :=
  (List.range 16).foldl (fun s p => if (s.port p).reqs.any (fun e => e.2.who == who)
    then s.modPort p (fun x => { x with reqs := (x.reqs.filter (fun e => e.2.who != who || decide (e.1 < rqWaiting))).map (fun e =>
      if e.2.who == who then (e.1, { e.2 with who := .evict }) else e) }) else s) s

/-! ## The port cache (R321, R322, R325) -/

/-- Ways of a set (R321). -/
def ways : Nat := 16

/-- Lines of the set of `line`, most recently used first, that the port holds. -/
def Port.setLines (p : Port) (line : Nat) : List (Nat × Line) := p.lines.filter (fun e => e.1 % 2048 = line % 2048)

/-- Fills outstanding for the set of `line`. -/
def Port.setFills (p : Port) (line : Nat) : Nat :=
  (p.reqs.filter (fun e => e.1 < rqWaiting ∧ e.2.line % 2048 = line % 2048 ∧ (e.2.op = .acqShare ∨ e.2.op = .acqOwn))).length

/-- A dirty line. -/
def lineDirty : LineState → Bool
  | .M | .O => true
  | _ => false

/-- Make a way free for a fill of `line`: the least recently used line leaves, a dirty one through the write-back buffer (R322). None
where the buffer is full, so that the access waits (R325). -/
def State.makeRoom (s : State) (p : Nat) (line : Nat) : Option State :=
  let x := s.port p
  if (x.setLines line).length + x.setFills line < ways then some s
  else match (x.setLines line).getLast? with
    | none => some s
    | some v =>
      if lineDirty v.2.st then
        if x.wbuf.length < 32 then
          some ((s.setPort p { x with lines := adel v.1 x.lines, wbuf := x.wbuf ++ [(v.1, v.2.data)] }).request p
            { op := .evictDirty, line := v.1, se := false, who := .evict, data := v.2.data, be := BitVec.allOnes 64 })
        else none
      else some (s.setPort p { x with lines := adel v.1 x.lines })

/-- Touch a line: it becomes the most recently used. -/
def State.putLine (s : State) (p : Nat) (line : Nat) (l : Line) : State :=
  s.modPort p (fun x => { x with lines := if l.st = .I then adel line x.lines else aput line l x.lines })

/-- State of a line in the port. -/
def Port.lineSt (p : Port) (line : Nat) : LineState :=
  match alook line p.lines with
  | some l => l.st
  | none => .I

/-- Bytes of `data` where the byte enables are 1, of `old` elsewhere. -/
def mergeBe (old data : List Byte) (be : Word) : List Byte :=
  (List.range 64).map (fun i => if bitAt be i then data.getD i 0 else old.getD i 0)

/-- Merge a write into a line held in M or E, which becomes M (R321). -/
def State.mergeLine (s : State) (p : Nat) (line : Nat) (data : List Byte) (be : Word) : State :=
  match alook line (s.port p).lines with
  | some l => s.putLine p line { st := .M, data := mergeBe l.data data be }
  | none => s

/-- Result of a write toward host memory. -/
inductive WrRes where
  | refused | done | wait
  deriving DecidableEq, Repr

/-- One line's part of a checked write by a move unit, the ring unit or the ledger unit (R321). -/
def State.writeLine (s : State) (p line : Nat) (data : List Byte) (be : Word) (who : HostWho) (poison : Bool) (g : Option Nat := none) :
    State × WrRes :=
  match (s.port p).lineSt line with
  | .M | .E => (s.mergeLine p line data be, .done)
  | .S | .O => (s.request p { op := .acqRaise, line := line, se := false, who := who, data := data, be := be, poison := poison, grant := g }, .wait)
  | .I =>
    let op := if be = BitVec.allOnes 64 then HostOp.putLine else HostOp.putMasked
    (s.request p { op := op, line := line, se := false, who := who, data := data, be := be, poison := poison, grant := g }, .wait)

/-! ## Grants (R328 to R331) -/

/-- An entry that covers something: V set, reserved bits zero, LIMIT not below BASE (Table 13.7). -/
def grantUsable (e : List Word) : Bool :=
  let w0 := e.getD 0 0; let w1 := e.getD 1 0; let w2 := e.getD 2 0; let w3 := e.getD 3 0
  bitAt w0 63 && fld w0 58 52 == 0 && fld w1 55 52 == 0 && fld w2 51 48 == 0 && fld w2 15 0 == 0 && w3 == 0
    && decide (fld w0 51 0 ≤ fld w1 51 0)

/-- An entry covers `z` bytes at `a`. -/
def grantCovers (e : List Word) (a z : Nat) : Bool :=
  decide (fld (e.getD 0 0) 51 0 ≤ a ∧ a + z - 1 ≤ fld (e.getD 1 0) 51 0)

/-- Answer of a grant check: the entry that passes it, or the entry to fetch where the check needs one that the port does not hold. -/
inductive GrantAns where
  | pass (idx : Nat) | fail | fetch (idx : Nat)
  deriving DecidableEq, Repr

/-- Check of `z` bytes at `a` through a reference (R329): bit 61 W for writes, bit 62 R for gathers. -/
def State.checkRef (s : State) (p : Nat) (g : BitVec 32) (bit a z : Nat) : GrantAns :=
  let idx := g.toNat % 2 ^ 24
  if !getB s .glGrant 63 || decide (2 ^ getF s .glGrant 4 0 ≤ idx) then .fail
  else match alook idx (s.port p).grants with
    | none => .fetch idx
    | some e => if grantUsable e && bitAt (e.getD 0 0) bit && fld (e.getD 1 0) 63 56 == g.toNat / 2 ^ 24 && grantCovers e a z
        then .pass idx else .fail

/-- A window grant passes a write without reference (R330). -/
def windowPass (e : List Word) (vmid : Option (BitVec 12)) (a z : Nat) : Bool :=
  grantUsable e && bitAt (e.getD 0 0) 61 && grantCovers e a z
    && (bitAt (e.getD 0 0) 59 || (match vmid with | some v => fld (e.getD 2 0) 63 52 == v.toNat | none => false))

/-- The window grants that the port holds (R330). -/
def Port.windows (p : Port) : List (Nat × List Word) := p.grants.filter (fun e => e.1 < 64)

/-- Check of a write without reference (R330). -/
def State.checkWindow (s : State) (p : Nat) (vmid : Option (BitVec 12)) (a z : Nat) : GrantAns :=
  if !getB s .glGrant 63 then .fail
  else match (s.port p).windows.find? (fun e => windowPass e.2 vmid a z) with
    | some e => .pass e.1
    | none => match (List.range 64).find? (fun i => (alook i (s.port p).grants).isNone) with
      | some i => .fetch i
      | none => .fail

/-- The check of a write (R329, R330). A grant checker under a duplicate mismatch refuses everything (R349). -/
def State.checkWrite (s : State) (p : Nat) (ref : Option (BitVec 32)) (vmid : Option (BitVec 12)) (a z : Nat) : GrantAns :=
  if (s.port p).grantBroken then .fail
  else match ref with
    | some g => s.checkRef p g 61 a z
    | none => s.checkWindow p vmid a z

/-- Record a refusal: REFUSED, HP_GERR and HP_GREF (R331, Tables 13.17 to 13.19). -/
def State.refuse (s : State) (p : Nat) (src a : Nat) (ref : Option (BitVec 32)) : State :=
  let s := bumpF s (.hpCnt p) 63 48 1
  let s := wrReg s (.hpGerr p) (place 63 60 src ||| place 51 0 a)
  wrReg s (.hpGref p) (match ref with | some g => place 31 0 g.toNat | none => bitIf 32 true)

/-- Ask for a grant entry once: it lies at BASE of GL_GRANT + index * 32 (R328). -/
def State.fetchGrant (s : State) (p idx : Nat) : State :=
  if (s.port p).grantFetch.contains idx then s
  else (s.modPort p (fun x => { x with grantFetch := x.grantFetch ++ [idx] })).readTable (.grant p idx) (getF s .glGrant 51 12 * 4096 + idx * 32)

/-- A port no longer waits for a grant entry that it is reading: what the read brings is old. -/
def State.forgetFetch (s : State) (p idx : Nat) : State :=
  if (s.port p).grantFetch.contains idx then
    (s.modPort p (fun x => { x with grantFetch := x.grantFetch.erase idx })).readStale (.grant p idx)
  else s

/-- Byte enables of bytes `lo` to `hi - 1` of a line. -/
def beRange (lo hi : Nat) : Word := BitVec.ofNat 64 ((2 ^ (hi - lo) - 1) * 2 ^ lo)

/-- The parts of `data` at address `a`, one for each line: line, 64 bytes with the part in place, byte enables. -/
def lineParts : Nat → Nat → List Byte → List (Nat × List Byte × Word)
  | 0, _, _ => []
  | k + 1, a, data =>
    if data = [] then []
    else
      let o := a % 64
      let n := min (64 - o) data.length
      (a / 64, padTo 64 (List.replicate o 0 ++ data.take n), beRange o (o + n)) :: lineParts k (a + n) (data.drop n)

/-- Send the parts of a checked write; done when every part merged at once. -/
def State.sendParts (s : State) (parts : List (Nat × List Byte × Word)) (who : HostWho) (poison : Bool) (g : Option Nat) : State × WrRes :=
  parts.foldl (fun (r : State × WrRes) q =>
    let t := r.1.writeLine (r.1.servingPort q.1) q.1 q.2.1 q.2.2 who poison g
    (t.1, if r.2 = .done ∧ t.2 = .done then .done else .wait)) (s, .done)

/-! ## Tags of host memory (R252) -/

/-- `n` bytes at host address `a` meet the tagged region. -/
def State.meetsRegion (s : State) (a n : Nat) : Bool :=
  let base := getF s .glTagrgn 51 30 * 2 ^ 30
  getB s .glTagrgn 63 && decide (base < a + n ∧ a < base + 2 ^ getF s .glTagrgn 5 0)

/-- Byte of the tag table that holds the tag of the granule at host address `a`, and its bit. -/
def State.tagSpot (s : State) (a : Nat) : Nat × Nat :=
  let i := (a - getF s .glTagrgn 51 30 * 2 ^ 30) / 16
  (getF s .glTagtab 51 12 * 4096 + i / 8, i % 8)

/-- AND and OR masks of 64 bytes each applied to a line. -/
def maskLine (old masks : List Byte) : List Byte :=
  (List.range 64).map (fun i => (old.getD i 0 &&& masks.getD i 0) ||| masks.getD (64 + i) 0)

/-- Masks that clear or set one bit of one byte of a line. -/
def tagMasks (i bit : Nat) (v : Bool) : List Byte :=
  let m : Byte := BitVec.ofNat 8 (2 ^ bit)
  setAt (List.replicate 64 255) i (if v then 255 else ~~~ m) ++ setAt (List.replicate 64 0) i (if v then m else 0)

/-! ## The firing log in the log store (R367) -/

/-- The 32 bytes of a record (Table 15.7). -/
def LogRec.bytes (r : LogRec) : List Byte :=
  fromWords [BitVec.ofNat 64 r.time,
    place 63 56 r.src.toNat ||| place 55 44 r.unit.toNat ||| place 43 42 r.sev.toNat ||| place 31 0 r.seq.toNat,
    place 63 48 r.code.toNat, r.data]

/-- Records that the log store holds (R367). -/
def logSize : Nat := 32768

/-- A record of this moment with the next SEQ. -/
def State.logOf (s : State) (src unit sev code : Nat) (data : Word) : LogRec :=
  { time := s.now, src := BitVec.ofNat 8 src, unit := BitVec.ofNat 12 unit, sev := BitVec.ofNat 2 sev, seq := s.warden.logSeq,
    code := BitVec.ofNat 16 code, data := data }

/-- Commit a record to the log store; a full store loses its oldest, and OVWR counts one not yet flushed (R367). -/
def State.logLocal (s : State) (r : LogRec) : State :=
  s.modWarden (fun w =>
    let full := decide (logSize ≤ w.log.length)
    let lost := full && (match w.log.head? with | some o => decide (w.flushed.toNat < o.seq.toNat) | none => false)
    { w with
      log := (if full then w.log.drop 1 else w.log) ++ [r]
      logSeq := w.logSeq + 1
      ovwr := if lost then BitVec.ofNat 16 (satAdd 65535 w.ovwr.toNat 1) else w.ovwr })

/-- The record that the warden firmware writes for a refused write of a device structure (Table 13.8); its copy for the mirror leaves with the
next record (log entry 144). -/
def State.logDropped (s : State) : State :=
  let r := s.logOf 3 0 1 0 0
  (s.logLocal r).modWarden (fun w => { w with unmirrored := w.unmirrored ++ [r] })

/-- A refused write of a device structure: HP_GERR, and the record (R331, Table 13.8). -/
def State.dropWrite (s : State) (p a : Nat) : State := (s.refuse p 7 a none).logDropped

/-- Change bits of byte `a` of the tag table: in the port's line where it is held in M or E, else once its line is owned. The write is
checked as one of the device's own structures; a refused one is dropped (R330, R331). -/
def State.putTagMask (s : State) (a : Nat) (masks : List Byte) : State :=
  let line := a / 64
  let p := s.servingPort line
  match s.checkWrite p none none a 1 with
  | .fail => s.dropWrite p a
  | .fetch i => (s.fetchGrant p i).modPort p (fun x => { x with grantWait := x.grantWait ++
      [{ ref := none, vmid := none, src := 7, addr := a, size := 1, who := .tagTable, data := masks, be := 0 }] })
  | .pass i =>
    let ask := fun (op : HostOp) => s.request p { op := op, line := line, se := false, who := .tagTable, data := masks, be := 0, grant := some i }
    match alook line (s.port p).lines with
    | some l =>
      match l.st with
      | .M | .E => s.putLine p line { st := .M, data := maskLine l.data masks }
      | _ => ask .acqRaise
    | none => ask .acqOwn

/-- Change one tag in the table. -/
def State.putHostTag (s : State) (a : Nat) (v : Bool) : State :=
  let spot := s.tagSpot a
  s.putTagMask spot.1 (tagMasks (spot.1 % 64) spot.2 v)

/-- A write by the CE-1024 clears the tag of every region granule that it touches. -/
def State.clearHostTags (s : State) (a n : Nat) : State :=
  if n = 0 ∨ s.meetsRegion a n = false then s
  else (List.range ((a + n - 1) / 16 - a / 16 + 1)).foldl (fun s i =>
    if s.meetsRegion (16 * (a / 16 + i)) 16 then s.putHostTag (16 * (a / 16 + i)) false else s) s

/-- A write of a device unit toward host memory: checked whole at the serving port of its first line, then sent line by line (R329).
Where the grant entry is not held, the write waits for it (R328). -/
def State.hostWrite (s : State) (who : HostWho) (src : Nat) (ref : Option (BitVec 32)) (vmid : Option (BitVec 12)) (a : Nat)
    (data : List Byte) (poison : Bool := false) : State × WrRes :=
  let p := s.servingPort (a / 64)
  match s.checkWrite p ref vmid a data.length with
  | .pass i => (s.clearHostTags a data.length).sendParts (lineParts (data.length + 1) a data) who poison (some i)
  | .fail => (s.refuse p src a ref, .refused)
  | .fetch i => ((s.fetchGrant p i).modPort p (fun x => { x with grantWait := x.grantWait ++
      [{ ref := ref, vmid := vmid, src := src, addr := a, size := data.length, who := who, data := data, be := bitIf 0 poison }] }), .wait)

end Sys2Proof.Machine
end

