-- ==== Sys2Proof/Machine/Sources.lean ====
section
/-! DEFINITION. Event sources: edges, levels, coalescing, pending, quarantine (R289 to R296), and the firing log (R367, R368). -/

namespace Sys2Proof.Machine

/-! ## One source -/

/-- A source is pending (R291): a data source after coalescing, a level source while its input is high and it is not active, an edge
source while EDGES is not zero. -/
def EvSrc.pending (data : Bool) (x : EvSrc) : Bool :=
  if data then x.dpend
  else if x.sense = 0 then x.input && !x.act
  else x.edges != 0

/-- Count edges into EDGES; SAT when it saturates (R291). -/
def EvSrc.count (x : EvSrc) (k : Nat) : EvSrc :=
  let e := satAdd 255 x.edges.toNat k
  { x with edges := BitVec.ofNat 8 e, sat := x.sat || (k != 0 && e == 255) }

/-- The input takes a level; a selected edge is counted (R291). -/
def EvSrc.setLevel (x : EvSrc) (v : Bool) : EvSrc :=
  let y := { x with input := v }
  let rise := !x.input && v
  let fall := x.input && !v
  if (rise && (x.sense = 1 || x.sense = 3)) || (fall && (x.sense = 2 || x.sense = 3)) then y.count 1 else y

/-- A pulse: a rise and a fall. A level source misses it (log entry 8). -/
def EvSrc.pulse (x : EvSrc) : EvSrc := (x.setLevel true).setLevel false

/-- A queue event reaches a data source (R294). -/
def EvSrc.dataEvent (now : Nat) (x : EvSrc) : EvSrc :=
  let y := x.count 1
  if x.counted + 1 ≥ x.ccount.toNat + 1 then { y with dpend := true, counted := 0, coalDue := none }
  else { y with counted := x.counted + 1, coalDue := (match x.coalDue with | some d => some d | none => some (now + x.ctime.toNat * 500)) }

/-- A source after a change, with the count of becoming pending; the flag says that the steward quarantines it (R296). -/
def srcAfter (data : Bool) (x y : EvSrc) : EvSrc × Bool :=
  if !x.pending data && y.pending data then
    if y.qcnt + 1 ≥ 1024 then ({ y with en := false, quar := true }, true) else ({ y with qcnt := y.qcnt + 1 }, false)
  else (y, false)

/-- Sources 64 to 255 of a shelf are data sources (R290). -/
def isData (i : Nat) : Bool := decide (64 ≤ i)

/-- Source numbers that no table names: never pending (Tables 11.9, 11.10, 15.2). -/
def reservedShared (i : Nat) : Bool := decide (i < 16 ∨ (27 ≤ i ∧ i < 32) ∨ (52 ≤ i ∧ i < 64))
def reservedWarden (i : Nat) : Bool := decide (i = 4 ∨ (6 ≤ i ∧ i < 16) ∨ (26 ≤ i ∧ i < 32) ∨ (40 ≤ i ∧ i < 64) ∨ 128 ≤ i)

/-! ## The firing log -/

/-- Change a source of the warden; a quarantine is logged (R296, R361). -/
def State.wsrc (s : State) (i : Nat) (f : EvSrc → EvSrc) : State :=
  if reservedWarden i then s
  else
    let x := tget {} (s.core wardenKey).srcs i
    let r := srcAfter false x (f x)
    let s := s.modCore wardenKey (fun c => { c with srcs := tset {} c.srcs i r.1 })
    if r.2 then s.logLocal (s.logOf 3 0 1 22 (BitVec.ofNat 64 i)) else s

/-- Records not flushed. -/
def Warden.unflushed (w : Warden) : Nat := (w.log.filter (fun r => decide (w.flushed.toNat < r.seq.toNat))).length

/-- Sample the level of LOGFILL (Table 15.2). -/
def State.sampleLogFill (s : State) : State := s.wsrc 22 (fun x => x.setLevel (decide (16384 ≤ s.warden.unflushed)))

/-- Mirror a record where WD_LOGMIR is valid; a refused mirror write clears VALID and leaves a record (R368). -/
def State.mirrorRec (s : State) (r : LogRec) : State :=
  if getB s .wdLogmir 63 then
    let t := s.hostWrite .logMirror 7 none none (getF s .wdLogmir 51 20 * 2 ^ 20 + r.seq.toNat % 32768 * 32) r.bytes
    if t.2 = .refused then
      let s := setB t.1 .wdLogmir 63 false
      s.logLocal (s.logOf 3 0 1 0 0)
    else t.1
  else s

/-- Commit a record, and mirror it after those whose copy is due. -/
def State.log (s : State) (src unit sev code : Nat) (data : Word) : State :=
  let r := s.logOf src unit sev code data
  let s := s.logLocal r
  let due := s.warden.unmirrored ++ [r]
  (foldS due (fun s r => s.mirrorRec r) (s.modWarden (fun w => { w with unmirrored := [] }))).sampleLogFill

/-! ## Banks -/

/-- Shared source `i` of shelf `n`. -/
def State.src (s : State) (n i : Nat) : EvSrc := tget {} s.evsrcs (256 * n + i)
def State.setSrc (s : State) (n i : Nat) (x : EvSrc) : State := { s with evsrcs := tset {} s.evsrcs (256 * n + i) x }

/-- Pulse STUCK of a shelf; STUCK itself is quarantined without a further STUCK (R296). -/
def State.raiseStuck (s : State) (n : Nat) : State :=
  let x := s.src n 22
  s.setSrc n 22 (srcAfter false x x.pulse).1

/-- A quarantine of a source of shelf `n`: STUCK and a log record (R296, R367). -/
def State.quarantined (s : State) (n i : Nat) : State :=
  let s := if i = 22 then s else s.raiseStuck n
  s.log 1 n 1 22 (BitVec.ofNat 64 i)

/-- Change a shared source. -/
def State.shsrc (s : State) (n i : Nat) (f : EvSrc → EvSrc) : State :=
  if reservedShared i then s
  else
    let x := s.src n i
    let r := srcAfter (isData i) x (f x)
    let s := s.setSrc n i r.1
    if r.2 then s.quarantined n i else s

/-- Change a private source of a core; sources 6 to 15 are never pending (Table 11.9). -/
def State.psrc (s : State) (k i : Nat) (f : EvSrc → EvSrc) : State :=
  if k = wardenKey then s.wsrc i f
  else if 6 ≤ i then s
  else
    let x := tget {} (s.core k).srcs i
    let r := srcAfter false x (f x)
    let s := s.modCore k (fun c => { c with srcs := tset {} c.srcs i r.1 })
    if r.2 then s.quarantined (keyShelf k) i else s

/-- Pulse a management source of shelf `n` (Table 11.10). -/
def State.raise (s : State) (n i : Nat) : State := s.shsrc n i EvSrc.pulse

/-- STEWARD of shelf `n`, and SHELF of the warden (Tables 11.10, 15.2). -/
def State.raiseSteward (s : State) (n : Nat) : State := (s.raise n 16).wsrc (64 + n) EvSrc.pulse

/-- A completed safety reaction of the shelf steward: STEWARD and a log record with the steward's status register (R32, R367). -/
def State.reaction (s : State) (n sev : Nat) (status : Word) : State := (s.raiseSteward n).log 1 n sev 16 status

/-- A completed safety reaction of group steward `g` (Table 15.2, R367). -/
def State.groupReaction (s : State) (g sev : Nat) (status : Word) : State := (s.wsrc (32 + g) EvSrc.pulse).log 2 g sev (32 + g) status

/-- An uncorrectable word was read at an address of shelf memory (R305, Table 12.10). -/
def State.eccUnc (s : State) (a : Nat) : State :=
  if a < 0x8000000 then
    let n := a / 0x200000
    let s := bumpF s (.shEcc n) 47 32 1
    (setF s (.shEcc n) 20 0 (a % 0x200000 / 8 * 8)).raise n 18
  else s

end Sys2Proof.Machine
end

