-- ==== Sys2Proof/Machine/Queues.lean ====
section
/-! DEFINITION. On-device queues (R96 to R103) and the wakes that they and others give to contexts (R238, R239). -/

namespace Sys2Proof.Machine

/-! ## Queue configuration (Table 3.19) -/

def State.qEn (s : State) (n q : Nat) : Bool := getB s (.shQcfg n q) 63
def State.qDepth (s : State) (n q : Nat) : Nat := getF s (.shQcfg n q) 62 52
def State.qMax (s : State) (n q : Nat) : Nat := getF s (.shQcfg n q) 51 43
def State.qStage (s : State) (n q : Nat) : Nat := getF s (.shQcfg n q) 42 38
def State.qBase (s : State) (n q : Nat) : Nat := getF s (.shQcfg n q) 15 0

/-- A queue answers ABSENT: its shelf is in reset or retired (R102), or its EN is 0 (R103). -/
def State.qAbsent (s : State) (n q : Nat) : Bool := s.shelfGone n || !s.qEn n q

/-- Status codes of a queue operation (Table 7.10). -/
inductive QStatus where
  | ok | tooBig | busy | full | flushed | empty | noAuth | absent
  deriving DecidableEq, Repr

def QStatus.code : QStatus → Nat
  | .ok => 0 | .tooBig => 1 | .busy => 2 | .full => 3 | .flushed => 4 | .empty => 5 | .noAuth => 6 | .absent => 7

/-! ## Wakes -/

/-- Master number (Table 12.4) or number above it of the units that commit to queues. -/
def unitMove (m : Nat) : Nat := 31 + m
def unitLedger : Nat := 35
def unitRing : Nat := 64
def unitSched : Nat := 65

/-- The core key and store of a resident context: the first store that holds the defined context. -/
def State.findCtx (s : State) (c : BitVec 20) : Option (Nat × Nat) :=
  (s.ctxs.find? (fun e => e.2.st != .free && e.2.st != .parked && e.2.ctx == c)).map (fun e => (e.1 / 16, e.1 % 16))

/-- Wake sources in the bit order of PEND and WMASK (Tables 9.1, 9.10). -/
def wakeDB : BitVec 4 := 8
def wakeQ : BitVec 4 := 4
def wakeTMR : BitVec 4 := 2
def wakeSYNC : BitVec 4 := 1

/-- Code of a RETX wake (R238). -/
def retxCode : BitVec 16 := 0xFFFF

/-- A wake of a resident context: its pending bits and code; a SLEEPING context with an enabled source becomes READY (R238, R241). -/
def Ctx.wakeBits (x : Ctx) (src : BitVec 4) (code : BitVec 16) : Ctx :=
  let y := { x with
    pend := x.pend ||| src
    code := if src &&& wakeSYNC ≠ 0 then code else x.code
    posts := if src &&& wakeSYNC ≠ 0 then BitVec.ofNat 16 (satAdd 65535 x.posts.toNat 1) else x.posts }
  if x.st = .sleeping ∧ y.pend &&& x.wmask ≠ 0 then { y with st := .ready } else y

/-- As `Ctx.wakeBits`; a context that is LOADING holds the wake until it is READY (Table 9.5). -/
def Ctx.wake (x : Ctx) (src : BitVec 4) (code : BitVec 16) : Ctx :=
  if x.st = .loading then { x with lateWakes := x.lateWakes ++ [(src, code)] } else x.wakeBits src code

/-- A wake abandons a gating request of the shelf and sets SLPWON (R242); at a gated shelf it is held and wakes it (R25). -/
def State.wakeShelf (s : State) (n : Nat) : State :=
  let h := s.shelf n
  if h.phase = .gated then s.setShelf n { h with wakeArmed := true }
  else if h.idleAsked then setB (s.setShelf n { h with idleAsked := false, idleSince := s.now }) (.shSchstat n) 62 true
  else s

/-- Put a wake on the hold list of shelf `n`, merged by CTX; a full list sets WOVF (R239). -/
def State.holdWake (s : State) (n : Nat) (c : BitVec 20) (src : BitVec 4) (code : BitVec 16) : State :=
  let h := s.shelf n
  if h.holdList.any (fun w => w.ctx == c) then
    s.setShelf n { h with holdList := h.holdList.map (fun w => if w.ctx = c then
      { w with src := w.src ||| src, code := if src &&& wakeSYNC ≠ 0 then code else w.code } else w) }
  else if h.holdList.length < 64 then s.setShelf n { h with holdList := h.holdList ++ [⟨c, src, code⟩] }
  else (setB s (.shSchstat n) 63 true).raise n 25

/-- The wake-queue item of a held wake (R239). -/
def wakeItem (c : BitVec 20) (src : BitVec 4) (code : BitVec 16) : Word :=
  place 19 0 c.toNat ||| place 27 24 src.toNat ||| place 63 48 code.toNat

/-! ## Areas of a queue's buffer (R96) -/

/-- The areas in use: word offset and length. -/
def Queue.used (x : Queue) : List (Nat × Nat) :=
  x.items.map (fun i => (i.off, i.len)) ++ x.popped.map (fun e => (e.2.off, e.2.len)) ++ x.staged.map (fun t => (t.off, t.len))

/-- The least of a list of numbers. -/
def leastOf (l : List Nat) : Option Nat :=
  l.foldl (fun b c => match b with | none => some c | some y => some (min y c)) none

/-- Word offset in shelf memory of the first run of `len` free words of the buffer (log entry 9). -/
def State.qArea (s : State) (n q len : Nat) : Option Nat :=
  let u := (s.queue n q).used
  let base := s.qBase n q
  leastOf ((base :: u.map (fun a => a.1 + a.2)).filter (fun c => decide (base ≤ c)
    && decide (c + len ≤ base + (s.qDepth n q + s.qStage n q) * s.qMax n q) && u.all (fun a => decide (c + len ≤ a.1 ∨ a.1 + a.2 ≤ c))))

/-! ## Requesters (R97, R101) -/

/-- Unit number of glaze engine `e` of shelf `n`; all are above 4,095. -/
def unitGlaze (n e : Nat) : Nat := 4096 + 8 * n + e

/-- A glaze engine holds the slot. -/
def QOwner.isGlaze : QOwner → Bool
  | .unit u => decide (4096 ≤ u)
  | .ctx _ _ => false

/-- A context, not a hardware unit. -/
def QOwner.isCtx : QOwner → Bool
  | .ctx _ _ => true
  | .unit _ => false

/-- The shelf whose steward a unit that commits to a queue of shelf `n` reports to; the ring unit belongs to none. -/
def unitHome (n u : Nat) : Option Nat := if 4096 ≤ u then some ((u - 4096) / 8) else if u = unitRing then none else some n

/-- The order of the requesters of a queue of shelf `n`: cores by master number and resident store, those of other shelves through the flue
port, and after them the hardware units (R97, Table 12.4). -/
def reqNo (n : Nat) : QOwner → Nat
  | .ctx k r => if k / 16 = n then 16 * (k % 16) + r else 16 * 36 + k % 16
  | .unit u => 1024 + u

/-- The pointer moves past the requester served. -/
def Queue.served (x : Queue) (n : Nat) (o : QOwner) : Queue := { x with rr := reqNo n o + 1 }

/-- Staging slots held: by contexts with an item, and bound by hardware units. -/
def Queue.slots (x : Queue) : Nat := (x.staged.filter (fun t => t.owner.isCtx)).length + x.bound.length

/-- How far a waiting unit stands behind the round-robin pointer. -/
def Queue.turn (x : Queue) (n u : Nat) : Nat := (reqNo n (.unit u) + 65536 - x.rr % 65536) % 65536

/-- A slot is free for a unit that waits: those whose turn comes before its take theirs first. -/
def Queue.mayBind (x : Queue) (n stage u : Nat) : Bool :=
  decide (x.slots + (x.waiting.filter (fun w => w != u && decide (x.turn n w < x.turn n u))).length < stage)

/-- Count one queue event at every data source bound to it (R290). -/
def State.qEventSrcs (s : State) (n q kind : Nat) : State :=
  (List.range 192).foldl (fun s i =>
    let x := s.src n (64 + i)
    if x.queue.toNat = q ∧ x.kind.toNat = kind then s.shsrc n (64 + i) (EvSrc.dataEvent s.now) else s) s

/-- First staged item of an owner. -/
def Queue.stagedOf (x : Queue) (o : QOwner) : Option Staged := x.staged.find? (fun t => t.owner == o)

/-- Remove the first staged item of an owner. -/
def dropFirst {α : Type} (f : α → Bool) : List α → List α
  | [] => []
  | x :: t => if f x then t else x :: dropFirst f t

/-- RESERVE (Table 3.15): claims a staging slot and a buffer area; hardware units that wait for a slot come first (R101). A length of 0 is
TOOBIG (log entry 123). -/
def State.qReserve (s : State) (n q : Nat) (o : QOwner) (len : Nat) : State × QStatus :=
  let x := s.queue n q
  if s.qMax n q < len ∨ len = 0 then (s, .tooBig)
  else if s.qStage n q ≤ x.slots + x.waiting.length then (s, .busy)
  else match s.qArea n q len with
    | none => (s, .busy)
    | some a => (s.setQueue n q (Queue.served { x with staged := x.staged ++ [{ owner := o, off := a, len := len }] } n o), .ok)

/-- Byte address of word `i` of an area of shelf `n`. -/
def areaAddr (n off i : Nat) : Nat := shelfAddr n ((off + i) * 32)

/-- WRITE (Table 3.15): word `i` of the staged item; past its end or voided, the write is dropped. -/
def State.qWrite (s : State) (n q : Nat) (o : QOwner) (i : Nat) (b : List Byte) : State :=
  match (s.queue n q).stagedOf o with
  | some t => if i < t.len ∧ t.voided = false then s.store (areaAddr n t.off i) (padTo 32 b) else s
  | none => s

/-- A COMMIT before its events: the queue after it and the status (R97, R100, R196). A context's slot is free again, a hardware unit keeps
its bound slot. -/
def qCommitStep (depth : Nat) (x : Queue) (o : QOwner) (ct : Bool) : Queue × QStatus :=
  let gone := { x with staged := dropFirst (fun u => u.owner == o) x.staged, denied := x.denied.filter (· != o) }
  if x.denied.contains o then (gone, .noAuth)
  else match x.stagedOf o with
    | none => (x, .flushed)
    | some t =>
      if t.noauth then (gone, .noAuth)
      else if t.voided then (gone, .flushed)
      else if depth ≤ x.items.length then (x, .full)
      else ({ gone with items := x.items ++ [{ off := t.off, len := t.len, ct := ct, byGlaze := o.isGlaze }] }, .ok)

/-- The COMMIT that has landed came in the same ic as a POP that took an item: no event of R98 (Table 3.16). -/
def State.withPop (s : State) (n q : Nat) : Bool := (s.queue n q).popAt == some s.now

/-- Queue events of a COMMIT that landed: the data sources of NOTEMPTY, COMMIT and FULL (R98, R99, R290). -/
def State.commitSrcs (s : State) (n q : Nat) : State :=
  let c := (s.queue n q).items.length
  let quiet := s.withPop n q
  let s := if c = 1 ∧ quiet = false then s.qEventSrcs n q 0 else s
  let s := s.qEventSrcs n q 1
  if c = s.qDepth n q ∧ quiet = false then s.qEventSrcs n q 2 else s

/-- Stage an item of a hardware unit in the slot that it binds; the flag tells that this item lies there. A unit that still holds another
item takes no further one (R101). -/
def State.unitStage (s : State) (n q u : Nat) (b : List Byte) : State × Bool :=
  let x := s.queue n q
  let len := ceilDiv b.length 32
  match x.stagedOf (.unit u) with
  | some t => (s, t.len == len && s.bytes (areaAddr n t.off 0) (32 * len) == padTo (32 * len) b)
  | none =>
    if !x.bound.contains u && !x.mayBind n (s.qStage n q) u then
      (s.setQueue n q { x with waiting := if x.waiting.contains u then x.waiting else x.waiting ++ [u] }, false)
    else
      let y := { x with bound := if x.bound.contains u then x.bound else x.bound ++ [u], waiting := x.waiting.filter (· ≠ u) }
      match s.qArea n q len with
      | none => (s.setQueue n q y, false)
      | some a => ((s.setQueue n q { y with staged := y.staged ++ [{ owner := .unit u, off := a, len := len }] }).store
          (areaAddr n a 0) (padTo (32 * len) b), true)

/-- Outcome of a hardware unit's commit: landed, discarded (absent queue, or voided by a flush), or waiting (R101, R102). -/
inductive UnitRes where
  | landed | discarded | waits
  deriving DecidableEq, Repr

/-- A hardware unit's commit is discarded, and the unit reports it to its own shelf's steward (R102). -/
def State.unitAbsent (s : State) (n u : Nat) : State :=
  match unitHome n u with
  | some m => s.absentSeen m
  | none => s

/-- A hardware unit's commit without the wakes that NOTEMPTY gives. At a gated shelf it is held and wakes the shelf (R25); an item longer than
ITEMMAX is discarded as at an absent queue (log entry 123). -/
def State.unitCommitRaw (s : State) (n q u : Nat) (b : List Byte) (ct : Bool) : State × UnitRes :=
  if s.qAbsent n q ∨ s.qMax n q < ceilDiv b.length 32 then (s.unitAbsent n u, .discarded)
  else if (s.shelf n).phase = .gated then (s.wakeShelf n, .waits)
  else
    let t := s.unitStage n q u b
    if t.2 then
      let r := qCommitStep (s.qDepth n q) (t.1.queue n q) (.unit u) ct
      match r.2 with
      | .ok => ((t.1.setQueue n q (r.1.served n (.unit u))).commitSrcs n q, .landed)
      | .full => (t.1, .waits)
      | _ => (t.1.setQueue n q r.1, .discarded)
    else (t.1, .waits)

/-- The context that SH_QOWNq names, for KIND 0 (Q) or 1 (DB). -/
def State.qOwner (s : State) (n q kind : Nat) : Option (BitVec 20) :=
  if getB s (.shQown n q) 63 ∧ getF s (.shQown n q) 62 62 = kind then some (BitVec.ofNat 20 (getF s (.shQown n q) 19 0)) else none

/-- Wake a defined context on behalf of shelf `n`: in its store, or through the wake queue and the hold list (R238, R239). The number
bounds the wakes that the wake queue's own NOTEMPTY gives; at 0 the wake goes to the hold list (log entry 10). -/
def State.wakeN : Nat → State → Nat → BitVec 20 → BitVec 4 → BitVec 16 → State
  | k, s, n, c, src, code =>
    match s.findCtx c with
    | some (ck, r) =>
      let s := s.modCtx ck r (fun x => x.wake src code)
      if ck = wardenKey then s else s.wakeShelf (keyShelf ck)
    | none =>
      match k with
      | 0 => s.holdWake n c src code
      | k + 1 =>
        let q := getF s (.shSchcfg n) 57 48
        if getB s (.shSchcfg n) 63 && decide ((s.shelf n).holdList = []) && decide ((s.queue n q).items.length < s.qDepth n q) then
          let r := s.unitCommitRaw n q unitSched (wordBytes (wakeItem c src code)) false
          match r.2 with
          | .landed =>
            if (r.1.queue n q).items.length = 1 ∧ r.1.withPop n q = false then
              match r.1.qOwner n q 0 with
              | some o => State.wakeN k r.1 n o wakeQ 0
              | none => r.1
            else r.1
          | _ => r.1.holdWake n c src code
        else s.holdWake n c src code

/-- Wake a defined context. -/
def State.wake (s : State) (n : Nat) (c : BitVec 20) (src : BitVec 4) (code : BitVec 16) : State := State.wakeN 2 s n c src code

/-- Raise a RETX event on a context (R61, R62, R64, R238). -/
def State.retx (s : State) (n : Nat) (c : BitVec 20) : State := s.wake n c wakeSYNC retxCode

/-- The wake of NOTEMPTY (Table 9.4); a COMMIT in the same ic as a POP gives none (Table 3.16). -/
def State.notEmptyWake (s : State) (n q : Nat) : State :=
  if s.withPop n q then s.modQueue n q (fun x => { x with popAt := none })
  else if (s.queue n q).items.length = 1 then
    match s.qOwner n q 0 with
    | some c => s.wake n c wakeQ 0
    | none => s
  else s

/-- COMMIT by a context (Table 3.15). -/
def State.qCommit (s : State) (n q : Nat) (o : QOwner) (ct : Bool) : State × QStatus :=
  let r := qCommitStep (s.qDepth n q) (s.queue n q) o ct
  let t := s.setQueue n q (r.1.served n o)
  if r.2 = .ok then ((t.commitSrcs n q).notEmptyWake n q, .ok) else (t, r.2)

/-- A hardware unit's commit (R101, R102). -/
def State.unitCommit (s : State) (n q u : Nat) (b : List Byte) (ct : Bool) : State × UnitRes :=
  let r := s.unitCommitRaw n q u b ct
  if r.2 = .landed then (r.1.notEmptyWake n q, .landed) else r

/-- POP (Table 3.15), with NOTFULL (R98). With a COMMIT in the same ic, which is the next operation on the queue, no event is raised (R99). -/
def State.qPop (s : State) (n q : Nat) (o : QOwner) (same : Bool := false) : State × Option QItem :=
  let x := s.queue n q
  match x.items with
  | [] => (s, none)
  | i :: t =>
    let y := Queue.served { x with items := t, popped := x.popped ++ [(o, i)] } n o
    if same then (s.setQueue n q { y with popAt := some s.now }, some i)
    else
      let s' := s.setQueue n q y
      (if x.items.length = s.qDepth n q then s'.qEventSrcs n q 3 else s', some i)

/-- RELEASE (Table 3.15): frees the oldest item that the requester popped. -/
def State.qRelease (s : State) (n q : Nat) (o : QOwner) : State × QStatus :=
  let x := s.queue n q
  if x.popped.any (fun e => e.1 == o) then
    (s.setQueue n q (Queue.served { x with popped := dropFirst (fun (e : QOwner × QItem) => e.1 == o) x.popped } n o), .ok)
  else (s, .empty)

/-- FLUSH (R100): every committed item is discarded, every staged item voided, EPOCH counts. -/
def Queue.flush (x : Queue) : Queue :=
  { x with items := [], staged := x.staged.map (fun t => { t with voided := true }), epoch := x.epoch + 1 }

/-- A flush of a queue; a second one of the same ic is part of the first (Table 3.17). -/
def State.qFlush (s : State) (n q : Nat) (merged : Bool := false) : State :=
  if merged && (s.queue n q).flushAt == some s.now then s else s.modQueue n q (fun x => { x.flush with flushAt := some s.now })

/-- EN is cleared: every item goes as with a flush, and the slots bound to it are free (R103). -/
def Queue.close (x : Queue) : Queue := { x.flush with bound := [], waiting := [], rr := 0 }

/-- The items of a queue as bytes. -/
def State.itemBytes (s : State) (n : Nat) (i : QItem) : List Byte := s.bytes (areaAddr n i.off 0) (32 * i.len)

/-- The poison mark of an item: the offset of its first uncorrectable word (Table 12.3). -/
def State.itemBad (s : State) (n : Nat) (i : QItem) : Option Nat :=
  (s.badAt (areaAddr n i.off 0) (32 * i.len)).map (fun a => a - areaAddr n i.off 0)

/-- A unit reads an item: an uncorrectable word of it is counted (R305). -/
def State.itemRead (s : State) (n : Nat) (i : QItem) : State :=
  match s.itemBad n i with
  | some o => s.eccUnc (areaAddr n i.off 0 + o)
  | none => s

/-- The newest item of a queue carries a poison mark. -/
def State.spoilNewest (s : State) (n q : Nat) : State :=
  match (s.queue n q).items.getLast? with
  | some i => s.spoil (areaAddr n i.off 0) (32 * i.len)
  | none => s

/-- After a core loss the steward frees the staging slots that the core's contexts held; EPOCH does not change (R102). -/
def Queue.voidCore (x : Queue) (k : Nat) : Queue :=
  { x with staged := x.staged.filter (fun t => match t.owner with | .ctx c _ => decide (c ≠ k) | _ => true) }

/-- Apply to every queue. -/
def State.mapQueues (s : State) (f : Nat → Queue → Queue) : State :=
  s.queues.foldl (fun s e => { s with queues := tset {} s.queues e.1 (f e.1 e.2) }) s

end Sys2Proof.Machine
end

