-- ==== Sys2Proof/Machine/Packets.lean ====
section
/-! DEFINITION. Command packets: header fields, checks, byte form (R71 to R80), routes (R118) and the token buckets' arithmetic (R121). -/

namespace Sys2Proof.Machine

/-! ## Header fields (Table 3.1) -/

def Packet.hops (p : Packet) : Nat := fld p.w0 63 56
def Packet.src (p : Packet) : Nat := fld p.w0 55 36
def Packet.dst (p : Packet) : Nat := fld p.w0 35 16
def Packet.isGlobal (p : Packet) : Bool := bitAt p.w0 13
def Packet.retx (p : Packet) : Bool := bitAt p.w0 12
def Packet.ackreq (p : Packet) : Bool := bitAt p.w0 11
def Packet.last (p : Packet) : Bool := bitAt p.w0 10
def Packet.cmp (p : Packet) : Bool := bitAt p.w0 9
def Packet.enc (p : Packet) : Bool := bitAt p.w0 8
def Packet.cmd (p : Packet) : Nat := fld p.w0 7 0
def Packet.seq (p : Packet) : Nat := fld p.w1 63 16
def Packet.stream (p : Packet) : Nat := fld p.w1 15 0
def Packet.grant (p : Packet) : Nat := fld p.w2 63 32
def Packet.keySlot (p : Packet) : Nat := fld p.w2 31 16
def Packet.len (p : Packet) : Nat := fld p.w2 13 0
def Packet.hchk (p : Packet) : Nat := fld p.w3 63 48
def Packet.txn (p : Packet) : Nat := fld p.w3 47 0

/-- Device and endpoint of a partner id (R73). -/
def pidDev (x : Nat) : Nat := x / 256
def pidEp (x : Nat) : Nat := x % 256

/-- The partner id of link management packets routed by path (R80, R127). -/
def pathPid : Nat := 0xFFF00

/-- HCHK over W0 to W2 (R74). -/
def hchkOf (w0 w1 w2 : Word) : Nat := (crc16 (fromWords [w0, w1, w2])).toNat

/-- The packet with HCHK recomputed. -/
def Packet.fixHchk (p : Packet) : Packet := { p with w3 := setFld p.w3 63 48 (hchkOf p.w0 p.w1 p.w2) }

/-- PCRC over the header and a plaintext payload (R75): HOPS, RETX, HCHK and CMP taken as zero, LEN as the plaintext length. -/
def pcrcOf (p : Packet) (plain : List Byte) : Word :=
  crc64 (fromWords [setFld (setFld (setFld p.w0 63 56 0) 12 12 0) 9 9 0, p.w1, setFld p.w2 13 0 plain.length, setFld p.w3 63 48 0] ++ plain)

/-- The bytes of a packet (R71). -/
def Packet.bytes (p : Packet) : List Byte :=
  fromWords [p.w0, p.w1, p.w2, p.w3] ++ p.payload ++ wordBytes p.pcrc ++ leBytes 16 p.tag.toNat

/-- Length of a packet (R71). -/
def Packet.size (p : Packet) : Nat := 56 + p.len

/-- A packet from its bytes. -/
def packetOf (l : List Byte) : Packet :=
  let w2 := wordIn l 16
  let n := fld w2 13 0
  { w0 := wordIn l 0, w1 := wordIn l 8, w2 := w2, w3 := wordIn l 24, payload := slice l 32 n, pcrc := wordIn l (32 + n),
    tag := BitVec.ofNat 128 (natIn l (40 + n) 16) }

/-! ## Command codes (Table 3.3) -/

/-- Command class. -/
inductive CmdClass where
  | ledger | stream | reply | global | management
  deriving DecidableEq, Repr

def cmdClass (c : Nat) : Option CmdClass :=
  if c = 0x01 ∨ c = 0x02 ∨ (0x80 ≤ c ∧ c ≤ 0xBF) then some .ledger
  else if 0x10 ≤ c ∧ c ≤ 0x12 then some .stream
  else if 0x18 ≤ c ∧ c ≤ 0x1B then some .reply
  else if 0x20 ≤ c ∧ c ≤ 0x27 then some .global
  else if 0x30 ≤ c ∧ c ≤ 0x3F then some .management
  else none

/-- Virtual channel of a class: 0 command, 1 response, 2 global, 3 management (R108). -/
def CmdClass.vc : CmdClass → Nat
  | .ledger => 0 | .stream => 0 | .reply => 1 | .global => 2 | .management => 3

/-- Virtual channel of a command code. -/
def vcOf (c : Nat) : Nat := match cmdClass c with | some k => k.vc | none => 0

/-- Greatest LEN of a class. -/
def CmdClass.maxLen : CmdClass → Nat
  | .ledger => 8192 | .global => 8192 | .management => 256 | _ => 0

/-- A management packet that is routed by its path (R80, R127). -/
def Packet.byPath (p : Packet) : Bool := p.src == pathPid && p.dst == pathPid && cmdClass p.cmd == some .management

/-- Check 2 of Table 3.4. -/
def formatOk (p : Packet) : Bool :=
  fld p.w0 15 14 == 0 && fld p.w2 15 14 == 0 && decide (p.len ≤ 8192)
    && (match cmdClass p.cmd with | some k => decide (p.len ≤ k.maxLen) | none => false)
    && p.ackreq == p.last && p.isGlobal == decide (0x20 ≤ p.cmd ∧ p.cmd ≤ 0x27) && (p.enc || p.tag == 0)

/-! ## Routes (R118) -/

/-- A link carries traffic of a channel: ACTIVE; for command and response also both ends identified and not isolated (R117). -/
def State.linkOpen (s : State) (l vc : Nat) : Bool :=
  let k := s.link l
  k.st == .active && (decide (2 ≤ vc) || (s.sys.idv && k.farIdv && !k.isol))

/-- The link and hop count of the route to a device: the primary while it is ACTIVE, else the alternate (R118). -/
def State.route (s : State) (d : Nat) : Option (Nat × Nat) :=
  let w := rdReg s (.glRt d)
  if bitAt w 63 && (s.link (fld w 61 54)).st == .active then some (fld w 61 54, fld w 45 38)
  else if bitAt w 62 && (s.link (fld w 53 46)).st == .active then some (fld w 53 46, fld w 37 30)
  else none

/-- A device is reachable: one of its links is ACTIVE (R118), or it is an ACTIVE link's far end (Table 4.8). -/
def State.reachable (s : State) (d : Nat) : Bool := (s.route d).isSome

/-- A hardware-built packet without payload (R78): HOPS of the route, SRC this device's endpoint. -/
def hwPacket (devId ep dst cmd stream seq txn hops : Nat) : Packet :=
  let p : Packet := { w0 := place 63 56 hops ||| place 55 36 (devId * 256 + ep) ||| place 35 16 dst ||| place 7 0 cmd
                      w1 := place 63 16 seq ||| place 15 0 stream, w2 := 0, w3 := place 47 0 txn, payload := [], pcrc := 0, tag := 0 }
  let q := p.fixHchk
  { q with pcrc := pcrcOf q [] }

/-- Hand a hardware-built packet for partner `dst` to the link of its route; with no route it is lost, as on a link that goes down. -/
def State.sendHw (s : State) (ep dst cmd stream seq txn : Nat) : State :=
  match s.route (pidDev dst) with
  | some (l, h) => s.modLink l (fun k => { k with respq := k.respq ++ [hwPacket s.sys.devId.toNat ep dst cmd stream seq txn h] })
  | none => s

/-! ## Counters of arrival and of a link port -/

def State.hchkErr (s : State) (n : Nat) : State := bumpF s (.shPktcnt n) 63 48 1
def State.fmtErr (s : State) (n : Nat) : State := bumpF s (.shPktcnt n) 47 32 1
def State.hopErr (s : State) (n : Nat) : State := bumpF s (.shPktcnt n) 31 16 1
/-- PAYERR and its event source (Tables 3.22, 11.10). -/
def State.payErr (s : State) (n : Nat) : State := (bumpF s (.shPktcnt n) 15 0 1).raise n 49
/-- DROP of LK_CNT (Table 4.25). -/
def State.dropCnt (s : State) (l : Nat) : State := bumpF s (.lkCnt l) 15 0 1
/-- DUPS of SH_LEDCNT (Table 2.18). -/
def State.dups (s : State) (n : Nat) : State := bumpF s (.shLedcnt n) 31 0 1
/-- BADTX of SH_LEDCNT and its event source (Tables 2.18, 11.10). -/
def State.badTx (s : State) (n : Nat) : State := (bumpF s (.shLedcnt n) 63 48 1).raise n 51

/-! ## Token buckets, in sixteenths of a byte: 0.5 Gbit/s is one unit in a ns (R121) -/

/-- Contents after refilling since `at_`. -/
def refill (rate burstKiB level at_ now : Nat) : Nat := min (burstKiB * 16384) (level + rate * (now - at_))

/-- Links that a shelf serves: home links first, then rehomed links in the order in which they reached it (R139). -/
def State.servedOrder (s : State) (n : Nat) : List Nat :=
  ((List.range 4).map (4 * n + ·)).filter (fun l => !s.onAlt l) ++ (s.shelf n).rehomed

/-- The share class: the links after the first four where the shelf serves six or more (R139). -/
def State.shareClass (s : State) (n : Nat) : List Nat := if 6 ≤ (s.servedOrder n).length then (s.servedOrder n).drop 4 else []

/-- Cap of a share link, 100 / S Gbit/s in units of 0.5 Gbit/s (R139). -/
def State.shareCap (s : State) (l : Nat) : Option Nat :=
  let c := s.shareClass (s.servingShelf l)
  if c.contains l then some (200 / c.length) else none

/-- RATE in force on a link: the lower of the written value, the flit payload rate of its signalling rate and the cap of a share link;
1 Gbit/s in a storm (R121, R122, R139). -/
def State.linkRate (s : State) (l : Nat) : Nat :=
  let k := s.link l
  let r := min (min (getF s (.lkDamp l) 63 56) (if k.rate = 1 then 194 else 206)) ((s.shareCap l).getD 255)
  if k.stormUntil.isSome then min r 2 else r

/-- Bring the bucket of a link up to date at the rate that has held until now: a change of rate counts from here on (R121). -/
def State.settleLink (s : State) (l : Nat) : State :=
  s.modLink l (fun k => { k with bucket := refill (s.linkRate l) (getF s (.lkDamp l) 55 48) k.bucket k.bucketAt s.now, bucketAt := s.now })

/-- The same for every link that a shelf serves: their shares change with its links (R139). -/
def State.settleServed (s : State) (n : Nat) : State := foldS (s.servedOrder n) State.settleLink s

end Sys2Proof.Machine
end

