-- ==== Sys2Proof/Machine/LedgerBase.lean ====
section
/-! DEFINITION. Ledger entries and regions: layout (Tables 2.1, 2.2), allocation (R50), streams, adopted regions (R66). -/

namespace Sys2Proof.Machine

/-! ## Layout -/

/-- STATE encoding (Table 2.3). -/
def LedSt.code : LedSt → Nat
  | .retired => 0 | .opened => 1 | .issued => 2 | .dataDone => 3 | .acked => 4 | .complete => 5

/-- The state of an encoding; 6 and 7 are reserved. -/
def ledStOf (x : Nat) : Option LedSt :=
  match x with
  | 0 => some .retired | 1 => some .opened | 2 => some .issued | 3 => some .dataDone | 4 => some .acked | 5 => some .complete | _ => none

/-- ROLE encoding (Table 2.1). -/
def Role.code : Role → Nat
  | .origin => 0 | .target => 1 | .stream => 2

/-- A transaction id (Table 2.2). -/
def txnOf (shelf idx gen : Nat) : Nat := shelf * 2 ^ 42 + idx * 2 ^ 30 + gen
def txnShelf (t : Nat) : Nat := t / 2 ^ 42 % 64
def txnIdx (t : Nat) : Nat := t / 2 ^ 30 % 4096
def txnGen (t : Nat) : Nat := t % 2 ^ 30

/-- Words 0x00 to 0x30 of an entry that lies at index `i` of region `r`, and word 0x38 with ECHK zero (Table 2.1). -/
def Entry.words0 (e : Entry) (r i : Nat) : List Word :=
  [place 63 56 e.eflags.toNat ||| bitIf 53 e.prep ||| place 52 51 e.role.code ||| place 50 48 e.st.code ||| place 47 0 (txnOf r i e.gen.toNat),
   place 63 60 e.ownw.toNat ||| place 59 52 e.localEp.toNat ||| place 51 36 e.keySlot.toNat ||| place 35 20 e.stream.toNat
     ||| place 19 0 e.partner.toNat,
   place 63 48 e.npkt.toNat ||| place 47 0 e.seqFirst.toNat,
   place 55 48 e.retries.toNat ||| place 47 0 e.ackSeq.toNat,
   place 63 32 e.grant.toNat ||| place 31 0 e.bytes.toNat,
   place 63 32 e.cidx.toNat ||| place 31 16 e.cring.toNat ||| place 15 0 e.sring.toNat,
   e.word30,
   place 31 24 e.reason.toNat ||| place 19 0 e.ctx.toNat]

/-- ECHK: CRC-16 over bytes 0x00 to 0x3D with PREP and RETRIES taken as 0 (Table 2.1). -/
def Entry.echk (e : Entry) (r i : Nat) : Nat :=
  (crc16 ((fromWords (({ e with prep := false, retries := 0 } : Entry).words0 r i)).take 62)).toNat

/-- The eight words of an entry. -/
def Entry.words (e : Entry) (r i : Nat) : List Word :=
  let w := e.words0 r i
  w.take 7 ++ [setFld (w.getD 7 0) 63 48 (e.echk r i)]

/-- The 64 bytes of an entry. -/
def Entry.image (e : Entry) (r i : Nat) : List Byte := fromWords (e.words r i)

/-- An entry from its words. A reserved STATE or ROLE reads as RETIRED and ORIGIN. -/
def entryOf (w : List Word) : Entry :=
  let g := fun k => w.getD k 0
  { role := (if fld (g 0) 52 51 = 1 then .target else if fld (g 0) 52 51 = 2 then .stream else .origin)
    st := (ledStOf (fld (g 0) 50 48)).getD .retired, prep := bitAt (g 0) 53, eflags := BitVec.ofNat 8 (fld (g 0) 63 56)
    gen := BitVec.ofNat 30 (fld (g 0) 29 0), ownw := BitVec.ofNat 4 (fld (g 1) 63 60), localEp := BitVec.ofNat 8 (fld (g 1) 59 52)
    keySlot := BitVec.ofNat 16 (fld (g 1) 51 36), stream := BitVec.ofNat 16 (fld (g 1) 35 20), partner := BitVec.ofNat 20 (fld (g 1) 19 0)
    npkt := BitVec.ofNat 16 (fld (g 2) 63 48), seqFirst := BitVec.ofNat 48 (fld (g 2) 47 0), retries := BitVec.ofNat 8 (fld (g 3) 55 48)
    ackSeq := BitVec.ofNat 48 (fld (g 3) 47 0), grant := BitVec.ofNat 32 (fld (g 4) 63 32), bytes := BitVec.ofNat 32 (fld (g 4) 31 0)
    cidx := BitVec.ofNat 32 (fld (g 5) 63 32), cring := BitVec.ofNat 16 (fld (g 5) 31 16), sring := BitVec.ofNat 16 (fld (g 5) 15 0)
    word30 := g 6, reason := BitVec.ofNat 8 (fld (g 7) 31 24), ctx := BitVec.ofNat 20 (fld (g 7) 19 0) }

/-! ## Regions -/

/-- Region `r` is adopted by its buddy (R66). -/
def State.adopted (s : State) (r : Nat) : Bool := (s.shelf (buddy r)).adopt == some r

/-- The shelf whose ledger unit holds region `r`. -/
def State.ledUnit (s : State) (r : Nat) : Nat := if s.adopted r then buddy r else r

/-- Regions that the ledger unit of shelf `u` holds: its own, unless the buddy still holds it (log entry 124), and the one it has adopted. -/
def State.ledRegions (s : State) (u : Nat) : List Nat :=
  (if s.adopted u then [] else [u]) ++ (match (s.shelf u).adopt with | some r => [r] | none => [])

/-- The local copy of a region. -/
def State.region (s : State) (r : Nat) : Tbl Entry := if s.adopted r then (s.shelf (buddy r)).mirror else (s.shelf r).entries

/-- The local copy of an entry. -/
def State.ent (s : State) (r i : Nat) : Entry := tget {} (s.region r) i

def State.setEnt (s : State) (r i : Nat) (e : Entry) : State :=
  if s.adopted r then s.modShelf (buddy r) (fun h => { h with mirror := tset {} h.mirror i e })
  else s.modShelf r (fun h => { h with entries := tset {} h.entries i e })

/-- What the unit keeps beside an entry. -/
def State.vol (s : State) (r i : Nat) : EntryVol :=
  if s.adopted r then tget {} (s.shelf (buddy r)).avol i else tget {} (s.shelf r).vol i

def State.setVol (s : State) (r i : Nat) (v : EntryVol) : State :=
  if s.adopted r then s.modShelf (buddy r) (fun h => { h with avol := tset {} h.avol i v })
  else s.modShelf r (fun h => { h with vol := tset {} h.vol i v })

def State.modVol (s : State) (r i : Nat) (f : EntryVol → EntryVol) : State := s.setVol r i (f (s.vol r i))

/-- What the unit keeps beside a stream record. -/
def State.svol (s : State) (r i : Nat) : StreamVol :=
  if s.adopted r then tget {} (s.shelf (buddy r)).astreams i else tget {} (s.shelf r).streams i

def State.setSvol (s : State) (r i : Nat) (v : StreamVol) : State :=
  if s.adopted r then s.modShelf (buddy r) (fun h => { h with astreams := tset {} h.astreams i v })
  else s.modShelf r (fun h => { h with streams := tset {} h.streams i v })

def State.modSvol (s : State) (r i : Nat) (f : StreamVol → StreamVol) : State := s.setSvol r i (f (s.svol r i))

/-! ## Commits in flight -/

/-- Images in flight for an entry of region `r`, oldest first. -/
def State.flights (s : State) (r i : Nat) : List Entry :=
  ((s.shelf (s.ledUnit r)).commits.flatMap (·.images)).filterMap (fun m => if m.region = r ∧ m.idx = i then some m.entry else none)

/-- A commit of the entry is in flight. -/
def State.entBusy (s : State) (r i : Nat) : Bool := !(s.flights r i).isEmpty

/-- The region as it stands once every commit in flight has landed. -/
def State.ledView (s : State) (r : Nat) : Tbl Entry :=
  ((s.shelf (s.ledUnit r)).commits.flatMap (·.images)).foldl (fun t m => if m.region = r then tset {} t m.idx m.entry else t) (s.region r)

/-- The region with every entry that is in use before or after some commit in flight: an entry whose RETIRED commit has not landed is not
yet free (R50). -/
def State.ledHeld (s : State) (r : Nat) : Tbl Entry :=
  ((s.shelf (s.ledUnit r)).commits.flatMap (·.images)).foldl (fun t m =>
    if m.region = r ∧ m.entry.st ≠ .retired then tset {} t m.idx m.entry else t) (s.region r)

/-- A region as a mirror holds it: RETRIES is carried as 0 (Table 2.1). -/
def mirrorCopy (t : Tbl Entry) : Tbl Entry := t.foldl (fun m e => tset {} m e.1 { e.2 with retries := 0 }) []

/-- The entry as it stands once every commit in flight has landed. -/
def State.entNext (s : State) (r i : Nat) : Entry := tget {} (s.ledView r) i

/-! ## Allocation (R50) -/

/-- Entries of a table that are in use with a role for which `f` holds. -/
def countRole (t : Tbl Entry) (f : Role → Bool) : Nat := (t.filter (fun e => e.2.st != .retired && f e.2.role)).length

/-- STREAMMAX of a shelf (Table 2.15). -/
def State.streamMax (s : State) (n : Nat) : Nat := getF s (.shLedcfg n) 26 16

/-- The lowest-numbered entry of the region of shelf `n` that is free for a role (R50). -/
def State.freeEntry (s : State) (n : Nat) (role : Role) : Option Nat :=
  let t := s.ledHeld n
  let room := if role = .stream then decide (countRole t (· == .stream) < s.streamMax n)
    else decide (countRole t (· != .stream) < 4096 - s.streamMax n)
  if room && !s.adopted n then (List.range 4096).find? (fun i => (tget {} t i).st == .retired) else none

/-- Entries not RETIRED (INUSE of SH_LEDCNT). -/
def State.inUse (s : State) (n : Nat) : Nat := countRole (s.shelf n).entries (fun _ => true)

/-! ## Streams (R44) -/

/-- An entry belongs to the stream named by remote partner, local endpoint and stream number. -/
def Entry.ofStream (e : Entry) (pid ep stream : Nat) : Bool :=
  e.partner.toNat == pid && e.localEp.toNat == ep && e.stream.toNat == stream

/-- A record of the given end of a stream is OPEN in a table of region `r`. -/
def State.openIn (s : State) (t : Tbl Entry) (r : Nat) (org : Bool) (pid ep stream : Nat) : Option (Nat × Entry) :=
  t.find? (fun e => e.2.role == .stream && e.2.st == .opened && e.2.ofStream pid ep stream && (s.svol r e.1).origin == org)

/-- The OPEN record that the unit of shelf `u` holds for an end of a stream, the origin's or the target's: region and index (R44). A record
whose opening has not committed is not OPEN (R42). -/
def State.findStream (s : State) (u : Nat) (org : Bool) (pid ep stream : Nat) : Option (Nat × Nat) :=
  (s.ledRegions u).findSome? (fun r => (s.openIn (s.region r) r org pid ep stream).map (fun e => (r, e.1)))

/-- A commit in flight opens or retires the record of the target's end of a stream. -/
def State.recordBusy (s : State) (u pid ep stream : Nat) : Bool :=
  (s.ledRegions u).any (fun r => (s.openIn (s.region r) r false pid ep stream).isSome != (s.openIn (s.ledView r) r false pid ep stream).isSome)

/-- The entries of the stream of a record, in every region of its unit: region, index, entry. Those of the origin's end are ORIGIN
entries, those of the target's end TARGET entries. -/
def State.streamEntries (s : State) (u : Nat) (org : Bool) (rec : Entry) : List (Nat × Nat × Entry) :=
  (s.ledRegions u).flatMap (fun r => ((s.ledView r).filter (fun e => e.2.role == (if org then .origin else .target) && e.2.st != .retired
    && e.2.ofStream rec.partner.toNat rec.localEp.toNat rec.stream.toNat)).map (fun e => (r, e.1, e.2)))

/-- States in which an entry keeps its stream from closing (Table 2.4). -/
def LedSt.holdsStream : LedSt → Bool
  | .opened | .issued | .dataDone => true
  | _ => false

/-- The TARGET entry of the unit that holds an origin's TXN. -/
def State.findOtxn (s : State) (u : Nat) (rec : Entry) (otxn : Nat) : Option (Nat × Nat × Entry) :=
  (s.streamEntries u false rec).find? (fun e => fld e.2.2.word30 47 0 == otxn)

/-- Unit of the shelf that GL_EPe names for an endpoint, after the redirection of R66 (R120). -/
def State.epUnit (s : State) (e : Nat) : Nat := s.ledUnit (getF s (.glEp e) 62 57)

/-- A partner is named by an open stream record of the shelf: its cache entry is pinned (R124). -/
def State.pinned (s : State) (u pid : Nat) : Bool :=
  (s.ledRegions u).any (fun r => (s.region r).any (fun e => e.2.role == .stream && e.2.st == .opened && e.2.partner.toNat == pid))

/-! ## Results of tagged operations -/

/-- First and second part of a result: an instruction that pushes two slots has two tags (R193). -/
def TagRes.fst : TagRes → TagRes
  | .pair v _ => .value v 0
  | r => r

def TagRes.snd : TagRes → TagRes
  | .pair _ w => .value w 0
  | .value _ _ => .value 0 0
  | r => r

/-- Record a result at a tag, and its second part at the tag's mate. -/
def putResult (t : TagRef) (r : TagRes) (tags : List (Nat × TagRec)) : List (Nat × TagRec) :=
  let mate := match alook t.tag tags with
    | some x => if x.gen = t.gen then x.mate else none
    | none => none
  tags.map (fun e =>
    if e.1 = t.tag ∧ e.2.gen = t.gen then (e.1, { e.2 with res := some r.fst })
    else if some e.1 = mate then (e.1, { e.2 with res := some r.snd })
    else e)

/-- The result of a tag exists; its delivery is TAG_RETURN (R168). A tag that is gone takes nothing. -/
def State.tagDone (s : State) (t : TagRef) (r : TagRes) : State := s.modCtx t.core t.store (fun x => { x with tags := putResult t r x.tags })

/-! ## Queue operations of contexts (R25, R97) -/

/-- A status word (Table 7.10). -/
def queueWord (top len : Nat) (st : QStatus) : Word := place 63 48 top ||| place 40 32 len ||| place 7 0 st.code

/-- EPOCH of a queue; a qid that names none reads 0. -/
def State.qEpoch (s : State) (qid : Nat) : Nat := if qid < 65536 then (s.queue (qid / 1024) (qid % 1024)).epoch.toNat else 0

/-- The status word of an operation on queue `qid`: EPOCH after it, and its status. -/
def State.queueResult (s : State) (qid : Nat) (st : QStatus) (t : TagRef) : State := s.tagDone t (.value (queueWord (s.qEpoch qid) 0 st) 0)

/-- An operation on a queue of shelf `n`, with its status in the tag that waits for one (Table 3.15). -/
def State.queueOp (s : State) (n q : Nat) (o : QOwner) (op : QueueOp) (t : TagRef) : State :=
  let qid := 1024 * n + q
  match op with
  | .reserve len => let p := s.qReserve n q o len; p.1.queueResult qid p.2 t
  | .write i b => s.qWrite n q o i b
  | .commit ct => let p := s.qCommit n q o ct; p.1.queueResult qid p.2 t
  | .pop same =>
    let p := s.qPop n q o same
    (match p.2 with
      | some i => p.1.tagDone t (.value (queueWord i.off i.len .ok) 0)
      | none => p.1.queueResult qid .empty t)
  | .release => let p := s.qRelease n q o; p.1.queueResult qid p.2 t
  | .flush merged => (s.qFlush n q merged).queueResult qid .ok t

/-- The router of a gated shelf holds the operation, and the shelf wakes (R25). -/
def State.holdOp (s : State) (n : Nat) (h : HeldOp) : State := (s.modShelf n (fun x => { x with heldOps := x.heldOps ++ [h] })).wakeShelf n

/-- A tag that stands for no answer: a WRITE gives none. -/
def noTag : TagRef := { core := 0, store := 0, tag := 8 }

/-- Operations that the router held are taken when the shelf is awake, in order. -/
def State.runHeld (s : State) (n : Nat) : State :=
  let l := (s.shelf n).heldOps
  foldS l (fun s h => s.queueOp n h.q h.owner h.op (h.tag.getD noTag)) (s.modShelf n (fun x => { x with heldOps := [] }))

/-- The shelf goes: the operations that its router held find it absent (R102). -/
def State.absentHeld (s : State) (n : Nat) : State :=
  let l := (s.shelf n).heldOps
  foldS l (fun s h => match h.tag with | some t => s.queueResult (1024 * n + h.q) .absent t | none => s) (s.modShelf n (fun x => { x with heldOps := [] }))

end Sys2Proof.Machine
end

