-- ==== Sys2Proof/Machine/Rings.lean ====
section
/-! DEFINITION. Host rings: descriptors, slots, completion slot writes, event messages, release of SUBMIT slots, notices (R82 to R93). -/

namespace Sys2Proof.Machine

/-! ## The descriptor (Table 3.8) -/

def Ring.word (r : Ring) (k : Nat) : Word := r.desc.getD k 0
/-- TYPE: 0 SUBMIT, 1 COMPLETE, 2 RECEIVE. -/
def Ring.ty (r : Ring) : Nat := fld (r.word 0) 11 10
def Ring.log2 (r : Ring) : Nat := fld (r.word 0) 4 0
def Ring.size (r : Ring) : Nat := 2 ^ r.log2
def Ring.base (r : Ring) : Nat := fld (r.word 0) 51 12 * 4096
def Ring.grant (r : Ring) : BitVec 32 := BitVec.ofNat 32 (fld (r.word 4) 31 0)
def Ring.eventsOn (r : Ring) : Bool := bitAt (r.word 2) 0
def Ring.evAddr (r : Ring) : Nat := fld (r.word 2) 51 3 * 8
def Ring.evTime (r : Ring) : Nat := fld (r.word 3) 26 16
def Ring.evCount (r : Ring) : Nat := fld (r.word 3) 7 0
def Ring.noticeShelf (r : Ring) : Nat := fld (r.word 1) 47 42
def Ring.noticeQueue (r : Ring) : Nat := fld (r.word 1) 41 32

/-- P - C, in the ring's wrapping arithmetic. -/
def Ring.fill (r : Ring) : Nat := (r.p - r.c).toNat % 2 ^ 32

/-- Why a descriptor is BADDESC (R95). -/
def badDesc (d : List Word) : Bool :=
  let w := fun k => d.getD k 0
  fld (w 0) 63 52 != 0 || fld (w 0) 9 5 != 0 || fld (w 1) 31 16 != 0 || fld (w 2) 63 52 != 0 || fld (w 2) 2 1 != 0
    || fld (w 3) 47 27 != 0 || fld (w 3) 15 8 != 0 || fld (w 4) 63 32 != 0 || w 5 != 0 || w 6 != 0 || w 7 != 0
    || decide (fld (w 0) 4 0 < 6) || decide (20 < fld (w 0) 4 0) || fld (w 0) 11 10 == 3
    || (fld (w 0) 11 10 == 1 && fld (w 1) 15 0 != 0)

/-- Host address of the slot of index `i` (R82). -/
def Ring.slotAddr (r : Ring) (i : Nat) : Nat := r.base + i % r.size * 64

/-- PHASE of the slot of index `i`: NOT bit n of the index. -/
def Ring.phase (r : Ring) (i : Nat) : Bool := !i.testBit r.log2

/-- A ring is switched off: after a refused write, a bad slot or DISABLE. Nothing further is written to it (Table 13.8). -/
def State.ringOff (s : State) (r : Nat) : State := s.modRing r (fun x => { x with en := false, evDue := none, rx := [] })

/-! ## Completion slots (R90, Table 3.7) -/

/-- The slot of a TXN or DELIVERY completion of entry `e` at index `i` of region `n`. -/
def txnSlot (r : Ring) (e : Entry) (n i : Nat) : List Word :=
  [place 31 16 e.sring.toNat ||| place 15 8 e.reason.toNat ||| place 7 1 (if e.role = .target then 2 else 1) ||| bitIf 0 (r.phase e.cidx.toNat),
   place 63 48 e.stream.toNat ||| place 47 0 (txnOf n i e.gen.toNat),
   place 63 32 e.bytes.toNat ||| place 19 0 e.partner.toNat,
   place 63 48 e.npkt.toNat ||| place 47 0 e.seqFirst.toNat,
   place 63 32 e.grant.toNat ||| place 31 0 e.cidx.toNat, 0, 0, 0]

/-- A SLOTERR slot for the failing ring `f`, cause and index of its first slot. -/
def errSlot (r : Ring) (f cause idx at_ : Nat) : List Word :=
  [place 31 16 f ||| place 15 8 cause ||| place 7 1 3 ||| bitIf 0 (r.phase at_), 0, 0, 0, place 31 0 idx, 0, 0, 0]

/-- A VOID slot of ring `k` at index `i` (R63). -/
def voidSlot (r : Ring) (k i : Nat) : List Word :=
  [place 31 16 k ||| place 7 1 4 ||| bitIf 0 (r.phase i), 0, 0, 0, place 31 0 i, 0, 0, 0]

/-- Index in `SlotWrite.idx` of a slot that no ledger entry carries. -/
def noEntry : Nat := 4096

/-- Write a completion slot with one 64-byte write, checked against RGRANT; a refused write switches the ring off (R90, R331). -/
def State.writeSlot (s : State) (k i : Nat) (slot : List Word) (region idx : Nat) : State :=
  let r := s.ring k
  if r.en then
    let t := s.hostWrite (.slot k i) 2 (some r.grant) none (r.slotAddr i) (fromWords slot)
    match t.2 with
    | .refused => t.1.ringOff k
    | res => { t.1 with slotWrites := t.1.slotWrites ++ [{ ring := k, index := i, shelf := region, idx := idx, acked := res == .done }] }
  else s

/-- An index of a COMPLETE ring that is never given out again: P advances (R63, R91). None while the ring is full or cannot take slots. -/
def State.reserveSlot (s : State) (k : Nat) : Option (Nat × State) :=
  let r := s.ring k
  if r.en && r.ty == 1 && decide (r.fill < r.size) then some (r.p.toNat % 2 ^ 32, s.setRing k { r with p := r.p + 1 }) else none

/-! ## Event messages (R92) -/

/-- The event message of ring `k`; sending it restarts both counts. A refused write switches the ring off. -/
def State.sendRingEvent (s : State) (k : Nat) : State :=
  let r := s.ring k
  let s := s.setRing k { r with unreported := 0, evDue := none }
  let t := s.hostWrite (.event k) 2 (some r.grant) none r.evAddr
    (wordBytes (place 63 48 (fld (r.word 3) 63 48) ||| place 47 32 k ||| place 31 0 r.p.toNat))
  if t.2 = .refused then t.1.ringOff k else t.1

/-- A slot write has been acknowledged: event coalescing of the ring. -/
def State.countSlot (s : State) (k : Nat) : State :=
  let r := s.ring k
  if r.eventsOn && r.en then
    let u := r.unreported + 1
    if r.evCount + 1 ≤ u then s.sendRingEvent k
    else s.setRing k { r with
      unreported := u
      evDue := (match r.evDue with | some d => some d | none => some (s.now + r.evTime * 500)) }
  else s

/-! ## RECEIVE slots (R83, R87, R326; log entry 120) -/

/-- NSLOT of a packet with `len` payload bytes (R83). -/
def nslotOf (len : Nat) : Nat := 1 + ceilDiv (len - 24) 64

/-- The first slot of a packet at index `i` (Table 3.5). -/
def rxFirst (r : Ring) (x : RxWrite) (i : Nat) : List Byte :=
  let p := x.packet
  fromWords [place 63 32 x.htag.toNat ||| place 31 16 x.cring ||| bitIf 8 (r.phase i) ||| place 7 0 (nslotOf p.len), p.w0, p.w1, p.w2, p.w3]
    ++ padTo 24 (p.payload.take 24)

/-- Later slot `j` of a packet, from 0: the next 64 payload bytes (R83). -/
def rxLater (p : Packet) (j : Nat) : List Byte := padTo 64 (slice p.payload (24 + 64 * j) 64)

/-- Change the packet that the ring writes. -/
def State.rxMod (s : State) (k : Nat) (f : RxWrite → RxWrite) : State :=
  s.modRing k (fun r => match r.rx with | x :: t => { r with rx := f x :: t } | [] => r)

/-- Write one slot of a RECEIVE ring, checked against RGRANT; a refused write switches the ring off. -/
def State.rxSlot (s : State) (k i : Nat) (b : List Byte) : State :=
  let r := s.ring k
  if r.en then
    let t := s.hostWrite (.slot k i) 2 (some r.grant) none (r.slotAddr i) b
    match t.2 with
    | .refused => t.1.ringOff k
    | res =>
      let u := { t.1 with slotWrites := t.1.slotWrites ++ [{ ring := k, index := i, shelf := 0, idx := noEntry, acked := res == .done }] }
      if res = .done then u else u.rxMod k (fun x => { x with left := x.left ++ [i] })
  else s

/-- Write delivered packets, oldest first: the slots are claimed once there is room, the later ones are written, and the first one when the
host port has completed those. -/
def State.rxPump : Nat → State → Nat → State
  | 0, s, _ => s
  | f + 1, s, k =>
    let r := s.ring k
    match r.rx with
    | [] => s
    | x :: t =>
      match x.first with
      | none =>
        let n := nslotOf x.packet.len
        if r.size - r.fill < n then s
        else
          let i := r.p.toNat % 2 ^ 32
          let s := s.setRing k { r with p := r.p + BitVec.ofNat 64 n, rx := { x with first := some i } :: t }
          State.rxPump f (foldS (List.range (n - 1)) (fun s j => s.rxSlot k ((i + 1 + j) % 2 ^ 32) (rxLater x.packet j)) s) k
      | some i =>
        if x.left ≠ [] then s
        else if x.shown then State.rxPump f (s.setRing k { r with rx := t }) k
        else State.rxPump f ((s.setRing k { r with rx := { x with shown := true } :: t }).rxSlot k i (rxFirst r x i)) k

/-- Go on with the packets of a RECEIVE ring: each takes at most three rounds. -/
def State.rxGo (s : State) (k : Nat) : State := s.rxPump (3 * (s.ring k).rx.length) k

/-- A packet of entry (`region`, `idx`) has been delivered: an enabled RECEIVE ring that is its destination takes it. HTAG is a free value. -/
def State.rxPut (s : State) (k : Nat) (p : Packet) (cring region idx : Nat) : State :=
  let r := s.ring k
  if r.en && r.ty == 2 then
    (s.drawn.setRing k { r with rx := r.rx ++ [{ packet := p, cring := cring, htag := s.free.setWidth 32, region := region, idx := idx }] }).rxGo k
  else s

/-- The host port has completed the write of slot `i`. -/
def State.rxDone (s : State) (k i : Nat) : State :=
  if (s.ring k).rx = [] then s else (s.rxMod k (fun x => { x with left := x.left.erase i })).rxGo k

/-- A packet of the entry is not yet in its RECEIVE ring. -/
def State.rxBusy (s : State) (k region idx : Nat) : Bool := (s.ring k).rx.any (fun x => x.region == region && x.idx == idx)

/-- The entry is discarded: its packets that wait for room are not written. -/
def State.rxDrop (s : State) (k region idx : Nat) : State :=
  if s.rxBusy k region idx then
    s.modRing k (fun r => { r with rx := r.rx.filter (fun x => x.first.isSome || x.region != region || x.idx != idx) })
  else s

/-! ## Release of SUBMIT slots (R86) -/

/-- C passes the contiguous run of released packets. -/
def passReleased : Nat → Ring → Ring
  | 0, r => r
  | k + 1, r =>
    match r.runs with
    | x :: t => if x.released then passReleased k { r with runs := t, c := r.c + BitVec.ofNat 64 x.slots } else r
    | [] => r

/-- Mark the oldest packet of the ring that is not released and that belongs to the stream (log entry 11). -/
def markRun (stream partner : Nat) : List RingRun → List RingRun
  | [] => []
  | x :: t => if x.released = false ∧ x.stream = stream ∧ x.partner = partner then { x with released := true } :: t
      else x :: markRun stream partner t

/-- The entry that carries `n` packets of the ring reached COMPLETE: its packets are released. -/
def State.releaseRuns (s : State) (k stream partner n : Nat) : State :=
  s.modRing k (fun r => if r.ty = 0 then
    let y := { r with runs := (List.range n).foldl (fun l _ => markRun stream partner l) r.runs }
    passReleased (y.runs.length + 1) y else r)

/-! ## Notices (R89) -/

/-- The notice item: ring number and P (log entry 12). -/
def noticeItem (k : Nat) (p : Word) : Word := place 63 48 k ||| place 31 0 p.toNat

/-- The wake of a notice: DB on the context that SH_QOWNq names with KIND DB (Table 9.4). -/
def State.noticeWake (s : State) (n q : Nat) : State :=
  match s.qOwner n q 1 with
  | some c => s.wake n c wakeDB 0
  | none => s

/-- Commit the notice of ring `k`, or hold it. Where the queue is absent the notice is discarded (R102). -/
def State.notice (s : State) (k : Nat) : State :=
  let r := s.ring k
  let n := r.noticeShelf
  let q := r.noticeQueue
  if ((s.queue n q).stagedOf (.unit unitRing)).isNone && decide (s.qDepth n q ≤ (s.queue n q).items.length) && !s.qAbsent n q then
    s.setRing k { r with held := some (BitVec.ofNat 32 r.p.toNat) }
  else
    let t := s.unitCommit n q unitRing (wordBytes (noticeItem k r.p)) false
    match t.2 with
    | .waits => t.1.modRing k (fun x => { x with held := some (BitVec.ofNat 32 r.p.toNat) })
    | .landed => (t.1.modRing k (fun x => { x with held := none })).noticeWake n q
    | .discarded => t.1.modRing k (fun x => { x with held := none })

end Sys2Proof.Machine
end

