-- ==== Sys2Proof/Machine/Ledger.lean ====
section
/-! DEFINITION. The ledger unit: two-phase mirrored commits (R54 to R59), the reactions that follow a commit point (Table 2.4), timers
(R62), completion (R63) and the reactions to losses (R64). Rows of chapter 2 that act on the ledger alone have their meanings here. -/

namespace Sys2Proof.Machine

/-- Work of the ledger units that one event starts. -/
inductive LedAct where
  /-- Start a commit of the unit of shelf `u`; the instruction that waits for it, the packet that its commit point delivers and its link. -/
  | commit (u : Nat) (images : List Image) (req : List (TagRef × TagRes)) (pkt : Option Packet) (link : Nat)
  /-- Launch what waits and reach the commit points that are due. -/
  | pump (u : Nat)
  /-- A mirror fault (R59), or the loss of the buddy as a mirror target (R58). -/
  | fault (u : Nat) (bad : Bool)
  /-- A write to the fallback region was refused or failed (R57, R59). -/
  | fbFault (u : Nat)
  /-- A packet of target record (`rr`, `ri`) failed an authority check: the stream closes (R60). -/
  | deny (u rr ri : Nat)
  /-- Move an ORIGIN entry to ACKED. -/
  | acked (r i : Nat)
  /-- Move an entry to COMPLETE with a REASON. -/
  | finish (r i reason : Nat)
  /-- Discard an OPEN TARGET entry. -/
  | discard (r i : Nat)
  /-- Requests of a stream that wait for other entries of it: held DATA-DONEs and a close. -/
  | settle (u : Nat) (org : Bool) (pid ep stream : Nat)
  deriving DecidableEq, Repr

/-! ## Images and the mirror targets -/

def Image.key (m : Image) : Nat × Nat := (m.region, m.idx)

/-- An image as a mirror receives it: RETRIES is 0 (R62). -/
def Image.sent (m : Image) (prep : Bool) : Image := { m with entry := { m.entry with prep := prep, retries := 0 } }

/-- VALID of SH_LEDFB. -/
def State.fbValid (s : State) (u : Nat) : Bool := getB s (.shLedfb u) 0

/-- The mirror target of region `r` at the unit of shelf `u` (R57, R66). -/
def State.mirrorOf (s : State) (u r : Nat) : MirMode :=
  if r = u then (s.shelf u).mode else if s.fbValid u then .host else .none

/-- Address of an image of region `r`, and of its seal record, in the fallback region of shelf `u` (R57, R309). -/
def State.fbAddr (s : State) (u r i : Nat) : Nat := getF s (.shLedfb u) 51 20 * 2 ^ 20 + (if r = u then 0 else 0x40000) + i * 64
def State.fbSeal (s : State) (u r i : Nat) : Nat := getF s (.shLedfb u) 51 20 * 2 ^ 20 + (if r = u then 0x80000 else 0xA0000) + i * 32

/-- The 32-byte seal record of an image (R309). -/
def sealRecord (key : BitVec 256) (ctr u : Nat) (own : Bool) (image : List Byte) : List Byte :=
  padTo 32 (leBytes 8 (ctr % 2 ^ 48)
    ++ gcmTag (leBytes 32 key.toNat) (beBytes 12 (u * 2 ^ 90 + (if own then 0 else 2 ^ 89) + ctr % 2 ^ 48)) image [])

/-- Number of a commit that stands for the copy of RESYNC. -/
def resyncId : Nat := 2 ^ 40

/-- Write one image and its seal record to the fallback region on behalf of commit `id`: the state, how many writes wait, whether one
was refused. -/
def State.fallbackWrite (s : State) (u id : Nat) (m : Image) : State × Nat × Bool :=
  let img := m.entry.image m.region m.idx
  let h := s.shelf u
  let s := s.setShelf u { h with sealCtr := h.sealCtr + 1 }
  let a := s.hostWrite (.ledger u id) 5 none none (s.fbAddr u m.region m.idx) img
  let b := a.1.hostWrite (.ledger u id) 5 none none (s.fbSeal u m.region m.idx) (sealRecord h.sealKey h.sealCtr.toNat u (m.region == u) img)
  (b.1, b2n (a.2 == .wait) + b2n (b.2 == .wait), a.2 == .refused || b.2 == .refused)

/-! ## Mirror mode (R58, R59) -/

/-- MODE of SH_LEDMIR (Table 2.16). -/
def MirMode.code : MirMode → Nat
  | .buddy => 0
  | .resync => 1
  | .host => 2
  | .none => 3

/-- Set the mirror mode: each change of MODE raises MIRROR of Table 11.10 and leaves a firing-log record (R367); mode NONE
leaves the record of R59 as well. -/
def State.setMode (s : State) (u : Nat) (m : MirMode) : State :=
  if (s.shelf u).mode = m then s
  else
    let s := ((s.modShelf u (fun h => { h with mode := m })).raise u 24).log 1 u 0 24 (BitVec.ofNat 64 m.code)
    if m = .none then s.log 0 0 1 3 (BitVec.ofNat 64 u) else s

/-- Copy a region to the fallback region (R58 step 2); the flag tells that a write was refused, which is a mirror fault (R57). -/
def State.copyRegion (s : State) (u r : Nat) : State × Bool :=
  (List.range 4096).foldl (fun (a : State × Bool) i =>
    let b := a.1.fallbackWrite u resyncId { region := r, idx := i, entry := { a.1.ent r i with retries := 0 } }
    (b.1, a.2 || b.2.2)) (s, false)

/-- Enter RESYNC toward the buddy or toward the fallback region; a write refused in the copy makes the mode NONE (R59). -/
def State.startResync (s : State) (u : Nat) (toBuddy : Bool) : State :=
  let s := (s.modShelf u (fun h => { h with resyncBuddy := toBuddy })).setMode u .resync
  if toBuddy then s
  else
    let t := (s.ledRegions u).foldl (fun (a : State × Bool) r => let b := a.1.copyRegion u r; (b.1, a.2 || b.2)) (s, false)
    if t.2 then t.1.setMode u .none else t.1

/-- Commits of the unit whose own-region target is gone are held and sent again to the new target. -/
def State.relaunch (s : State) (u : Nat) : State :=
  s.modShelf u (fun h => { h with commits := h.commits.map (fun c =>
    if c.images.any (fun m => m.region == u) then { c with held := true, awaiting := [], resent := false } else c) })

/-- The mirror target is the fallback region, or the copy goes toward it. -/
def Shelf.towardHost (h : Shelf) : Bool := h.mode == .host || (h.mode == .resync && !h.resyncBuddy)

/-- A mirror fault or the loss of the mirror target. -/
def State.mirrorGone (s : State) (u : Nat) (bad : Bool) : State :=
  let h := s.shelf u
  let s := if bad && !h.towardHost && h.mode != .none then s.modShelf u (fun h => { h with buddyBad := true }) else s
  if h.mode = .none then s
  else if h.towardHost then (s.relaunch u).setMode u .none
  else if s.fbValid u then (s.relaunch u).startResync u false
  else (s.relaunch u).setMode u .none

/-! ## Effects of a commit point -/

/-- ACKTO of a shelf in ns (Table 2.15). -/
def State.ackto (s : State) (u : Nat) : Nat := getF s (.shLedcfg u) 47 32 * 100
def State.tgtto (s : State) (u : Nat) : Nat := getF s (.shLedcfg u) 63 48 * 1000

/-- DEADLINE that the ISSUED transition sets (R62). -/
def State.newDeadline (s : State) (u : Nat) : Word := s.devtime + BitVec.ofNat 64 (s.ackto u * (getF s (.shLedcfg u) 31 28 + 1))

/-- What an entry calls for once no commit of it is in flight: outcomes that were fixed meanwhile (Table 2.11). -/
def State.due (s : State) (r i : Nat) : List LedAct :=
  let e := s.ent r i
  let v := s.vol r i
  if s.entBusy r i then []
  else match e.role, e.st with
    | .origin, .acked => [.finish r i 0]
    | .origin, .opened =>
      if v.lost then [.finish r i 1] else (match v.want with | some w => if w = 0 then [] else [.finish r i w.toNat] | none => [])
    | .origin, .issued | .origin, .dataDone =>
      (match v.want with
        | some w => if w = 0 then [.acked r i] else [.finish r i w.toNat]
        | none => if v.lost then [.finish r i 2] else if e.st = .dataDone ∧ v.heldAck = true then [.acked r i] else [])
    | .target, .opened => if v.lost || v.want.isSome then [.discard r i] else []
    | .target, .dataDone => [.finish r i 0]
    | _, _ => []

/-- Queue to which packets of stream record `i` of region `r` are delivered: the spec does not name it (log entry 13). -/
def targetQueue (r i : Nat) : Nat := (Config.targetQueue r i).toNat

/-- The bytes of a packet as a queue item: header, payload and trailer, padded to whole words (R96, log entry 14). -/
def packetItem (p : Packet) : List Byte := padTo (32 * ceilDiv p.size 32) p.bytes

/-- Remove the first packet of a virtual channel from the receive buffer of link `l`; its flits become credit (R110). -/
def State.takeRx (s : State) (l vc : Nat) : State :=
  s.modLink l (fun k => match k.rxFifo.find? (fun x => x.vc == vc) with
    | some x => { k with rxFifo := dropFirst (fun y => y.vc == vc) k.rxFifo, freed := tmod 0 k.freed vc (· + x.flits) }
    | none => k)

/-- Remove a ledger-class packet from the receive buffer, where it still stands at the head of its channel. -/
def State.takeRxOf (s : State) (l : Nat) (p : Packet) : State :=
  match (s.link l).rxFifo.find? (fun x => x.vc == vcOf p.cmd) with
  | some x => if x.pkt.w1 = p.w1 ∧ x.pkt.txn = p.txn ∧ x.pkt.src = p.src then s.takeRx l (vcOf p.cmd) else s
  | none => s

/-! ## Payload writes of the move units (R77, R81, R329; log entry 121) -/

/-- A DATA packet whose payload goes to the destination named by GRANT: its entry names no enabled RECEIVE ring (R77, R87). -/
def State.scatters (s : State) (e : Entry) (p : Packet) : Bool :=
  let r := s.ring e.sring.toNat
  p.cmd == 0x01 && p.len != 0 && !(r.en && r.ty == 2)

/-- A write of move unit `m` of shelf `u` is outstanding at a host port. -/
def State.writing (s : State) (u m : Nat) : Bool :=
  (List.range 16).any (fun p => (s.port p).reqs.any (fun e => e.2.who == .payload u m) || (s.port p).grantWait.any (fun w => w.who == .payload u m))

/-- The lowest move unit of shelf `u` that does not write. -/
def State.freeMover (s : State) (u : Nat) : Option Nat :=
  (List.range 4).find? (fun m => !s.writing u m)

/-- A move unit still writes payload of entry (`r`, `i`). -/
def State.payloadBusy (s : State) (u r i : Nat) : Bool :=
  (List.range 4).any (fun m => (tget {} (s.shelf u).movers m).entry == some (r, i) && s.writing u m)

/-- Host address of a packet's payload: the spec gives no place within the grant. -/
def payloadAt (r i seq : Nat) : Nat := (Config.payloadAddr r i seq).toNat % 2 ^ 52

/-- Whether the payload of a packet may be delivered: the grant check of R60 and R329, once a move unit is free. -/
inductive Gate where
  | open_ | refused | waits
  deriving DecidableEq, Repr

def State.payloadGate (s : State) (u r i : Nat) (e : Entry) (p : Packet) : State × Gate :=
  if !s.scatters e p then (s, .open_)
  else if (s.freeMover u).isNone then (s, .waits)
  else
    let a := payloadAt r i p.seq
    let q := s.servingPort (a / 64)
    match s.checkWrite q (some e.grant) none a p.len with
    | .pass _ => (s, .open_)
    | .fail => (s.refuse q 1 a (some e.grant), .refused)
    | .fetch j => (s.fetchGrant q j, .waits)

/-- A move unit writes the payload, checked against GRANT of the entry; the flag tells that the write was refused (R329, Table 13.8). -/
def State.payloadWrite (s : State) (u r i : Nat) (e : Entry) (p : Packet) : State × Bool :=
  if !s.scatters e p then (s, false)
  else match s.freeMover u with
    | none => (s, false)
    | some m =>
      let s := s.modShelf u (fun h => { h with movers := tset {} h.movers m { entry := some (r, i) } })
      let t := s.hostWrite (.payload u m) 1 (some e.grant) none (payloadAt r i p.seq) (p.payload.take p.len)
      (t.1, t.2 == .refused)

/-- Deliver a packet to the target queue of record (`rr`, `ri`); FRONTIER goes past it, the entry's idle time starts again and its ACKSEQ is
the packet's SEQ (R51, R60). The packet leaves the receive buffer, and goes on to the RECEIVE ring that the entry names, or by a move unit to
the destination that GRANT names. While the queue cannot take the item, or no move unit is free, the packet stays where it is. -/
def State.deliver (s : State) (u rr ri r i : Nat) (p : Packet) (l : Nat) : State × List LedAct :=
  let g := s.payloadGate u r i (s.ent r i) p
  match g.2 with
  | .waits => (g.1, [])
  | .refused => (g.1.takeRxOf l p, [.deny u rr ri])
  | .open_ =>
    let t := g.1.unitCommit u (targetQueue rr ri) unitLedger (packetItem p) false
    match t.2 with
    | .waits => (t.1, [])
    | _ =>
      let s := t.1.modSvol rr ri (fun v => { v with frontier := BitVec.ofNat 48 (p.seq + 1) })
      let s := s.modVol r i (fun v => { v with
        idleDue := some (s.now + s.tgtto u)
        bytes := v.bytes + p.len
        lastSeq := if p.last then some (BitVec.ofNat 48 p.seq) else v.lastSeq })
      let e := s.ent r i
      let s := (s.setEnt r i { e with ackSeq := BitVec.ofNat 48 p.seq }).takeRxOf l p
      let w := s.payloadWrite u r i e p
      (w.1.rxPut e.sring.toNat p e.cring.toNat r i, if w.2 then [.deny u rr ri] else [])

/-- Raise FLOOR of a key slot, in the home copy and the mirror copy, and drop the slot from every key cache (R148). -/
def State.raiseFloor (s : State) (k : Nat) (seq : BitVec 48) : State :=
  let h := k / 1024
  let up := fun (x : KeySlot) => if x.floor.toNat < seq.toNat then { x with floor := seq } else x
  let s := if !s.saggarOpen h then s else s.modShelf h (fun x => { x with homeKeys := tmod {} x.homeKeys (k % 1024) up })
  let s := if !s.saggarOpen (buddy h) then s else s.modShelf (buddy h) (fun x => { x with mirrorKeys := tmod {} x.mirrorKeys (k % 1024) up })
  foldS (List.range 64) (fun s n => s.modShelf n (fun x => { x with keyCache := adel k x.keyCache })) s

/-- A stream command of the origin's end, about record `e` at index `i` of region `r` (Table 3.3). -/
def State.sendStream (s : State) (cmd r i : Nat) (e : Entry) (seq : Nat) : State :=
  s.sendHw e.localEp.toNat e.partner.toNat cmd e.stream.toNat seq (txnOf r i e.gen.toNat)

/-- What follows when the image of entry (`r`, `i`) has been written: `o` is the old entry, `e` the new one. -/
def State.landed (s : State) (u r i : Nat) (o e : Entry) : State × List LedAct :=
  let stl := [LedAct.settle u (e.role == .origin) e.partner.toNat e.localEp.toNat e.stream.toNat]
  if o.st = e.st then
    (if e.role = .stream ∧ o.ackSeq ≠ e.ackSeq then
      s.modSvol r i (fun v => { v with frontier := if v.frontier.toNat < e.ackSeq.toNat then e.ackSeq else v.frontier }) else s, s.due r i)
  else match e.role, e.st with
    | .origin, .opened => (s.setVol r i { (s.vol r i) with handed := [], links := [], released := 0, heldAck := false }, s.due r i)
    | .origin, .issued =>
      let s := s.modVol r i (fun v => { v with ackDue := some (s.now + s.ackto u), ackStep := s.ackto u })
      (s, s.due r i)
    | .origin, .acked => (s.modVol r i (fun v => { v with ackDue := none, heldAck := false, want := none, lost := false }), [.finish r i 0])
    | .target, .opened => (s.modVol r i (fun v => { v with idleDue := some (s.now + s.tgtto u) }), s.due r i)
    | .target, .dataDone =>
      let v := s.vol r i
      let s := if v.lost then s else s.sendHw e.localEp.toNat e.partner.toNat 0x18 e.stream.toNat (e.seqFirst.toNat + e.npkt.toNat - 1) (fld e.word30 47 0)
      (s.modVol r i (fun v => { v with idleDue := none, heldSet := none }), LedAct.finish r i 0 :: stl)
    | .origin, .complete | .target, .complete =>
      let s := s.modVol r i (fun v => { v with ackDue := none, idleDue := none, want := none, lost := false, heldAck := false })
      let s := s.writeSlot e.cring.toNat e.cidx.toNat (txnSlot (s.ring e.cring.toNat) e r i) r i
      let s := if e.role = .origin then s.releaseRuns e.sring.toNat e.stream.toNat e.partner.toNat e.npkt.toNat else s
      (s, stl)
    | .stream, .opened =>
      let s := s.modSvol r i (fun v => { v with frontier := e.ackSeq })
      (if (s.svol r i).origin then s.sendStream 0x10 r i e e.seqFirst.toNat else s, [])
    | .stream, .retired =>
      let v := s.svol r i
      let s := if v.nak then s.sendHw o.localEp.toNat o.partner.toNat 0x1A o.stream.toNat o.ackSeq.toNat 0
        else if v.origin && !v.closing then s.sendStream 0x11 r i o o.seqFirst.toNat else s
      (s.setSvol r i {}, [])
    | _, .retired =>
      let held := (s.vol r i).heldSet
      let s := (s.setVol r i {}).rxDrop e.sring.toNat r i
      ((match held with | some t => s.tagDone t (.value 2 0) | none => s), stl)
    | _, _ => (s, s.due r i)

/-- The entry that a commit point writes locally: PREP is 0, RETRIES of a live entry stays, DEADLINE is set by the ISSUED transition. -/
def State.localImage (s : State) (u : Nat) (o e : Entry) : Entry :=
  { e with
    prep := false
    retries := if o.gen = e.gen then o.retries else 0
    word30 := if e.role = .origin ∧ o.st = .opened ∧ e.st = .issued then s.newDeadline u else e.word30 }

/-- Write one image at the commit point. -/
def State.putImage (s : State) (u : Nat) (m : Image) : State × List LedAct :=
  let o := s.ent m.region m.idx
  let e := s.localImage u o m.entry
  let s := if m.entry.role = .stream ∧ o.st = .opened ∧ e.st = .retired ∧ (s.svol m.region m.idx).origin = true
    then s.raiseFloor e.keySlot.toNat o.seqFirst else s
  (s.setEnt m.region m.idx e).landed u m.region m.idx o e

/-- Entries whose newer image a mirror target has been sent. -/
def State.preparedKeys (s : State) (u : Nat) : List (Nat × Nat) :=
  ((s.shelf u).commits.filter (fun c => !c.held)).flatMap (fun c => c.images.map Image.key)

/-- Tell the mirror targets (R55 step 4): PREP of the images clears, but for an entry of which a later commit has prepared a newer image, which
stands. The flag tells that a write to the fallback region was refused. -/
def State.sendCommit (s : State) (u : Nat) (c : Commit) : State × Bool :=
  (s.ledRegions u).foldl (fun (a : State × Bool) r =>
    let s := a.1
    let ms := (c.images.filter (fun m => m.region == r && !(s.preparedKeys u).contains m.key)).map (fun m =>
      ({ m with entry := s.ent r m.idx } : Image).sent false)
    if ms = [] then a
    else match s.mirrorOf u r with
      | .buddy => (s.sendFlue (attShelf u) (attShelf (buddy u)) (.commit ms), a.2)
      | .host => ms.foldl (fun a m => let b := a.1.fallbackWrite u c.id m; (b.1, a.2 || b.2.2)) a
      | _ => a) (s, false)

/-- What the packet of a commit that has landed calls for: the reply to a STREAM-OPEN (Table 2.19), or the delivery of the packet, unless its
entry has been marked for discard meanwhile (R60). -/
def State.packetLanded (s : State) (u : Nat) (c : Commit) (p : Packet) (m : Image) : State × List LedAct :=
  if m.entry.role = .stream then (s.sendHw (pidEp p.dst) p.src 0x1B p.stream p.seq p.txn, [])
  else
    let v := s.vol m.region m.idx
    match s.findStream u false p.src (pidEp p.dst) p.stream with
    | some (rr, ri) =>
      if v.lost || v.want.isSome then (s.takeRxOf c.link p, [])
      else if (s.ent m.region m.idx).st = .opened then s.deliver u rr ri m.region m.idx p c.link
      else (s, [])
    | none => (s, [])

/-- The commit point (R55 step 3): both images in one step, the requester's status, COMMIT, and what follows. -/
def State.commitPoint (s : State) (u : Nat) (c : Commit) : State × List LedAct :=
  let s := s.modShelf u (fun h => { h with commits := h.commits.filter (fun x => x.id ≠ c.id) })
  let r := c.images.foldl (fun (a : State × List LedAct) m => let b := a.1.putImage u m; (b.1, a.2 ++ b.2)) (s, [])
  let s := foldS c.requester (fun s q => s.tagDone q.1 q.2) r.1
  let k := s.sendCommit u c
  let f := if k.2 then [LedAct.fbFault u] else []
  match c.pkt, c.images with
  | some p, m :: _ => let d := k.1.packetLanded u c p m; (d.1, d.2 ++ r.2 ++ f)
  | _, _ => (k.1, r.2 ++ f)

/-! ## Launch -/

/-- An image as its PREPARE carries it: that of ISSUED has its DEADLINE from now on (R62, log entry 125). -/
def State.prepImage (s : State) (u : Nat) (m : Image) : Image :=
  (if m.entry.role = .origin ∧ m.entry.st = .issued ∧ (s.ent m.region m.idx).st = .opened
    then { m with entry := { m.entry with word30 := s.newDeadline u } } else m).sent true

/-- Send the PREPAREs of a commit (R55 step 1). Tokens of `awaiting`: the unit's own number for the buddy, 1000 and up for host writes. -/
def State.launch (s : State) (u : Nat) (c : Commit) : State × List LedAct :=
  let t := (s.ledRegions u).foldl (fun (a : State × List Nat × Bool) r =>
    let ms := (c.images.filter (fun m => m.region == r)).map (fun m => s.prepImage u m)
    if ms = [] then a
    else match a.1.mirrorOf u r with
      | .buddy => (a.1.sendFlue (attShelf u) (attShelf (buddy u)) (.prepare c.id ms), a.2.1 ++ [u], a.2.2)
      | .host => ms.foldl (fun a m =>
          let b := a.1.fallbackWrite u c.id m
          (b.1, a.2.1 ++ List.replicate b.2.1 1000, a.2.2 || b.2.2)) a
      | _ => a) (s, [], false)
  let s := t.1.modShelf u (fun h => { h with commits := h.commits.map (fun x => if x.id = c.id then { x with held := false, awaiting := t.2.1 } else x) })
  (s, if t.2.2 then [.fbFault u] else [])

/-- The first commit that may launch: at most 32 are in flight, and RESYNC holds all, in order (R54, R58). -/
def State.nextLaunch (s : State) (u : Nat) : Option Commit :=
  let h := s.shelf u
  if (h.commits.filter (fun c => !c.held)).length < 32 then
    if h.mode = .resync then none else h.commits.find? (fun c => c.held)
  else none

/-- A commit has all its answers and no older commit of one of its entries is in flight (log entry 15). -/
def readyIn : List (Nat × Nat) → List Commit → Option Commit
  | _, [] => none
  | older, c :: t =>
    if !c.held && c.awaiting.isEmpty && !(c.images.any (fun m => older.contains m.key)) then some c
    else readyIn (older ++ c.images.map Image.key) t

/-- One step of the unit of a shelf that is not in reset or retired. -/
def State.pumpOne (s : State) (u : Nat) : State × List LedAct :=
  if s.shelfGone u then (s, [])
  else match s.nextLaunch u with
  | some c => let r := s.launch u c; (r.1, r.2 ++ [.pump u])
  | none =>
    match readyIn [] (s.shelf u).commits with
    | some c => let r := s.commitPoint u c; (r.1, r.2 ++ [.pump u])
    | none => (s, [])

/-- A new commit, not yet launched. -/
def State.addCommit (s : State) (u : Nat) (images : List Image) (req : List (TagRef × TagRes)) (pkt : Option Packet) (link : Nat) : State :=
  s.modShelf u (fun h => { h with
    nextCommit := h.nextCommit + 1
    commits := h.commits ++ [{ id := h.nextCommit, images := images, awaiting := [], held := true, requester := req, pkt := pkt, link := link }] })

/-! ## Stream-wide work -/

/-- Discard every OPEN TARGET entry of the stream of a target record and set FRONTIER := NEXTIN, as commits in flight leave it (R60, R62, R81,
Table 2.10). -/
def State.discardOpen (s : State) (u rr ri : Nat) : State × List LedAct :=
  let rec_ := s.entNext rr ri
  let es := (s.streamEntries u false rec_).filter (fun e => e.2.2.st == .opened)
  let s := foldS es (fun s e => s.modVol e.1 e.2.1 (fun v => { v with want := some 1 })) s
  (s.modSvol rr ri (fun v => { v with frontier := rec_.ackSeq }), es.map (fun e => LedAct.discard e.1 e.2.1))

/-- Images of a TARGET DATA-DONE (R54): the entry and its record with NEXTIN := SEQFIRST + NPKT. -/
def State.dataDoneImages (s : State) (r i rr ri : Nat) : List Image :=
  let e := s.entNext r i
  let last := ((s.vol r i).lastSeq.getD 0)
  let npkt := last.toNat + 1 - e.seqFirst.toNat
  let rec_ := s.entNext rr ri
  [{ region := r, idx := i, entry := { e with st := .dataDone, npkt := BitVec.ofNat 16 npkt, ackSeq := last, bytes := BitVec.ofNat 32 (s.vol r i).bytes } },
   { region := rr, idx := ri, entry := { rec_ with ackSeq := BitVec.ofNat 48 (e.seqFirst.toNat + npkt) } }]

/-- Every earlier TARGET entry of the stream is DATA-DONE or later (Table 2.4). -/
def State.earlierDone (s : State) (u : Nat) (rec_ e : Entry) : Bool :=
  (s.streamEntries u false rec_).all (fun x => x.2.2.st != .opened || decide (e.seqFirst.toNat ≤ x.2.2.seqFirst.toNat))

def State.settleStream (s : State) (u : Nat) (org : Bool) (pid ep stream : Nat) : State × List LedAct :=
  match s.findStream u org pid ep stream with
  | none => (s, [])
  | some (rr, ri) =>
    let rec_ := s.entNext rr ri
    let es := s.streamEntries u org rec_
    let ready := es.find? (fun e => !org && e.2.2.st == .opened && !(s.entBusy e.1 e.2.1) && (s.vol e.1 e.2.1).heldSet.isSome
      && s.earlierDone u rec_ e.2.2)
    match ready with
    | some (r, i, _) =>
      (match (s.vol r i).heldSet with
        | some t => (s.modVol r i (fun v => { v with heldSet := none }), [.commit u (s.dataDoneImages r i rr ri) [(t, .value 0 0)] none 0])
        | none => (s, []))
    | none =>
      if (s.svol rr ri).closing && !(s.entBusy rr ri) && es.all (fun e => !e.2.2.st.holdsStream) then
        (s, [.commit u [{ region := rr, idx := ri, entry := { rec_ with st := .retired } }] [] none 0])
      else (s, [])

/-! ## The driver -/

def State.doAct (s : State) : LedAct → State × List LedAct
  | .commit u images req pkt link => (s.addCommit u images req pkt link, [.pump u])
  | .pump u => s.pumpOne u
  | .fault u bad => (s.mirrorGone u bad, [.pump u])
  | .fbFault u => (if (s.shelf u).towardHost then s.mirrorGone u true else s, [.pump u])
  | .deny u rr ri =>
    let e := s.ent rr ri
    let d := s.discardOpen u rr ri
    (d.1.modSvol rr ri (fun v => { v with closing := true, nak := true }),
      d.2 ++ [.settle u false e.partner.toNat e.localEp.toNat e.stream.toNat])
  | .acked r i =>
    let e := s.ent r i
    if s.entBusy r i then (s.modVol r i (fun v => { v with want := v.want <|> some 0 }), [])
    else if e.role = .origin ∧ (e.st = .issued ∨ e.st = .dataDone) then
      (s, [.commit (s.ledUnit r) [{ region := r, idx := i, entry := { e with
        st := .acked
        ackSeq := e.seqFirst + BitVec.ofNat 48 e.npkt.toNat - 1 } }] [] none 0])
    else (s, [])
  | .finish r i reason =>
    let e := s.ent r i
    let keep := s.modVol r i (fun v => { v with want := v.want <|> some (BitVec.ofNat 8 reason) })
    if s.entBusy r i then (keep, [])
    else if e.st = .retired ∨ e.st = .complete ∨ e.role = .stream then (s, [])
    else match s.reserveSlot e.cring.toNat with
      | none => (keep, [])
      | some (c, s) => (s, [.commit (s.ledUnit r) [{ region := r, idx := i, entry := { e with
          st := .complete
          reason := BitVec.ofNat 8 reason
          cidx := BitVec.ofNat 32 c } }] [] none 0])
  | .discard r i =>
    let e := s.ent r i
    if s.entBusy r i then (s.modVol r i (fun v => { v with want := some 1 }), [])
    else if e.role = .target ∧ e.st = .opened then (s, [.commit (s.ledUnit r) [{ region := r, idx := i, entry := { e with st := .retired } }] [] none 0])
    else (s, [])
  | .settle u org pid ep stream => s.settleStream u org pid ep stream

/-- Run the work of the ledger units to its end; the number bounds it. -/
def ledRunN : Nat → State → List LedAct → State
  | 0, s, _ => s
  | _, s, [] => s
  | k + 1, s, a :: t => let r := s.doAct a; ledRunN k r.1 (r.2 ++ t)

/-- Work that one event can start is far below this bound. -/
def ledRun (s : State) (as : List LedAct) : State := ledRunN 1000000 s as

/-- As `ledRun`, from a state with work to do. -/
def ledThen (r : State × List LedAct) : State := ledRun r.1 r.2

/-! ## Losses (R64, Tables 2.9 and 2.10) -/

/-- Live ORIGIN and TARGET entries of a unit for which `f` holds. -/
def State.liveEntries (s : State) (u : Nat) (f : Entry → Bool) : List (Nat × Nat × Entry) :=
  (s.ledRegions u).flatMap (fun r => ((s.ledView r).filter (fun e => e.2.role != .stream && e.2.st != .retired && f e.2)).map (fun e => (r, e.1, e.2)))

/-- A partner of shelf `u` is lost. -/
def State.partnerLost (s : State) (u pid : Nat) : State :=
  let es := s.liveEntries u (fun e => e.partner.toNat == pid && e.st.holdsStream)
  let s := foldS es (fun s e => s.modVol e.1 e.2.1 (fun v => { v with lost := true })) s
  let s := foldS ((s.ledRegions u).flatMap (fun r => ((s.ledView r).filter (fun e => e.2.role == .stream && e.2.st == .opened
      && e.2.partner.toNat == pid)).map (fun e => (r, e.1, e.2)))) (fun s e => s.modSvol e.1 e.2.1 (fun v => { v with frontier := e.2.2.ackSeq })) s
  ledRun s (es.flatMap (fun e => s.due e.1 e.2.1))

/-- Link `l` is lost for shelf `u` while another route to the partner exists: RETX on every entry whose packets used it. -/
def State.linkLoss (s : State) (u l : Nat) : State :=
  foldS (s.liveEntries u (fun e => e.role == .origin && (e.st == .issued || e.st == .dataDone))) (fun s e =>
    if (s.vol e.1 e.2.1).links.contains l && s.reachable (pidDev e.2.2.partner.toNat) then s.retx u e.2.2.ctx else s) s

/-- A core is lost: RETRIES of its contexts' entries restart from 0 (R62), and the OPEN TARGET entries of their streams are discarded
(Table 2.10). -/
def State.coreLossLedger (s : State) (u : Nat) (ctxs : List (BitVec 20)) : State :=
  let s := foldS (s.liveEntries u (fun e => e.role == .origin && ctxs.contains e.ctx)) (fun s e =>
    s.setEnt e.1 e.2.1 { s.ent e.1 e.2.1 with retries := 0 }) s
  foldS (s.liveEntries u (fun e => e.role == .target && e.st == .opened && ctxs.contains e.ctx)) (fun s e =>
    match s.findStream u false e.2.2.partner.toNat e.2.2.localEp.toNat e.2.2.stream.toNat with
    | some (rr, ri) => ledThen (s.discardOpen u rr ri)
    | none => s) s

/-- A doorbell freed space in COMPLETE ring `k`: transitions to COMPLETE that waited for a slot go on (R91). -/
def State.retryRing (s : State) (k : Nat) : State :=
  ledRun s ((List.range 64).flatMap (fun u => (s.liveEntries u (fun e => e.cring.toNat == k)).flatMap (fun e => s.due e.1 e.2.1)))

/-! ## The flue exchange (R55) -/

/-- Take the oldest arrived message for shelf `n` whose body satisfies `f`. -/
def State.takeArrived (s : State) (n : Nat) (f : FlueBody → Bool) : Option (FlueMsg × State) :=
  match s.arrived.find? (fun m => m.dst == attShelf n && f m.body) with
  | some m => some (m, { s with arrived := dropFirst (fun x => x.dst == attShelf n && f x.body) s.arrived })
  | none => none

/-- Write images into the mirror of shelf `n`. -/
def State.writeMirror (s : State) (n : Nat) (ms : List Image) (prep : Bool) : State :=
  s.modShelf n (fun h => { h with mirror := ms.foldl (fun t m => tset {} t m.idx { m.entry with prep := prep, retries := 0 }) h.mirror })

def effPrepare (n : Nat) (echkOk : Bool) (s : State) : State :=
  match s.takeArrived n (fun b => match b with | .prepare _ _ => true | _ => false) with
  | some ({ src := src, dst := dst, body := .prepare id ms, .. }, s) =>
    if (s.shelf n).adopt.isSome then s
    else if echkOk then (s.writeMirror n ms true).sendFlue dst src (.prepared id)
    else s.sendFlue dst src (.resend id)
  | _ => s

/-- PREPARE (R55 step 2). -/
def execPrepare (n : Fin 64) (echkOk : Bool) (s : State) : Host.Outcome State Fault Refusal := .next (effPrepare n echkOk s)

/-- Take an answer off a commit. -/
def State.answered (s : State) (u id token : Nat) : State :=
  s.modShelf u (fun h => { h with commits := h.commits.map (fun c => if c.id = id then { c with awaiting := c.awaiting.erase token } else c) })

def effPrepared (n : Nat) (s : State) : State :=
  match s.takeArrived n (fun b => match b with | .prepared _ => true | _ => false) with
  | some ({ body := .prepared id, .. }, s) => ledRun (s.answered n id n) [.pump n]
  | _ => s

/-- PREPARED (R55 step 3). -/
def execPrepared (n : Fin 64) (s : State) : Host.Outcome State Fault Refusal := .next (effPrepared n s)

def effResend (n : Nat) (s : State) : State :=
  match s.takeArrived n (fun b => match b with | .resend _ => true | _ => false) with
  | some ({ body := .resend id, .. }, s) =>
    (match (s.shelf n).commits.find? (fun c => c.id == id && c.awaiting.contains n) with
      | some c =>
        if c.resent then ledRun s [.fault n true]
        else (s.modShelf n (fun h => { h with commits := h.commits.map (fun x => if x.id = id then { x with resent := true } else x) })).sendFlue
          (attShelf n) (attShelf (buddy n)) (.prepare id ((c.images.filter (fun m => m.region == n)).map (fun m => s.prepImage n m)))
      | none => s)
  | _ => s

/-- RESEND (R55 step 2, R59). -/
def execResend (n : Fin 64) (s : State) : Host.Outcome State Fault Refusal := .next (effResend n s)

def effCommit (n : Nat) (s : State) : State :=
  match s.takeArrived n (fun b => match b with | .commit _ => true | _ => false) with
  | some ({ body := .commit ms, .. }, s) => if (s.shelf n).adopt.isSome then s else s.writeMirror n ms false
  | _ => s

/-- COMMIT (R55 step 4). -/
def execCommit (n : Fin 64) (s : State) : Host.Outcome State Fault Refusal := .next (effCommit n s)

/-! ## Mirror resynchronisation (R58) -/

/-- Writes of the RESYNC copy of shelf `u` that a host port has not completed. -/
def State.copying (s : State) (u : Nat) : Bool :=
  (List.range 16).any (fun p => (s.port p).reqs.any (fun e => e.2.who == .ledger u resyncId)
    || (s.port p).grantWait.any (fun w => w.who == .ledger u resyncId))

def effMirrorResyncDone (n : Nat) (s : State) : State :=
  let h := s.shelf n
  if h.mode = .resync ∧ s.copying n = false then
    if h.resyncBuddy then
      if s.shelfActive (buddy n) then
        let s := s.modShelf (buddy n) (fun b => if b.adopt.isSome then b else { b with mirror := mirrorCopy h.entries })
        ledRun (s.setMode n .buddy) [.pump n]
      else ledRun s [.fault n false]
    else ledRun (s.setMode n .host) [.pump n]
  else s

/-- MIRROR_RESYNC_DONE (R58). -/
def execMirrorResyncDone (n : Fin 64) (s : State) : Host.Outcome State Fault Refusal := .next (effMirrorResyncDone n s)

/-- The buddy of shelf `u` is declared in reset or retired, or a PREPARE came back NOT-PRESENT (R58 step 1). -/
def State.mirrorLost (s : State) (u : Nat) : State :=
  let h := s.shelf u
  if h.mode = .buddy ∨ (h.mode = .resync ∧ h.resyncBuddy = true) then ledRun s [.fault u false] else s

/-- The buddy of shelf `u` reports active (R58 step 3). -/
def State.mirrorBack (s : State) (u : Nat) : State :=
  let h := s.shelf u
  if h.buddyBad = false ∧ h.mode ≠ .buddy ∧ ¬(h.mode = .resync ∧ h.resyncBuddy = true) then (s.relaunch u).startResync u true else s

/-! ## Timers (R62) -/

def effAckTimeout (n i : Nat) (s : State) : State :=
  let e := s.ent n i
  let v := s.vol n i
  if e.role = .origin ∧ (e.st = .issued ∨ e.st = .dataDone) ∧ s.reached v.ackDue = true ∧ v.heldAck = false ∧ v.want = none then
    let s := s.setEnt n i { e with retries := BitVec.ofNat 8 (satAdd 255 e.retries.toNat 1) }
    let s := s.modVol n i (fun v => { v with ackDue := v.ackDue.map (· + v.ackStep) })
    s.retx (s.ledUnit n) e.ctx
  else s

/-- ACK_TIMEOUT (R62). -/
def execAckTimeout (n : Fin 64) (i : Fin 4096) (s : State) : Host.Outcome State Fault Refusal := .next (effAckTimeout n i s)

def effDeadlineExpiry (n i : Nat) (s : State) : State :=
  let e := s.ent n i
  if e.role = .origin ∧ (e.st = .issued ∨ e.st = .dataDone) ∧ e.word30.toNat ≤ s.now then ledRun s [.finish n i 3] else s

/-- DEADLINE_EXPIRY (R62). -/
def execDeadlineExpiry (n : Fin 64) (i : Fin 4096) (s : State) : Host.Outcome State Fault Refusal := .next (effDeadlineExpiry n i s)

def effTargetIdleTimeout (n i : Nat) (s : State) : State :=
  let e := s.ent n i
  let u := s.ledUnit n
  if e.role = .target ∧ e.st = .opened ∧ s.reached (s.vol n i).idleDue = true then
    match s.findStream u false e.partner.toNat e.localEp.toNat e.stream.toNat with
    | some (rr, ri) => ledThen (s.discardOpen u rr ri)
    | none => s
  else s

/-- TARGET_IDLE_TIMEOUT (R62). -/
def execTargetIdleTimeout (n : Fin 64) (i : Fin 4096) (s : State) : Host.Outcome State Fault Refusal := .next (effTargetIdleTimeout n i s)

/-! ## Completion (R51, R92) -/

def effCompletionWriteAck (k : Nat) (s : State) : State :=
  match s.slotWrites.find? (fun w => w.ring == k && w.acked) with
  | none => s
  | some w =>
    let s := { s with slotWrites := dropFirst (fun x => x.ring == k && x.acked) s.slotWrites }
    let s := s.countSlot k
    if w.idx = noEntry then s
    else
      let e := s.ent w.shelf w.idx
      if e.st = .complete ∧ e.cidx.toNat = w.index % 2 ^ 32 ∧ s.entBusy w.shelf w.idx = false then
        ledRun s [.commit (s.ledUnit w.shelf) [{ region := w.shelf, idx := w.idx, entry := { e with st := .retired } }] [] none 0]
      else s

/-- COMPLETION_WRITE_ACK (R51, R92). -/
def execCompletionWriteAck (r : Fin 65536) (s : State) : Host.Outcome State Fault Refusal := .next (effCompletionWriteAck r s)

/-! ## Adoption (R56, R66) -/

/-- What the adopter keeps beside an entry of the adopted region: timers start again, RETRIES from 0 (R62), and the links that its packets
used are those that the lost shelf knew (R64, log entry 124). -/
def State.adoptedVol (s : State) (u : Nat) (lost : EntryVol) (e : Entry) : EntryVol :=
  if e.role = .origin ∧ (e.st = .issued ∨ e.st = .dataDone) then
    { ackDue := some (s.now + s.ackto u), ackStep := s.ackto u, links := lost.links }
  else {}

/-- Indices that the lost shelf reserved in a ring and that no adopted entry carries (R63): those of its commits that never prepared. -/
def orphanSlots (lost : Shelf) (r : Nat) (mirror : Tbl Entry) : List (Nat × Nat) :=
  (lost.commits.flatMap (·.images)).filterMap (fun m =>
    if m.region = r ∧ m.entry.role ≠ .stream ∧ m.entry.st = .complete ∧ (tget {} mirror m.idx).st ≠ .complete then some (m.entry.cring.toNat, m.entry.cidx.toNat) else none)

/-- Roll one adopted entry forward (Tables 2.9 and 2.10). -/
def State.rollForward (s : State) (u r i : Nat) (e : Entry) : State × List LedAct :=
  match e.role, e.st with
  | .origin, .acked => (s, [.finish r i 0])
  | .target, .dataDone =>
    (s.sendHw e.localEp.toNat e.partner.toNat 0x18 e.stream.toNat (e.seqFirst.toNat + e.npkt.toNat - 1) (fld e.word30 47 0), [.finish r i 0])
  | .target, .opened => (s, [.discard r i])
  | _, .complete =>
    let k := e.cring.toNat
    let ring := s.ring k
    if (e.cidx.toNat + 2 ^ 32 - ring.c.toNat % 2 ^ 32) % 2 ^ 32 < ring.size then
      (s.writeSlot k e.cidx.toNat (txnSlot ring e r i) r i, [])
    else (s, [.commit u [{ region := r, idx := i, entry := { e with st := .retired } }] [] none 0])
  | _, _ => (s, [])

def effLedgerAdopt (n : Nat) (s : State) : State :=
  let r := buddy n
  let h := s.shelf n
  let lost := s.shelf r
  if s.shelfGone r = true ∧ h.adopt = none ∧ s.shelfActive n = true then
    let preps := (h.mirror.filter (fun e => e.2.prep)).length
    let mirror : Tbl Entry := h.mirror.map (fun e => (e.1, { e.2 with prep := false }))
    let orphans := orphanSlots lost r mirror
    let s := s.setShelf n { h with
      mirror := mirror
      adopt := some r
      preps := BitVec.ofNat 16 (min 65535 preps)
      avol := mirror.foldl (fun t e => tset {} t e.1 (s.adoptedVol n (tget {} lost.vol e.1) e.2)) []
      astreams := mirror.foldl (fun t e => if e.2.role = .stream ∧ e.2.st = .opened then
        tset {} t e.1 { (tget {} lost.streams e.1) with frontier := e.2.ackSeq } else t) [] }
    let s := { s with
      flue := s.flue.filter (fun m => m.src != attShelf r || m.dst != attShelf n)
      arrived := s.arrived.filter (fun m => m.src != attShelf r || m.dst != attShelf n)
      slotWrites := s.slotWrites.filter (fun w => w.shelf ≠ r ∨ w.idx = noEntry) }
    let s := setF s (.shLedmir n) 47 32 (min 65535 preps)
    let s := s.modShelf r (fun x => { x with commits := [], vol := [], streams := [] })
    let s := foldS (h.mirror.filter (fun e => e.2.prep && e.2.role == .stream && e.2.st == .retired && (tget {} lost.streams e.1).origin)) (fun s e =>
      s.raiseFloor e.2.keySlot.toNat e.2.seqFirst) s
    let t := mirror.foldl (fun (a : State × List LedAct) e => let b := a.1.rollForward n r e.1 e.2; (b.1, a.2 ++ b.2)) (s, [])
    let s := ledThen t
    let s := if s.fbValid n then (let t := s.copyRegion n r; if t.2 then ledRun t.1 [.fbFault n] else t.1) else s
    foldS orphans (fun s o => s.writeSlot o.1 o.2 (voidSlot (s.ring o.1) o.1 o.2) r noEntry) s
  else s

/-- LEDGER_ADOPT (R56, R63, R66): shelf `n` adopts its buddy's ledger. A prepared end of an origin's stream counts as committed, so FLOOR of its
key slot rises as at every such end (R148). -/
def execLedgerAdopt (n : Fin 64) (s : State) : Host.Outcome State Fault Refusal := .next (effLedgerAdopt n s)

def effAdoptionEnd (n : Nat) (s : State) : State :=
  let h := s.shelf n
  match h.adopt with
  | none => s
  | some r =>
    if s.shelfActive r = true ∧ (h.mirror.all (fun e => e.2.role == .stream || e.2.st == .retired)) = true
        ∧ (h.commits.all (fun c => c.images.all (fun m => m.region ≠ r))) = true then
      let recs := h.mirror.filter (fun e => e.2.role == .stream)
      let s := s.modShelf r (fun x => { x with
        entries := recs.foldl (fun t e => tset {} t e.1 e.2) (h.mirror.foldl (fun t e => if (tget {} t e.1).st = .retired then tset {} t e.1 e.2 else t) x.entries)
        streams := recs.foldl (fun t e => tset {} t e.1 { (tget {} h.astreams e.1) with frontier := e.2.ackSeq }) x.streams })
      s.setShelf n { (s.shelf n) with adopt := none, avol := [], astreams := [], mirror := mirrorCopy (s.shelf r).entries }
    else s

/-- ADOPTION_END (R66): the stream records go back to the shelf that was lost. -/
def execAdoptionEnd (n : Fin 64) (s : State) : Host.Outcome State Fault Refusal := .next (effAdoptionEnd n s)

end Sys2Proof.Machine
end

