-- ==== Sys2Proof/Machine/ResetBase.lean ====
section
/-! DEFINITION. What warm reset, system reset, cold reset and loss of power leave of the state (R335, R396, R400, R435). -/

namespace Sys2Proof.Machine

/-- Registers that keep their values through a warm reset: those of R357 and R402, those of the always-on island (R371, R438), the
wipe and repair records (log entry 17). -/
def keepWarm : Reg → Bool
  | .glSys | .glGoptag _ | .glWipe | .glWipefail | .glSplitok | .glTscfg | .glTscap => true
  | .shRepair _ | .shPaircfg _ | .shFtcfg _ | .shFtstat _ | .shCorestat _ | .shSlotmap0 _ | .shSlotmap1 _ | .shClk _ | .shPwr _ | .hpClk _ => true
  | .wdMbctl | .wdMbstat | .wdBuf _ | .wdStat | .wdBoot | .wdHostacl | .wdViol | .wdViolrec | .wdLogmir | .wdLogstat => true
  | .vxId | .vxSess | .vxStat | .vxCtl | .vxQuar | .vxCoresel | .vxStidx | .vxStdata | .vxMaddr | .vxMdata | .vxPwd _ | .vxTrcfg
  | .vxTrring | .vxTrridx | .vxFusecmd | .vxFusedata _ | .vxSbuf _ | .vxShtrg _ => true
  | _ => false

/-- Keep the registers for which `f` holds; the others return to their reset values. -/
def State.keepRegs (s : State) (f : Reg → Bool) : State :=
  { s with regs := s.regs.filter (fun e => match Reg.at e.1 with | some r => f r | none => false) }

/-- What a shelf keeps in saggar and its repair logic when its logic is reset. -/
def Shelf.kept (h : Shelf) (ph : Phase) : Shelf :=
  { phase := ph, homeKeys := h.homeKeys, mirrorKeys := h.mirrorKeys, sealKey := h.sealKey, sealCtr := h.sealCtr,
    transportKey := h.transportKey, saggarClosed := h.saggarClosed, wiping := h.wiping, spareMap := h.spareMap, arrived := h.arrived, coreTest := h.coreTest,
    buddyBad := h.buddyBad, rtEntry := h.rtEntry }

/-- What the warden keeps through a reset of its island: NOR, log store, snapshot, I3C address, what the responder and the mailbox hold; firmware
starts again (R371). -/
def Warden.kept (w : Warden) (now : Nat) : Warden :=
  { norA := w.norA, norB := w.norB, rtA := w.rtA, rtB := w.rtB, pcr := w.pcr, log := w.log, logSeq := w.logSeq,
    flushed := w.flushed, ovwr := w.ovwr, snap := w.snap, dynAddr := w.dynAddr, since := now,
    waiting := w.waiting, shadowLc := w.shadowLc, remote := w.remote, logW := w.logW, trialFailed := w.trialFailed }

/-- A global operation in progress ends ABORTED (R133). -/
def GopTag.dropped (g : GopTag) : GopTag :=
  { status := if g.status = 1 then 3 else g.status, inst := g.inst }

/-- Write back the dirty lines of every port before it is isolated (R335). -/
def State.quiescePorts (s : State) : State :=
  foldS (List.range 16) (fun s p =>
    foldS ((s.port p).lines.filter (fun e => lineDirty e.2.st)) (fun s e =>
      (s.emit (.host p (.request 0 { op := .evictDirty, line := e.1, se := false, who := .evict, data := e.2.data, be := BitVec.allOnes 64 }))).emit
        (.host p (.datWr 0 e.2.data (BitVec.allOnes 64) false))) s) s

/-- A core that its island's reset leaves: DFCNT is cleared only by cold start (Table 11.18). -/
def Core.kept (c : Core) : Core := { dfcnt := c.dfcnt }

/-- Logic of every island but always-on is reset: shared part of warm and cold reset. -/
def State.logicReset (s : State) : State :=
  { s with
    cores := s.cores.foldl (fun t e => tset {} t e.1 e.2.kept) []
    ctxs := []
    links := []
    ports := []
    queues := []
    rings := []
    slotWrites := []
    evsrcs := []
    holdoff := []
    flue := []
    arrived := []
    returned := []
    granted := []
    linkAlt := 0
    keyCmd := none
    tlbGone := []
    hpmapNew := none
    hpmapReply := []
    gops := s.gops.foldl (fun t e => tset {} t e.1 e.2.dropped) [] }

/-- Warm reset; `cause` is LAST of GL_BOOTSTAT: 1 WARM_RST_N, 2 SYSRESET (R400). -/
def State.warmReset (s : State) (cause : Nat) : State :=
  let s := s.quiescePorts
  let s := s.logicReset.keepRegs keepWarm
  let s := { s with
    shelves := (List.range 64).foldl (fun t n => tset {} t n ((s.shelf n).kept (if s.isRetired n then (s.shelf n).phase else .reset))) []
    warden := s.warden.kept s.now
    power := { s.power with block := .inReset, startAt := s.now, warm := true }
    sys := { s.sys with
      idv := s.sys.idv && cause != 2
      devId := if cause = 2 then 0 else s.sys.devId
      root := false
      rootSer := s.fuses.serial
      dist := 0
      electAt := s.now
      sysResetting := false
      snapActive := false }
    vexek := { s.vexek with pendingRead := none, readData := none, stWrites := [], draining := none } }
  setF s .glBootstat 59 58 cause

/-- Cold reset and loss of power: nothing but fuses, the serial NOR and the outside world stays; fuses take the values programmed since
(R437, R438). DEVTIME is 0 at the start that follows. -/
def State.coldReset (s : State) (block : BlockSt) : State :=
  let f := s.fuses
  { State.reset with
    pending := s.pending
    outbox := s.outbox
    freeCtr := s.freeCtr
    fuses := { f with serial := if f.serSet then f.serNew else f.serial, pwd := if f.pwdSet then f.pwdNew else f.pwd }
    warden := { norA := s.warden.norA, norB := s.warden.norB, rtA := s.warden.rtA, rtB := s.warden.rtB, pcr := s.warden.pcr }
    sys := { rootSer := if f.serSet then f.serNew else f.serial }
    power := { block := block, thermtrip := block == .poweredDown && s.power.thermtrip } }

end Sys2Proof.Machine
end

