-- ==== Sys2Proof/Machine/GlobalBase.lean ====
section
/-! DEFINITION. The global-operation unit: the tree, contributions, results, aborts, broadcasts (R128 to R133, R198). -/

namespace Sys2Proof.Machine

/-! ## The tree (TREE of LK_CFG) -/

def State.treeRole (s : State) (l : Nat) : Nat := getF s (.lkCfg l) 56 55
/-- The parent link. -/
def State.parentLink (s : State) : Option Nat := (List.range 256).find? (fun l => s.treeRole l == 1)
/-- The child links, in order. -/
def State.childLinks (s : State) : List Nat := (List.range 256).filter (fun l => s.treeRole l == 2)
def State.treeLinks (s : State) : List Nat := (List.range 256).filter (fun l => s.treeRole l == 1 || s.treeRole l == 2)

/-- A global packet on link `l`: HOPS 1, endpoint 0 of the two adjacent devices (R128). -/
def State.globalPacket (s : State) (l cmd tag seq : Nat) (payload : List Byte) : Packet :=
  let p : Packet :=
    { w0 := place 63 56 1 ||| place 55 36 (s.sys.devId.toNat * 256) ||| place 35 16 ((s.link l).peerDev.toNat * 256) ||| bitIf 13 true ||| place 7 0 cmd
      w1 := place 63 16 seq ||| place 15 0 tag, w2 := place 13 0 payload.length, w3 := 0, payload := payload, pcrc := 0, tag := 0 }
  let q := p.fixHchk
  { q with pcrc := pcrcOf q payload }

/-- Hand a global packet to the port of link `l`. -/
def State.sendGlobal (s : State) (l cmd tag seq : Nat) (payload : List Byte) : State :=
  s.modLink l (fun k => { k with respq := k.respq ++ [s.globalPacket l cmd tag seq payload] })

/-- The same packet down every child link. -/
def State.sendDown (s : State) (cmd tag seq : Nat) (payload : List Byte) : State :=
  foldS s.childLinks (fun s l => s.sendGlobal l cmd tag seq payload) s

/-! ## Reductions (Table 4.10) -/

/-- Combine two values under an OP code; the flag tells signed overflow of SUM. -/
def combine (op : Nat) (a b : Word) : Word × Bool :=
  match op with
  | 0 => (a + b, BitVec.saddOverflow a b)
  | 1 => (if a.slt b then a else b, false)
  | 2 => (if a.slt b then b else a, false)
  | 3 => (if a < b then a else b, false)
  | _ => (if a < b then b else a, false)

/-- Bring a value into the accumulator of an instance. -/
def GopTag.take (g : GopTag) (v : Word) (ovf : Bool) : GopTag :=
  match g.acc with
  | none => { g with acc := some v, ovf := g.ovf || ovf }
  | some a => let r := combine g.op a v; { g with acc := some r.1, ovf := g.ovf || ovf || r.2 }

/-- Payload of a REDUCE or of its RESULT: OP, OVF, value. -/
def reducePayload (op : Nat) (ovf : Bool) (v : Word) : List Byte := [byteOf op, byteOf (b2n ovf)] ++ List.replicate 6 0 ++ wordBytes v

def GopTag.payload (g : GopTag) : List Byte := if g.reduce then reducePayload g.op g.ovf (g.acc.getD 0) else []

/-! ## Instances (R129) -/

/-- Result of a GBAR or GRED: its status, after the value of a reduction. -/
def gopRes (c : GopContrib) (reduce : Bool) (r : Word) (st : Nat) : TagRes :=
  if c.op = 256 then .value (BitVec.ofNat 64 st) 0 else .pair (if reduce then r else 0) (BitVec.ofNat 64 st)

/-- Open the next instance with a contribution or an arrival: its kind and operation. -/
def GopTag.open (g : GopTag) (reduce : Bool) (op : Nat) : GopTag :=
  if g.status = 1 then g
  else { g with
    status := 1
    inst := if g.status = 0 then g.inst else g.inst + 1
    reduce := reduce
    op := op
    locals := []
    children := []
    acc := none
    ovf := false
    sentUp := false }

/-- A local contribution joins the open instance. -/
def GopTag.join (g : GopTag) (c : GopContrib) : GopTag :=
  let g := { g with locals := g.locals ++ [c] }
  if g.reduce then g.take c.value false else g

/-- LOCALN of a tag. -/
def State.localN (s : State) (t : Nat) : Nat := getF s (.glGoptag t) 63 53

/-- Put held contributions of the tag into the instance that opens after a DONE. -/
def GopTag.resume (g : GopTag) : GopTag :=
  match g.held with
  | [] => g
  | c :: _ =>
    let h := g.held
    h.foldl GopTag.join ({ g with held := [] }.open (c.op != 256) (if c.op = 256 then 0 else c.op))

/-- Deliver a RESULT: the contributors get their values, the tag is DONE, the children receive it; held contributions open the next
instance. -/
def State.gopDone (s : State) (t : Nat) (v : Word) (payload : List Byte) : State :=
  let g := s.gop t
  let s := foldS g.locals (fun s c => s.tagDone c.tag (gopRes c g.reduce v 0)) s
  let s := s.sendDown 0x26 t g.inst.toNat payload
  s.setGop t ({ g with status := 2, locals := [], children := [] }.resume)

/-- When LOCALN contributions and every child's up packet have arrived, the device sends up; the root turns the value into RESULT. -/
def State.gopCheck (s : State) (t : Nat) : State :=
  let g := s.gop t
  if g.status = 1 ∧ g.sentUp = false ∧ s.localN t ≤ g.locals.length ∧ (s.childLinks.all (fun l => g.children.contains l)) = true then
    let s := s.setGop t { g with sentUp := true }
    if s.sys.root then s.gopDone t (g.acc.getD 0) g.payload
    else match s.parentLink with
      | some l => s.sendGlobal l (if g.reduce then 0x21 else 0x20) t g.inst.toNat g.payload
      | none => s
  else s

/-- As `gopCheck`, again for an instance that opened with every contribution at hand. -/
def State.gopSettle (s : State) (t : Nat) : State := (s.gopCheck t).gopCheck t

/-- A local contribution: joins, is held for the next instance, or is BUSY. -/
def State.contribute (s : State) (t : Nat) (reduce : Bool) (c : GopContrib) : State :=
  let g := s.gop t
  let same := fun (x : GopContrib) => x.tag.core == c.tag.core && x.tag.store == c.tag.store
  if g.status = 1 ∧ (g.locals.any same || g.sentUp || decide (s.localN t ≤ g.locals.length) || g.reduce != reduce) = true then
    if g.held.any same then s.tagDone c.tag (gopRes c reduce 0 2)
    else s.setGop t { g with held := g.held ++ [c] }
  else (s.setGop t ((g.open reduce (if c.op = 256 then 0 else c.op)).join c)).gopSettle t

/-! ## Abort (R133) -/

/-- Set a tag ABORTED: contributors and receivers get their answers. -/
def State.gopAbort (s : State) (t : Nat) : State :=
  let g := s.gop t
  let s := foldS (g.locals ++ g.held) (fun s c => s.tagDone c.tag (gopRes c g.reduce 0 1)) s
  let s := foldS g.recv (fun s r => s.tagDone r.1 (.value 0 0)) s
  s.setGop t { status := 3, inst := g.inst, bcast := g.bcast, bcastTaken := g.bcastTaken }

/-- Payload of GABORT: tag and reason (log entry 18). -/
def abortPayload (t reason : Nat) : List Byte := [byteOf t, byteOf reason] ++ List.replicate 6 0

/-- Send GABORT on the tree links for which `f` holds. -/
def State.sendAbort (s : State) (t reason : Nat) (f : Nat → Bool) : State :=
  foldS (s.treeLinks.filter f) (fun s l => s.sendGlobal l 0x27 t (s.gop t).inst.toNat (abortPayload t reason)) s

/-- A tree link went down (R133): every ACTIVE tag is aborted, TREEOK clears. With no tag ACTIVE TREEOK stays as it is (log entry 127). -/
def State.treeDown (s : State) (l : Nat) : State :=
  if s.treeRole l = 1 ∨ s.treeRole l = 2 then
    let act := (List.range 16).filter (fun t => (s.gop t).status == 1)
    if act = [] then s
    else (foldS act (fun s t => (s.sendAbort t 1 (· ≠ l)).gopAbort t) s).modSys (fun y => { y with treeOk := false })
  else s

/-! ## Broadcast (R130, R198) -/

/-- Write a payload to the pieces of a GRECV, in turn: an address of `State.mem`, or from 2^60 on a host physical address. -/
def State.putPayload (s : State) (vmid : BitVec 12) : List (Nat × Nat) → List Byte → State
  | [], _ => s
  | (a, n) :: t, b =>
    let d := b.take n
    let s := if d = [] then s else if a < 2 ^ 60 then s.store a d else (s.hostWrite (.payload 64 0) 3 none (some vmid) (a - 2 ^ 60) d).1
    State.putPayload s vmid t (b.drop n)

/-- A broadcast instance completes on a device: the payload is kept, and every GRECV that waits takes it. -/
def State.gotBroadcast (s : State) (t : Nat) (inst : BitVec 48) (b : List Byte) : State :=
  let g := s.gop t
  let s := foldS g.recv (fun s r => (s.putPayload r.2.1 r.2.2 b).tagDone r.1 (.value (BitVec.ofNat 64 b.length) 0)) s
  s.setGop t { g with status := 2, inst := inst, bcast := some b, bcastTaken := !g.recv.isEmpty, recv := [] }

/-- A payload that no GRECV of this device has taken. -/
def GopTag.untaken (g : GopTag) : Option (List Byte) := if g.bcastTaken then none else g.bcast

/-- A GRECV: 0 when the tag is ABORTED; a held instance that no GRECV has taken at once; else the next to complete (R198). -/
def State.receive (s : State) (t : Nat) (ref : TagRef) (vmid : BitVec 12) (ps : List (Nat × Nat)) : State :=
  let g := s.gop t
  if g.status = 3 then s.tagDone ref (.value 0 0)
  else match g.untaken with
    | some b => ((s.setGop t { g with bcastTaken := true }).putPayload vmid ps b).tagDone ref (.value (BitVec.ofNat 64 b.length) 0)
    | none => s.setGop t { g with recv := g.recv ++ [(ref, vmid, ps)] }

/-! ## System reset -/

/-- A SYSRESET packet still waits in a port of a child link (R130). -/
def State.sysrstWaits (s : State) : Bool :=
  s.childLinks.any (fun l => let k := s.link l
    (k.st == .active) && (k.respq.any (fun p => p.cmd == 0x24) || k.txq.any (fun x => x.vc == 2 && (packetOf x.bytes).cmd == 0x24)))

/-- Enter the reset once the children's ports have taken the packet (R130). -/
def State.sysresetGo (s : State) : State := if s.sys.sysResetting && !s.sysrstWaits then s.warmReset 2 else s

end Sys2Proof.Machine
end

