-- ==== Sys2Proof/Machine/Authority.lean ====
section
/-! DEFINITION. Control-space authority: Table 15.10, the warden-only fields (R443), and the violation registers (R373, R380). -/

namespace Sys2Proof.Machine

/-- Ranges of control space as Table 15.10 divides it. -/
inductive CsRange where
  | global | shelf | port | link | mailbox | wdRegs | debug | nothing
  deriving DecidableEq, Repr

/-- The range of an offset (Table 18.9). -/
def csRange (off : Nat) : CsRange :=
  if off < 0x1000000 then .global
  else if off < 0x2000000 then .shelf
  else if off < 0x3000000 then .port
  else if off < 0x3800000 then .link
  else if off < 0x3805000 then .mailbox
  else if off < 0x3808000 then .nothing
  else if off < 0x3900000 then .wdRegs
  else .debug

/-- The four ranges of the first row of Table 15.10. -/
def CsRange.main : CsRange → Bool
  | .global | .shelf | .port | .link => true
  | _ => false

/-- Doorbell registers. -/
def isDoorbell (off : Nat) : Bool := decide (0x80000 ≤ off ∧ off < 0x100000)

/-- GL_KEYCMD and GL_KEYADDR. -/
def isKeyCtl (off : Nat) : Bool := off / 8 * 8 == 0x500 || off / 8 * 8 == 0x508

/-- What a debug session reaches (R406, Table 17.3); `wr` tells writes. -/
def dbgReach (level : Nat) (shelves : Word) (off : Nat) (wr : Bool) : Bool :=
  let o := off / 8 * 8
  let free := o == 0x3900000 || o == 0x3900008 || o == 0x3900010 || o == 0x3900060 || o == 0x3900068
    || decide (0x3901000 ≤ o ∧ o < 0x3901200)
  let traceR := decide (0x3900080 ≤ o ∧ o < 0x39000C0)
  let runR := o == 0x3900018 || o == 0x3900020 || o == 0x3900028 || o == 0x3900030 || o == 0x3900038 || o == 0x3900040
    || o == 0x3900048 || o == 0x3900050 || o == 0x3900058
  let shR := decide (0x3902000 ≤ o ∧ o < 0x3902400) && bitAt shelves ((o - 0x3902000) % 0x200 / 8)
  let fuseR := decide (0x3900100 ≤ o ∧ o < 0x3900118)
  match csRange o with
  | .debug => free || (decide (1 ≤ level) && traceR) || (decide (2 ≤ level) && (runR || shR)) || (decide (1 ≤ level) && fuseR)
  | .wdRegs => decide (3 ≤ level)
  | r => r.main && (if wr then decide (3 ≤ level) else decide (2 ≤ level))

/-- Table 15.10; PER of GL_TSCFG is written by the warden firmware only, on its own account or for a mailbox command (R441). -/
def State.permitted (s : State) (who : Party) (off : Nat) (wr : Bool) : Bool :=
  let r := csRange off
  if wr && off / 8 * 8 == 0xB00 && who != .warden then false
  else match who with
  | .host p =>
    let acl := getB s .wdHostacl p.val
    (r.main && (acl || isDoorbell off)) || r == .mailbox
      || (acl && (let o := off / 8 * 8; o == 0x3900080 || o == 0x3900088 || o == 0x3900090))
  | .core _ sysctl => sysctl && r.main && !isKeyCtl off
  | .warden => r.main || r == .mailbox || r == .wdRegs
  | .debugger => dbgReach s.vexek.level s.vexek.shelves off wr
  | .remote => (r == .global || r == .link) && !isKeyCtl off

/-- PARTY and UNIT of WD_VIOLREC, and the field of WD_VIOL, of a party (Table 15.17). -/
def partyCode : Party → Nat × Nat × Nat
  | .host p => (1, p.val, 48)
  | .core n _ => (2, n.val, 32)
  | .debugger => (3, 0, 16)
  | .warden => (4, 0, 0)
  | .remote => (5, 0, 0)

/-- An access without authority: both violation registers and source VIOL (R373, R380). -/
def State.violate (s : State) (who : Party) (wr : Bool) (off : Nat) : State :=
  let c := partyCode who
  let s := bumpF s .wdViol (c.2.2 + 15) c.2.2 1
  let s := wrReg s .wdViolrec (place 63 60 c.1 ||| place 59 54 c.2.1 ||| bitIf 53 wr ||| place 25 0 off)
  s.wsrc 25 EvSrc.pulse

/-- Warden-only fields (R443): WO bits and RW fields. -/
def wardenOnly : Reg → List (Nat × Nat) × List (Nat × Nat)
  | .shClk _ => ([], [(63, 52), (39, 34)])
  | .hpClk _ => ([], [(63, 52), (39, 34)])
  | .glPwr => ([], [(63, 62), (61, 54)])
  | .glBootstat => ([], [(63, 63)])
  | .shPwr _ => ([(61, 61), (60, 60)], [])
  | .shRtvec _ => ([], [(61, 61), (47, 32)])
  | _ => ([], [])

/-- A write acts on a warden-only field (R443). -/
def State.actsOnWarden (s : State) (r : Reg) (v : Word) : Bool :=
  let f := wardenOnly r
  f.1.any (fun x => fld v x.1 x.2 == 1) || f.2.any (fun x => fld v x.1 x.2 != fld (rdReg s r) x.1 x.2)

/-- The offset lies in the range of a shelf in reset, which reads zero and ignores writes without counting them (Table 16.8). -/
def State.shelfRangeOff (s : State) (off : Nat) : Bool :=
  csRange off == .shelf && (let n := (off - 0x1000000) / 0x40000; (s.shelf n).phase == .reset && !s.isRetired n)

/-- The cells of a host port let a control access through in the present block state (R334, R398): from host-ready everything, before it
the mailbox range from management-ready on. The Vexek port answers whenever always-on power is there. -/
def State.partyOpen (s : State) (who : Party) (off : Nat) : Bool :=
  match who with
  | .host _ => s.power.block == .hostReady || (s.power.block == .mgmtReady && csRange off == .mailbox)
  | .debugger => s.power.block != .unpowered
  | _ => true

/-- Gate of a full write by a party to register `r` at its own offset: with authority `f` acts, without it the write is ignored and
counted (R12, R373, R443). -/
def State.gateWrite (s : State) (who : Party) (r : Reg) (v : Word) (f : State → State) : State :=
  if !s.partyOpen who r.off || s.shelfRangeOff r.off then s
  else if s.permitted who r.off true && (who == .warden || !s.actsOnWarden r v) then f s else s.violate who true r.off

/-- A plain write of a register's fields. -/
def State.plainWrite (s : State) (r : Reg) (v : Word) : State := wrReg s r (regWrite r.fields v (BitVec.allOnes 64) (rdReg s r))

end Sys2Proof.Machine
end

