-- ==== Sys2Proof/Machine/Partners.lean ====
section
/-! DEFINITION. The partner table and its caches (R124, R125), probes, and the rows that change them. -/

namespace Sys2Proof.Machine

/-- A partner's cache entry on shelf `n`. -/
def State.partner (s : State) (n pid : Nat) : Option Partner := (s.shelf n).partners.find? (fun p => p.pid.toNat == pid)

/-- Change a cached partner. -/
def State.modPartner (s : State) (n pid : Nat) (f : Partner → Partner) : State :=
  s.modShelf n (fun h => { h with partners := h.partners.map (fun p => if p.pid.toNat = pid then f p else p) })

/-- Answer of a lookup in a partner cache (R124). -/
inductive PartnerAns where
  | found (p : Partner)
  | noAuth | noSpace | fetching
  deriving DecidableEq, Repr

/-- Entries of a shelf's cache (R124). -/
def partnerSlots : Nat := 1024

/-- Fetch a partner's entry, at BASE of GL_PART + partner id * 8, unless that fetch is outstanding (R124). -/
def State.fetchPartner (s : State) (n pid : Nat) : State :=
  let h := s.shelf n
  if h.fetching.contains (BitVec.ofNat 20 pid) then s
  else (s.setShelf n { h with fetching := h.fetching ++ [BitVec.ofNat 20 pid] }).readTable (.partner n pid) (getF s .glPart 51 23 * 2 ^ 23 + pid * 8)

/-- Look up a partner: a hit becomes the most recently used; a miss fetches the host entry, answers NOAUTH while GL_PART is not valid,
and NOSPACE while every entry is pinned. -/
def State.findPartner (s : State) (n pid : Nat) : State × PartnerAns :=
  match s.partner n pid with
  | some p => (s.modShelf n (fun h => { h with partners := p :: h.partners.filter (fun q => q.pid.toNat ≠ pid) }), .found p)
  | none =>
    let h := s.shelf n
    if !getB s .glPart 0 then (s, .noAuth)
    else if decide (partnerSlots ≤ h.partners.length) && h.partners.all (fun p => s.pinned n p.pid.toNat) then (s, .noSpace)
    else (s.fetchPartner n pid, .fetching)

/-- A found partner with VALID set. -/
def PartnerAns.valid : PartnerAns → Bool
  | .found p => p.valid
  | _ => false

/-- PROBETO and PLOSTTO in ns (Table 4.15). -/
def State.probeTo (s : State) : Nat := getF s .glPart 22 15 * 10000
def State.plostTo (s : State) : Nat := getF s .glPart 63 52 * 16000

/-- A packet from a partner has passed the arrival checks (Table 4.9). -/
def State.heardFrom (s : State) (n pid : Nat) : State :=
  s.modPartner n pid (fun p =>
    let st : PartnerSt := if p.st = .suspect ∧ s.reachable (pidDev pid) = false then .suspect else .present
    { p with
      lastArrival := s.now
      probeSent := none
      st := st
      since := if p.st = st then p.since else s.now })

/-- Partners whose device became unreachable turn SUSPECT (Table 4.9). -/
def State.checkReach (s : State) : State :=
  foldS (List.range 64) (fun s n => s.modShelf n (fun h => { h with partners := h.partners.map (fun p =>
    if p.st = .present ∧ s.reachable (pidDev p.pid.toNat) = false then { p with st := .suspect, since := s.now } else p) })) s

/-- A partner turns LOST on shelf `n`, with PARTLOST (R125, R64, Table 11.10). -/
def State.losePartner (s : State) (n pid : Nat) : State :=
  ((s.raise n 48).modPartner n pid (fun p => { p with st := .lost, since := s.now })).partnerLost n pid

/-- Bring a partner's bucket up to date at the rate of its class until now (R121). -/
def Partner.settle (s : State) (p : Partner) : Partner :=
  let c := Reg.glPclass p.rclass.toNat
  { p with bucket := refill (getF s c 63 56) (getF s c 55 48) p.bucket p.bucketAt s.now, bucketAt := s.now }

/-- The same for every partner of a class. -/
def State.settleClass (s : State) (c : Nat) : State :=
  foldS (List.range 64) (fun t n => if (t.shelf n).partners = [] then t
    else t.modShelf n (fun h => { h with partners := h.partners.map (fun p => if p.rclass.toNat = c then p.settle s else p) })) s

/-- BURST of a partner class in KiB, and the bucket of a partner that enters the cache (R121). -/
def fullBucket (s : State) (rclass : Nat) : Nat := getF s (.glPclass rclass) 55 48 * 16384

def effPartnerFetchDone (n : Nat) (pid : BitVec 20) (entry : Word) (s : State) : State :=
  let h := s.shelf n
  if h.fetching.contains pid then
    let s := (s.setShelf n { h with fetching := h.fetching.erase pid }).readEnds (.partner n pid.toNat)
    let valid := bitAt entry 63
    let rc := BitVec.ofNat 4 (fld entry 62 59)
    match s.partner n pid.toNat with
    | some _ => s.modPartner n pid.toNat (fun p => { p.settle s with valid := valid, rclass := rc })
    | none =>
      let x : Partner := { pid := pid, valid := valid, rclass := rc, since := s.now, lastArrival := s.now,
                           bucket := fullBucket s rc.toNat, bucketAt := s.now }
      if h.partners.length < partnerSlots then s.modShelf n (fun h => { h with partners := x :: h.partners })
      else match h.partners.reverse.find? (fun p => !s.pinned n p.pid.toNat) with
        | some v => s.modShelf n (fun h => { h with partners := x :: h.partners.filter (fun p => p.pid ≠ v.pid) })
        | none => s
  else s

/-- PARTNER_FETCH_DONE (R124): the fill of the fetch that is outstanding, with the entry that it brings (log entry 45). -/
def execPartnerFetchDone (n : Fin 64) (pid : BitVec 20) (entry : Word) (s : State) : Host.Outcome State Fault Refusal :=
  .next (effPartnerFetchDone n pid entry s)

/-- Remove a partner from every cache; a pinned entry is fetched again, and so is one whose fetch is under way (R124). -/
def State.partInv (s : State) (pid : BitVec 20) : State :=
  foldS (List.range 64) (fun s n =>
    let due := (s.shelf n).fetching.contains pid
    let s := if due then (s.modShelf n (fun h => { h with fetching := h.fetching.erase pid })).readStale (.partner n pid.toNat) else s
    if due then s.fetchPartner n pid.toNat
    else if (s.partner n pid.toNat).isSome then
      if s.pinned n pid.toNat then s.fetchPartner n pid.toNat
      else s.modShelf n (fun h => { h with partners := h.partners.filter (fun p => p.pid ≠ pid) })
    else s) s

def effGlPartinv (who : Party) (v : Word) (s : State) : State :=
  s.gateWrite who .glPartinv v (fun s => if bitAt v 63 then s.partInv (BitVec.ofNat 20 (fld v 19 0)) else s)

/-- GL_PARTINV (R124). -/
def execGlPartinv (who : Party) (v : Word) (s : State) : Host.Outcome State Fault Refusal := .next (effGlPartinv who v s)

/-- An open record of shelf `n` that names the partner and whose stream holds an OPEN, ISSUED or DATA-DONE entry (Table 4.9). -/
def State.activeRecord (s : State) (n pid : Nat) : Option (Nat × Nat × Entry) :=
  ((s.ledRegions n).flatMap (fun r => ((s.region r).filter (fun e => e.2.role == .stream && e.2.st == .opened
    && e.2.partner.toNat == pid)).map (fun e => (r, e.1, e.2)))).find? (fun x =>
      (s.liveEntries n (fun e => e.st.holdsStream && e.ofStream pid x.2.2.localEp.toNat x.2.2.stream.toNat)) != [])

def effProbetoExpiry (n : Nat) (pid : BitVec 20) (s : State) : State :=
  match s.partner n pid.toNat with
  | none => s
  | some p =>
    match s.activeRecord n pid.toNat with
    | none => s
    | some (r, i, e) =>
      if p.st ≠ .present then s
      else match p.probeSent with
        | none =>
          if p.lastArrival + s.probeTo ≤ s.now then
            (s.modPartner n pid.toNat (fun p => { p with probeSent := some s.now })).sendHw e.localEp.toNat pid.toNat 0x12 e.stream.toNat 0
              (txnOf r i e.gen.toNat)
          else s
        | some t => if t + s.probeTo ≤ s.now then s.modPartner n pid.toNat (fun p => { p with st := .suspect, since := s.now, probeSent := none }) else s

/-- PROBETO_EXPIRY (R125). -/
def execProbetoExpiry (n : Fin 64) (pid : BitVec 20) (s : State) : Host.Outcome State Fault Refusal := .next (effProbetoExpiry n pid s)

def effPlosttoExpiry (n : Nat) (pid : BitVec 20) (s : State) : State :=
  match s.partner n pid.toNat with
  | some p => if p.st = .suspect ∧ p.since + s.plostTo ≤ s.now then s.losePartner n pid.toNat else s
  | none => s

/-- PLOSTTO_EXPIRY (R125). -/
def execPlosttoExpiry (n : Fin 64) (pid : BitVec 20) (s : State) : Host.Outcome State Fault Refusal := .next (effPlosttoExpiry n pid s)

/-- A partner's endpoint closed: LOST on every shelf that caches it. -/
def State.loseEverywhere (s : State) (pid : Nat) : State :=
  foldS (List.range 64) (fun s n => match s.partner n pid with
    | some p => if p.st = .lost then s else s.losePartner n pid
    | none => s) s

/-- A device has left the system: its partners are LOST (Table 4.9, R127). -/
def State.deviceLeaves (s : State) (d : Nat) : State :=
  foldS (List.range 64) (fun s n => foldS ((s.shelf n).partners.filter (fun p => pidDev p.pid.toNat == d && p.st != .lost))
    (fun s p => s.losePartner n p.pid.toNat) s) s

end Sys2Proof.Machine
end

