-- ==== Sys2Proof/Machine/Links.lean ====
section
/-! DEFINITION. Links: flits, credit, retry (R107 to R112), training and link states (R113 to R117), and their rows. -/

namespace Sys2Proof.Machine

/-! ## Link down and up (R115 to R117) -/

/-- The queue of the serving shelf that feeds a link. -/
def State.feedQueue (s : State) (l : Nat) : Nat := (Config.linkQueue l (s.onAlt l)).toNat

/-- Link state with the time of entry. -/
def Link.goto (k : Link) (st : LinkSt) (now : Nat) : Link :=
  { k with st := st, since := now, reached := k.reached || st == .active || st == .failed }

/-- RATE of LK_CFG. -/
def State.rateCfg (s : State) (l : Nat) : Nat := getF s (.lkCfg l) 62 61

/-- A link port enters a state; in DETECT the attempt has the rate that RATE then gives, AUTO falling back to 53.125 GBd (R114). -/
def State.linkGoto (s : State) (l : Nat) (st : LinkSt) : State :=
  s.modLink l (fun k => { k.goto st s.now with slow := if st = .detect then s.rateCfg l == 1 || (s.rateCfg l == 0 && k.fell) else k.slow })

/-! ## Transmitter equalisation (R104, R105) -/

/-- Tap weights c(-2), c(-1), c(+1) of Table 4.2, in hundredths. -/
def presetTable : List (Int × Int × Int) :=
  [(0, 0, 0), (0, -5, -5), (0, -10, -5), (2, -15, -5), (3, -20, -8), (5, -25, -10), (5, -30, -5), (8, -30, -12)]

/-- The four taps of a preset in units of 1/1600: c(0) is 1 less the magnitudes of the others (R105). -/
def presetTaps (p : BitVec 3) : List Int :=
  let t := presetTable.getD p.toNat (0, 0, 0)
  [16 * t.1, 16 * t.2.1, 1600 - 16 * (t.1.natAbs + t.2.1.natAbs + t.2.2.natAbs), 16 * t.2.2]

/-- Taps after steps of 1/64 from a preset (Table 4.1). -/
def stepTaps (p : BitVec 3) (steps : List Int) : List Int :=
  (presetTaps p).zipWith (fun c n => c + 25 * n) (steps ++ [0, 0, 0, 0])

/-- EQ begins: training starts at PRESET of LK_CFG (R105). -/
def State.toEq (s : State) (l : Nat) : State :=
  let p := BitVec.ofNat 3 (getF s (.lkCfg l) 60 58)
  (s.linkGoto l .eq).modLink l (fun k => { k with preset := p, taps := presetTaps p })

/-- What the block drives to the PHY of a link (Table 18.3): the rate (true for 56.25 GBd), the preset, the offsets of c(-2), c(-1), c(+1)
from it in steps of 1/64, precoding. -/
structure LinkPins where
  rate : Bool
  txPreset : BitVec 3
  txOfs : List Int
  prec : Bool
  deriving DecidableEq, Repr

/-- The PHY signals of link `l` (R427). -/
def State.linkPins (s : State) (l : Nat) : LinkPins :=
  let k := s.link l
  let d := k.taps.zipWith (fun a b => (a - b) / 25) (presetTaps k.preset)
  { rate := !k.slow, txPreset := k.preset, txOfs := d.take 2 ++ d.drop 3, prec := k.precode }

/-! ## Link management packets (R80, R127; log entry 7) -/

/-- The contents of a message as numbers. -/
def MgmtMsg.nums : MgmtMsg → List Nat
  | .elect r d => [0, r.toNat, d]
  | .discover p => 1 :: p.map (·.toNat)
  | .discovered p r ls => [2, p.length] ++ p.map (·.toNat) ++ r.toNat :: ls.flatMap (fun x => [x.1, x.2.toNat])
  | .idassign p d => [3, d.toNat] ++ p.map (·.toNat)
  | .idReply p d => [4, d.toNat] ++ p.map (·.toNat)
  | .epclose d e => [5, d.toNat, e.toNat]
  | .access t wr o v => [6, b2n wr, o, v.toNat] ++ (match t with | .path h => h.map (·.toNat) | .device d => [d.toNat] | .here => [])
  | .accessReply st v => [7, st.toNat, v.toNat]

/-- The path by which a message is routed; none for one that goes to a device. -/
def MgmtMsg.path : MgmtMsg → Option (List Byte)
  | .discover p => some p
  | .discovered p _ _ => some p
  | .idassign p _ => some p
  | .idReply p _ => some p
  | .access (.path h) _ _ _ => some (h.map (fun x => byteOf x.toNat))
  | _ => none

/-- The packet of a message on link `l`: routed by its path, or while ids do not exist at both ends, under 0xF_FF00; else from this device to
the device named or to the far end. -/
def State.mgmtPacket (s : State) (l : Nat) (m : MgmtMsg) : Packet :=
  let k := s.link l
  let hdr : Nat × Nat × Nat := match m.path with
    | some h => (h.length, pathPid, pathPid)
    | none => if s.sys.idv && k.farIdv then
        (match m with
          | .access (.device d) _ _ _ => (((s.route d.toNat).map (·.2)).getD 1, s.sys.devId.toNat * 256, d.toNat * 256)
          | _ => (1, s.sys.devId.toNat * 256, k.peerDev.toNat * 256))
      else (0, pathPid, pathPid)
  let b := (Config.mgmtBytes m.nums).take 256
  let p : Packet := { w0 := place 63 56 hdr.1 ||| place 55 36 hdr.2.1 ||| place 35 16 hdr.2.2 ||| place 7 0 (0x30 + (Config.mgmtCode m.nums).toNat)
                      w1 := 0, w2 := place 13 0 b.length, w3 := 0, payload := b, pcrc := 0, tag := 0 }
  let q := p.fixHchk
  { q with pcrc := pcrcOf q b }

/-- Hand a management packet to the port of link `l`, where it travels on channel 3 (R108). -/
def State.sendMgmt (s : State) (l : Nat) (m : MgmtMsg) : State :=
  (s.emit (.link l m)).modLink l (fun k => { k with txq := k.txq ++ [{ vc := 3, bytes := (s.mgmtPacket l m).bytes }] })

/-- The link port and the steward react to link down (R116); `next` is the state the port enters. -/
def State.linkDown (s : State) (l : Nat) (next : LinkSt) : State :=
  let n := s.servingShelf l
  let k := s.link l
  let lost := k.txq.length + k.respq.length + k.fwdq.length + k.heldOut.length
  let s := (s.linkGoto l next).modLink l (fun k => { k with
    retryBuf := []
    rewind := none
    reqSent := none
    reqWanted := false
    txq := []
    respq := []
    fwdq := []
    heldOut := []
    farIdv := false
    abortWanted := []
    rxPart := []
    rxFlits := []
    ldCount := BitVec.ofNat 16 (satAdd 65535 k.ldCount.toNat 1)
    rate := 0 })
  let s := bumpF s (.lkCnt l) 15 0 lost
  let s := s.qFlush n (s.feedQueue l)
  let s := s.checkReach
  let s := foldS (List.range 64) (fun s u => s.linkLoss u l) s
  let s := s.treeDown l
  (s.raise n (32 + s.servedIndex l)).sysresetGo

/-- Credits of each channel that a CE-1024 receiver advertises in PARAM (R110). -/
def rxCredits : List Nat := [128, 32, 32, 16]

/-- This end's part of the exchange in PARAM (Table 4.6): its error rate is what its own FEC has measured, an open value. -/
def State.sendParam (s : State) (l : Nat) : State :=
  (s.emit (.param l s.fuses.serial (if s.sys.idv then some s.sys.devId else none) rxCredits s.free)).drawn

/-- Codeword and flit alignment are fixed: where the next flit starts within its codeword is open (R106, log entry 108). -/
def State.aligned (s : State) (l : Nat) : State :=
  (s.modLink l (fun k => { k with cwPos := s.free.toNat % 5140, cwBad := false })).drawn

/-- BURST of the link bucket, in sixteenths of a byte (R121). -/
def linkBurst (s : State) (l : Nat) : Nat := getF s (.lkDamp l) 55 48 * 16384

/-- ELECT on a link (R127). -/
def State.sendElect (s : State) (l : Nat) : State := s.sendMgmt l (.elect s.sys.rootSer s.sys.dist)

/-- ELECT on every ACTIVE link. -/
def State.electAll (s : State) : State := foldS ((List.range 256).filter (fun l => (s.link l).st == .active)) State.sendElect s

/-- Link up (R117), with ELECT on each ACTIVE link (R127). Partners that were SUSPECT stay so until something arrives. A link whose EN has been
cleared since goes down at once (R115: Table 4.6 names no way to DISABLED before ACTIVE). -/
def State.linkUp (s : State) (l : Nat) (p : LinkParam) : State :=
  let s := s.modLink l (fun k => { k.goto .active s.now with
    peerSerial := some p.serial
    peerDev := p.devId
    peerIdv := p.idv
    farIdv := p.idv
    peerLink := p.link
    isol := false
    rate := if k.slow then 1 else 2
    rxExp := 0
    txNext := 0
    credits := tset 0 (tset 0 (tset 0 (tset 0 [] 0 p.credCmd) 1 p.credRsp) 2 p.credGlb) 3 p.credMgt
    lastCred := []
    freed := []
    credRot := 0
    uncorrAt := []
    lastValid := s.now
    bucket := linkBurst s l
    bucketAt := s.now })
  let s := s.electAll.raise (s.servingShelf l) (40 + s.servedIndex l)
  if getB s (.lkCfg l) 63 then s else s.linkDown l .disabled

/-! ## Receiving flits -/

/-- Header of a flit (Table 4.3). -/
def flitHdr (f : List Byte) : Nat := natIn f 0 4
def flitSeq (f : List Byte) : Nat := flitHdr f / 2 ^ 20
def flitType (f : List Byte) : Nat := flitHdr f / 2 ^ 16 % 16
def flitCvc (f : List Byte) : Nat := flitHdr f / 2 ^ 14 % 4
def flitCred (f : List Byte) : Nat := flitHdr f / 2 ^ 8 % 64
def flitAck (f : List Byte) : Nat := flitHdr f % 256
def flitBody (f : List Byte) : List Byte := slice f 4 248

/-- The CRC of a flit holds and its FTYPE is not reserved (R107, Table 4.4). -/
def flitOk (f : List Byte) : Bool :=
  (crc32 (f.take 252)).toNat == natIn f 252 4 && flitType f != 3 && decide (flitType f < 12)

/-- Apply the credit report and the ACK field of a good flit (R110, R111). -/
def Link.report (k : Link) (f : List Byte) : Link :=
  let c := flitCvc f
  let old := tget 0 k.lastCred c
  let add := (flitCred f + 64 - old) % 64
  let a := flitAck f
  let freedTo := (k.retryBuf.map (fun e => e.1 % 256)).idxOf? a
  { k with
    credits := tmod 0 k.credits c (· + add)
    lastCred := tset 0 k.lastCred c (flitCred f)
    retryBuf := match freedTo with | some i => k.retryBuf.drop (i + 1) | none => k.retryBuf }

/-- A flit that is discarded asks for RETRY-REQ unless a request for the expected FSEQ is out (R111). -/
def Link.discard (k : Link) : Link := match k.reqSent with
  | some (e, _, _) => if e = k.rxExp.toNat then k else { k with reqWanted := true }
  | none => { k with reqWanted := true }

/-- Packet bytes of a virtual channel cut into packets (R109): the packets that ended, and what is in progress. -/
def feed : Nat → List Byte → List Byte → List (List Byte) → List (List Byte) × List Byte
  | 0, part, _, out => (out, part)
  | k + 1, part, rest, out =>
    if part = [] then
      if rest.length < 32 ∨ (rest.take 8).all (· == 0) then (out, [])
      else
        let n := 56 + fld (wordIn rest 16) 13 0
        if rest.length < n then (out, rest) else feed k [] (rest.drop n) (out ++ [rest.take n])
    else
      let n := 56 + fld (wordIn part 16) 13 0
      let need := n - part.length
      if rest.length < need then (out, part ++ rest) else feed k [] (rest.drop need) (out ++ [part ++ rest.take need])

/-- The first packet with an id that the far end itself has built tells that it holds one, where it held none at link up (log entry 61). -/
def Link.heardId (k : Link) (p : Packet) : Link :=
  if k.farIdv || p.byPath || !(cmdClass p.cmd == some .global || cmdClass p.cmd == some .management) then k
  else { k with farIdv := true, peerDev := BitVec.ofNat 12 (pidDev p.src) }

/-- Arrival checks 1 to 3 (Table 3.4) of a packet that is whole; a packet that passes enters the receive buffer. -/
def State.arrive (s : State) (l vc flits : Nat) (b : List Byte) : State :=
  let p := packetOf b
  let n := s.servingShelf l
  let free := fun (s : State) => s.modLink l (fun k => { k with freed := tmod 0 k.freed vc (· + flits) })
  if p.hchk ≠ hchkOf p.w0 p.w1 p.w2 then free (s.hchkErr n)
  else if formatOk p = false then free (s.fmtErr n)
  else if p.hops = 0 ∧ p.byPath = false ∧ pidDev p.dst ≠ s.sys.devId.toNat then free (s.hopErr n)
  else s.modLink l (fun k => ({ k with rxFifo := k.rxFifo ++ [{ vc := vc, pkt := p, flits := flits }] } : Link).heardId p)

/-- Take the payload of a DATA flit of a channel. -/
def State.takeData (s : State) (l vc : Nat) (body : List Byte) : State :=
  let k := s.link l
  let r := feed 16 (tget [] k.rxPart vc) body []
  let held := tget 0 k.rxFlits vc + 1
  let s := s.setLink l { k with
    rxPart := tset [] k.rxPart vc r.2
    rxFlits := tset 0 k.rxFlits vc (if r.1 = [] ∧ r.2 ≠ [] then held else 0)
    freed := if r.1 = [] ∧ r.2 = [] then tmod 0 k.freed vc (· + held) else k.freed }
  (r.1.zipIdx).foldl (fun s x => s.arrive l vc (if x.2 + 1 = r.1.length then held else 0) x.1) s

/-- Message bits of a codeword, and bits of a flit (R104, R106, R107). -/
def cwBits : Nat := 5140
def flitBits : Nat := 2048

/-- A codeword begins in the next flit. -/
def Link.cwStarts (k : Link) : Bool := k.cwPos == 0 || decide (cwBits < k.cwPos + flitBits)

/-- The flit stream goes on by one flit; `ok` tells whether FEC corrected the codeword that begins in it. A codeword that is not correctable
fails every flit that it overlaps (R106). -/
def Link.codewords (k : Link) (ok : Bool) : Link :=
  let fresh := k.cwStarts && !ok
  let ends := decide (cwBits ≤ k.cwPos + flitBits)
  { k with
    cwPos := (k.cwPos + flitBits) % cwBits
    cwBad := if k.cwPos + flitBits = cwBits then false else if ends then fresh else k.cwBad || fresh }

/-- FEC corrected every codeword that the next flit overlaps. -/
def Link.fecPasses (k : Link) (ok : Bool) : Bool := !(k.cwBad && k.cwPos != 0) && (ok || !k.cwStarts)

/-- Uncorrectable codewords within 1 ms (R115). -/
def State.uncorrectable (s : State) (l : Nat) : State :=
  let s := bumpF s (.lkCnt l) 47 32 1
  let recent := ((s.link l).uncorrAt ++ [s.now]).filter (fun t => s.now < t + 1000000)
  let s := s.modLink l (fun k => { k with uncorrAt := recent })
  if 8 ≤ recent.length ∧ (s.link l).st = .active then s.linkDown l .retrain else s

/-- A SYNC: the link delay from the four times (R132, log entry 19). -/
def Link.gotSync (k : Link) (now : Nat) (f : List Byte) : Link :=
  let t3 := natIn f 4 8
  let t2 := natIn f 12 8
  let trip := (now - k.syncTx) - (t3 - t2)
  { k with syncRx := now, delay := if t2 = 0 then k.delay else trip / 2 }

/-- A flit of an ACTIVE link that passed its checks. -/
def State.goodFlit (s : State) (l : Nat) (f : List Byte) : State :=
  let t := flitType f
  let s := s.modLink l (fun k => { (k.report f) with lastValid := s.now })
  if 4 ≤ t then
    if flitSeq f ≠ (s.link l).rxExp.toNat then s.modLink l Link.discard
    else
      let s := s.modLink l (fun k => { k with rxExp := k.rxExp + 1, reqSent := none, reqWanted := false })
      if t < 8 then s.takeData l (t - 4) (flitBody f)
      else s.modLink l (fun k => { k with
        rxPart := tset [] k.rxPart (t - 8) []
        freed := tmod 0 k.freed (t - 8) (· + tget 0 k.rxFlits (t - 8))
        rxFlits := tset 0 k.rxFlits (t - 8) 0 })
  else if t = 1 then
    let e := natIn f 4 2 % 4096
    s.modLink l (fun k => match (k.retryBuf.map (·.1)).idxOf? e with
      | some i => { k with retryBuf := k.retryBuf.drop i, rewind := some (BitVec.ofNat 12 e) }
      | none => if e = k.txNext.toNat then { k with retryBuf := [], rewind := none } else k)
  else if t = 2 then s.modLink l (fun k => k.gotSync s.now f)
  else s

/-- A flit that passed its checks, in PARAM or ACTIVE. -/
def State.flitGood (s : State) (l : Nat) (ty : Nat → Bool) (f : List Byte) : State :=
  if flitOk f = false then (if (s.link l).st = .active then s.modLink l Link.discard else s)
  else if ty (flitType f) = false then s
  else if (s.link l).st = .active then s.goodFlit l f
  else if flitType f = 2 then s.modLink l (fun k => k.gotSync s.now f)
  else s

/-- A flit arrives; `ok` tells whether FEC corrected the codeword that begins in it, if one does (R106), `ty` is the row's FTYPE. Each codeword
that is not correctable counts once (R115). -/
def State.flitIn (s : State) (l : Nat) (ty : Nat → Bool) (f : List Byte) (ok : Bool) : State :=
  let k := s.link l
  if k.st ≠ .param ∧ k.st ≠ .active then s
  else
    let t := s.modLink l (fun k => k.codewords ok)
    if k.fecPasses ok then t.flitGood l ty f
    else
      let t := if k.st = .active then t.modLink l Link.discard else t
      if k.cwStarts && !ok then t.uncorrectable l else t

/-- The row of a flit type; a flit is 256 bytes (R107). -/
def State.flitRow (s : State) (l : Nat) (ty : Nat → Bool) (f : List Byte) (ok : Bool) : State :=
  (s.drawnFor 256 f).flitIn l ty (s.fit 256 f) ok

/-- DATA_FLIT (R109). -/
def execDataFlit (l : Fin 256) (flit : List Byte) (fecOk : Bool) (s : State) : Host.Outcome State Fault Refusal :=
  .next (s.flitRow l (fun t => decide (4 ≤ t ∧ t < 8)) flit fecOk)

/-- IDLE_FLIT (R107). -/
def execIdleFlit (l : Fin 256) (flit : List Byte) (fecOk : Bool) (s : State) : Host.Outcome State Fault Refusal :=
  .next (s.flitRow l (fun t => decide (t = 0)) flit fecOk)

/-- RETRY_REQ (R111). -/
def execRetryReq (l : Fin 256) (flit : List Byte) (fecOk : Bool) (s : State) : Host.Outcome State Fault Refusal :=
  .next (s.flitRow l (fun t => decide (t = 1)) flit fecOk)

/-- SYNC (R132). -/
def execSync (l : Fin 256) (flit : List Byte) (fecOk : Bool) (s : State) : Host.Outcome State Fault Refusal :=
  .next (s.flitRow l (fun t => decide (t = 2)) flit fecOk)

/-- ABORT (R112). -/
def execAbort (l : Fin 256) (flit : List Byte) (fecOk : Bool) (s : State) : Host.Outcome State Fault Refusal :=
  .next (s.flitRow l (fun t => decide (8 ≤ t ∧ t < 12)) flit fecOk)

def effRetryReqRepeat (l : Nat) (s : State) : State :=
  let k := s.link l
  match k.reqSent with
  | some (e, c, t) =>
    if k.st = .active ∧ e = k.rxExp.toNat ∧ c < 16 ∧ t + 2000 ≤ s.now then s.modLink l (fun k => { k with reqWanted := true }) else s
  | none => s

/-- RETRY_REQ_REPEAT (R111): the next flit slot repeats the request. -/
def execRetryReqRepeat (l : Fin 256) (s : State) : Host.Outcome State Fault Refusal := .next (effRetryReqRepeat l s)

/-! ## Sending flits -/

/-- The 256 bytes of a flit with the credit report and ACK of this moment. -/
def Link.flit (k : Link) (fseq ftype : Nat) (body : List Byte) : List Byte :=
  let hdr := fseq % 4096 * 2 ^ 20 + ftype * 2 ^ 16 + k.credRot % 4 * 2 ^ 14 + tget 0 k.freed (k.credRot % 4) % 64 * 2 ^ 8 + (k.rxExp.toNat + 255) % 256
  let b := leBytes 4 hdr ++ padTo 248 body
  b ++ leBytes 4 (crc32 b).toNat

/-- Emit a flit; the credit report turns to the next channel. -/
def State.putFlit (s : State) (l fseq ftype : Nat) (body : List Byte) : State :=
  (s.emit (.flit l ((s.link l).flit fseq ftype body))).modLink l (fun k => { k with credRot := (k.credRot + 1) % 4 })

/-- Payload of the next DATA flit of a channel: packets follow one another; one starts only where 32 bytes are left (R109). The result is
the payload, the packets of the port after it, and those whose last byte it holds. -/
def fillFlit : Nat → Nat → Nat → List TxPkt → List Byte → List Byte × List TxPkt × List TxPkt
  | 0, _, _, q, _ => ([], q, [])
  | k + 1, vc, room, q, _ =>
    match q.find? (fun x => x.vc == vc) with
    | none => ([], q, [])
    | some x =>
      if x.sent = 0 ∧ room < 32 then ([], q, [])
      else
        let part := slice x.bytes x.sent (min room (x.bad.getD x.bytes.length - x.sent))
        let m := part.length
        if x.sent + m < x.bytes.length then
          (part, changeFirst x { x with sent := x.sent + m } q, [])
        else
          let r := fillFlit k vc (room - m) (dropFirst (fun y => y.vc == vc) q) []
          (part ++ r.1, r.2.1, x :: r.2.2)

/-- The port has met the packet's poison mark (Table 12.3). -/
def TxPkt.marked (x : TxPkt) : Bool := match x.bad with | some o => decide (o ≤ x.sent) | none => false

/-- A packet whose poison mark the port has met ends with ABORT (R112, Table 12.3). -/
def Link.abortMarked (k : Link) : Link :=
  { k with txq := k.txq.filter (fun x => !x.marked), abortWanted := k.abortWanted ++ (k.txq.filter TxPkt.marked).map (·.vc) }

/-- A packet left whole: a ledger-class packet of this device is noted at its ORIGIN entry (Table 2.4). -/
def State.handedWhole (s : State) (x : TxPkt) : State :=
  let p := packetOf x.bytes
  if x.vc = 0 ∧ cmdClass p.cmd = some .ledger ∧ pidDev p.src = s.sys.devId.toNat then
    let r := txnShelf p.txn
    let i := txnIdx p.txn
    if (s.ent r i).gen.toNat = txnGen p.txn then
      s.modVol r i (fun v => { v with handed := if v.handed.contains (BitVec.ofNat 48 p.seq) then v.handed else v.handed ++ [BitVec.ofNat 48 p.seq] })
    else s
  else s

/-- Channels in order of priority (R108). -/
def vcOrder : List Nat := [3, 1, 2, 0]

/-- The channel that sends next: it holds a packet and credit. -/
def Link.nextVc (k : Link) : Option Nat := vcOrder.find? (fun v => k.txq.any (fun x => x.vc == v) && decide (0 < tget 0 k.credits v))

/-- The flit that a rewind sends next: the one at its pointer, or, where an ACK has freed that one meanwhile, the oldest that is left. -/
def Link.resendNext (k : Link) : Option (Nat × Nat × List Byte) :=
  match k.rewind with
  | some e => (k.retryBuf.find? (fun x => x.1 == e.toNat)) <|> k.retryBuf.head?
  | none => none

def effFlitSend (l : Nat) (s : State) : State :=
  let s := s.modLink l Link.abortMarked
  let k := s.link l
  if k.st = .param then
    (s.putFlit l k.txNext.toNat 2 (leBytes 8 s.now ++ leBytes 8 k.syncRx)).modLink l (fun k => { k with syncTx := s.now })
  else if k.st ≠ .active then s
  else if k.reqWanted then
    let c := match k.reqSent with | some (e, c, _) => if e = k.rxExp.toNat then c + 1 else 1 | none => 1
    let s := bumpF (s.putFlit l k.txNext.toNat 1 (leBytes 2 k.rxExp.toNat)) (.lkCnt l) 63 48 1
    let s := s.modLink l (fun x => { x with reqWanted := false, reqSent := some (k.rxExp.toNat, c, s.now) })
    if 16 ≤ c then s.linkDown l .retrain else s
  else match k.resendNext with
    | some (f, t, b) =>
      (s.putFlit l f t b).modLink l (fun x => { x with
        rewind := if x.txNext = BitVec.ofNat 12 (f + 1) then none else some (BitVec.ofNat 12 (f + 1)) })
    | none =>
      let s := s.modLink l (fun x => { x with rewind := none })
      if 255 ≤ k.retryBuf.length then s.putFlit l k.txNext.toNat 0 []
      else match k.abortWanted with
        | v :: t =>
          let s := s.putFlit l k.txNext.toNat (8 + v) []
          s.modLink l (fun x => { x with abortWanted := t, txNext := x.txNext + 1, retryBuf := x.retryBuf ++ [(k.txNext.toNat, 8 + v, [])] })
        | [] =>
          match k.nextVc with
          | some v =>
            let r := fillFlit 8 v 248 k.txq []
            let s := s.putFlit l k.txNext.toNat (4 + v) r.1
            let s := s.modLink l (fun x => { x with
              txq := r.2.1
              txNext := x.txNext + 1
              retryBuf := x.retryBuf ++ [(k.txNext.toNat, 4 + v, r.1)]
              credits := tmod 0 x.credits v (· - 1) })
            (foldS r.2.2 State.handedWhole s).sysresetGo
          | none => s.putFlit l k.txNext.toNat 0 []

/-- FLIT_SEND (R108 to R111). -/
def execFlitSend (l : Fin 256) (s : State) : Host.Outcome State Fault Refusal := .next (effFlitSend l s)

/-! ## Link states (Table 4.6) -/

/-- TREE of LK_CFG written: TREEOK is set by a write of TREE roles (Table 4.13), one that gives a role or changes it (log entry 127). -/
def treeWrite (old new : Word) (s : State) : State :=
  if fld new 56 55 ≠ 0 ∨ fld old 56 55 ≠ fld new 56 55 then s.modSys (fun y => { y with treeOk := true }) else s

/-- Write LK_CFG with what follows: EN going up leads to DETECT, going down takes an ACTIVE link down; the other states have no way out but those
of Table 4.6. RATE counts from the next DETECT, and the write ends a fall-back (R114). In RETIRED, EN stays 0 (R376). -/
def State.writeLkCfg (s : State) (l : Nat) (v : Word) : State :=
  let old := rdReg s (.lkCfg l)
  let new := regWrite (Reg.fields (.lkCfg l)) (if s.fuses.lc = 3 then v &&& ~~~ bitIf 63 true else v) (BitVec.allOnes 64) old
  let s := treeWrite old new (wrReg s (.lkCfg l) new)
  let s := s.modLink l (fun k => { k with fell := false })
  let st := (s.link l).st
  if bitAt new 63 = true ∧ st = .disabled then s.linkGoto l .detect
  else if bitAt new 63 = false ∧ st = .active then s.linkDown l .disabled
  else s

def effLinkEnable (who : Party) (l : Nat) (v : Word) (s : State) : State :=
  s.gateWrite who (.lkCfg l) v (fun s => s.writeLkCfg l v)

/-- LINK_ENABLE (R113). -/
def execLinkEnable (who : Party) (l : Fin 256) (v : Word) (s : State) : Host.Outcome State Fault Refusal := .next (effLinkEnable who l v s)

def effLinkDisable (who : Party) (l : Nat) (v : Word) (s : State) : State :=
  s.gateWrite who (.lkCfg l) v (fun s => s.writeLkCfg l v)

/-- LINK_DISABLE (R115). -/
def execLinkDisable (who : Party) (l : Fin 256) (v : Word) (s : State) : Host.Outcome State Fault Refusal := .next (effLinkDisable who l v s)

/-- Move a link from state `a` to state `b`. -/
def State.linkFrom (s : State) (l : Nat) (a b : LinkSt) : State :=
  if (s.link l).st = a then s.linkGoto l b else s

/-- Move a link from state `a` to `b` once it has been there for `ns`. -/
def State.linkAfter (s : State) (l : Nat) (a b : LinkSt) (ns : Nat) : State :=
  if (s.link l).since + ns ≤ s.now then s.linkFrom l a b else s

/-- SYMBOL_LOCK (R113). -/
def execSymbolLock (l : Fin 256) (s : State) : Host.Outcome State Fault Refusal := 
  .next (if (s.link l).st = .detect then s.toEq l else s)

def effEqDone (l : Nat) (preset : BitVec 3) (steps : List Int) (precode : Bool) (s : State) : State :=
  if (s.link l).st = .eq then
    (s.linkGoto l .lock).modLink l (fun k => { k with
      preset := preset
      taps := stepTaps preset steps
      precode := precode && getB s (.lkCfg l) 57 })
  else s

/-- EQ_DONE (R113): the preset and the steps of each tap that the far end's receiver asked for, and its choice of precoding. -/
def execEqDone (l : Fin 256) (tx : TxRequest) (precode : Bool) (s : State) : Host.Outcome State Fault Refusal :=
  .next (effEqDone l tx.preset tx.steps precode s)

/-- FAILED: a failure at 56.25 GBd under AUTO makes the next attempt 53.125 GBd (R114). -/
def State.linkFail (s : State) (l : Nat) (a : LinkSt) (ns : Nat) : State :=
  let k := s.link l
  if k.st = a ∧ k.since + ns ≤ s.now then
    (s.linkGoto l .failed).modLink l (fun k => { k with fell := k.fell || s.rateCfg l == 0 })
  else s

/-- EQ_TIMEOUT (R113). -/
def execEqTimeout (l : Fin 256) (s : State) : Host.Outcome State Fault Refusal := .next (s.linkFail l .eq 60000000)

/-- LOCK_DONE (R113). -/
def execLockDone (l : Fin 256) (s : State) : Host.Outcome State Fault Refusal := 
  .next (if (s.link l).st = .lock then ((s.linkGoto l .param).aligned l).sendParam l else s)

/-- LOCK_TIMEOUT (R113). -/
def execLockTimeout (l : Fin 256) (s : State) : Host.Outcome State Fault Refusal := .next (s.linkFail l .lock 1000000)

/-- Either error rate above 2 in 10^4 (R114), in symbols per 10^9. -/
def tooManyErrors (p : LinkParam) : Bool := decide (200000 < p.ownErr ∨ 200000 < p.farErr)

/-- PARAM ends: a serial other than the one of the last link up leads to DETECT, too many errors at 56.25 GBd under AUTO to DETECT at
53.125 GBd, anything else to ACTIVE (R114, R115). -/
def effParamExchange (l : Nat) (p : LinkParam) (s : State) : State :=
  let k := s.link l
  if k.st ≠ .param ∨ s.linkHoused l = false then s
  else if k.peerSerial ≠ none ∧ k.peerSerial ≠ some p.serial then (s.linkGoto l .detect).modLink l (fun k => { k with peerSerial := none })
  else if tooManyErrors p = true ∧ k.slow = false ∧ s.rateCfg l = 0 then (s.modLink l (fun k => { k with fell := true })).linkGoto l .detect
  else s.linkUp l p

/-- PARAM_EXCHANGE (R114, R117). -/
def execParamExchange (l : Fin 256) (p : LinkParam) (s : State) : Host.Outcome State Fault Refusal := .next (effParamExchange l p s)

/-- PARAM_TIMEOUT (R113). -/
def execParamTimeout (l : Fin 256) (s : State) : Host.Outcome State Fault Refusal := .next (s.linkFail l .param 100000)

def effRetrainDone (l : Nat) (p : LinkParam) (s : State) : State :=
  let k := s.link l
  if k.st ≠ .retrain ∨ s.linkHoused l = false then s
  else if k.peerSerial ≠ none ∧ k.peerSerial ≠ some p.serial then (s.linkGoto l .detect).modLink l (fun k => { k with peerSerial := none })
  else (((s.aligned l).sendParam l)).linkUp l p

/-- RETRAIN_DONE (R113, R115). -/
def execRetrainDone (l : Fin 256) (p : LinkParam) (s : State) : Host.Outcome State Fault Refusal := .next (effRetrainDone l p s)

/-- RETRAIN_TIMEOUT (R113). -/
def execRetrainTimeout (l : Fin 256) (s : State) : Host.Outcome State Fault Refusal := 
  .next (if (s.link l).st = .retrain ∧ (s.link l).since + 2000000 ≤ s.now then s.toEq l else s)

/-- FAILED_TIMEOUT (R113). -/
def execFailedTimeout (l : Fin 256) (s : State) : Host.Outcome State Fault Refusal := .next (s.linkAfter l .failed .detect 10000000)

def effLossOfSignal (l : Nat) (s : State) : State := if (s.link l).st = .active then s.linkDown l .retrain else s

/-- LOSS_OF_SIGNAL (R115). -/
def execLossOfSignal (l : Fin 256) (s : State) : Host.Outcome State Fault Refusal := .next (effLossOfSignal l s)

def effFlitSilenceTimeout (l : Nat) (s : State) : State :=
  if (s.link l).st = .active ∧ (s.link l).lastValid + 2000 ≤ s.now then s.linkDown l .detect else s

/-- FLIT_SILENCE_TIMEOUT (R115). -/
def execFlitSilenceTimeout (l : Fin 256) (s : State) : Host.Outcome State Fault Refusal := .next (effFlitSilenceTimeout l s)

end Sys2Proof.Machine
end

