-- ==== Sys2Proof/Machine/Arrivals.lean ====
section
/-! DEFINITION. Arriving packets: steering, damper validation (R120, R123), the target's sequence procedure (R60, R81), replies (R61), stream
commands (R444), forwarding (R119); and the outbound damper (R53, R121, R122). -/

namespace Sys2Proof.Machine

/-! ## Arrival -/

/-- The first packet of a channel of link `l` whose head satisfies `f`. -/
def State.rxHead (s : State) (l : Nat) (f : Packet → Bool) : Option RxPkt :=
  [0, 1, 2, 3].findSome? (fun v => match (s.link l).rxFifo.find? (fun x => x.vc == v) with
    | some x => if f x.pkt then some x else none
    | none => none)

/-- The packet is for this device (check 4 of Table 3.4): by its DST device, or routed by its path with no hop left (R80). -/
def State.forMe (s : State) (p : Packet) : Bool := if p.byPath then p.hops == 0 else pidDev p.dst == s.sys.devId.toNat

/-- DAMPERR of LK_CNT, its event, and the storm limit: 64 within 1 µs (R122). -/
def State.damperr (s : State) (l : Nat) : State :=
  let n := s.servingShelf l
  let s := (bumpF s (.lkCnt l) 31 16 1).raise n 50
  let recent := ((s.link l).damperrAt ++ [s.now]).filter (fun t => s.now < t + 1000)
  let s := s.modLink l (fun k => { k with damperrAt := recent })
  if 64 ≤ recent.length ∧ (s.link l).stormUntil = none then
    (((s.settleLink l).modLink l (fun k => { k with stormUntil := some (s.now + 1000000), damperrAt := [] })).raise n 23).reaction n 1
      (rdReg s (.lkDamp l))
  else s

/-- Outcome of damper validation of an arriving packet at shelf `u` (R123). -/
inductive Valid where
  | pass | fail | waits
  deriving DecidableEq, Repr

def State.damperIn (s : State) (l u : Nat) (x : RxPkt) : State × Valid :=
  let p := x.pkt
  let c := cmdClass p.cmd
  if vcOf p.cmd ≠ x.vc ∨ pidDev p.src = s.sys.devId.toNat then (s, .fail)
  else if (c = some .global ∨ c = some .management) ∧ pidDev p.src ≠ (s.link l).peerDev.toNat then (s, .fail)
  else
    let r := s.findPartner u p.src
    match r.2 with
    | .fetching => (r.1, .waits)
    | a => (r.1, if a.valid then .pass else .fail)

/-- Close a stream after an authority failure (R60): OPEN TARGET entries are discarded, the record ends, and NAK-CLOSED(NEXTIN) goes back
once that has committed (R42). -/
def State.closeStream (s : State) (u rr ri : Nat) : State := ledRun s [.deny u rr ri]

/-- NAK-GAP, at most one in 1 µs for a stream (R60). -/
def State.sendNakGap (s : State) (rr ri next : Nat) : State :=
  let v := s.svol rr ri
  let e := s.ent rr ri
  let allowed := match v.nakGap with | some t => decide (t + 1000 ≤ s.now) | none => true
  if allowed then
    (s.setSvol rr ri { v with nakGap := some s.now }).sendHw e.localEp.toNat e.partner.toNat 0x19 e.stream.toNat next 0
  else s

/-- The packet as it is delivered: its plaintext payload, with LEN, CMP and ENC of a plain packet (log entry 14). -/
def Packet.opened (p : Packet) (plain : List Byte) : Packet :=
  ({ p with w0 := setFld (setFld p.w0 9 9 0) 8 8 0, w2 := setFld p.w2 13 0 plain.length, payload := plain, tag := 0 } : Packet).fixHchk

/-- A new TARGET entry for the first packet of a TXN (R60). CTX and the rings come from the record. -/
def targetEntry (old rec_ : Entry) (p : Packet) : Entry :=
  { role := .target, st := .opened, gen := old.gen + 1, localEp := rec_.localEp, keySlot := BitVec.ofNat 16 p.keySlot,
    eflags := BitVec.ofNat 8 (b2n p.enc + 2 * b2n p.cmp), stream := rec_.stream, partner := rec_.partner, seqFirst := BitVec.ofNat 48 p.seq,
    ackSeq := BitVec.ofNat 48 p.seq - 1, grant := BitVec.ofNat 32 p.grant, cring := rec_.cring, sring := rec_.sring,
    word30 := place 47 0 p.txn, ctx := rec_.ctx }

/-- The sequence procedure of R60 for an in-order or out-of-order packet of record (`rr`, `ri`), with check 6 (R81). -/
def State.sequence (s : State) (l u rr ri : Nat) (x : RxPkt) : State :=
  let p := x.pkt
  let rec_ := s.entNext rr ri
  let v := s.svol rr ri
  let next := (s.ent rr ri).ackSeq.toNat
  if p.seq < v.frontier.toNat then
    let s := (s.takeRx l x.vc).dups u
    if p.ackreq = true ∧ p.seq < next then s.sendHw (pidEp p.dst) p.src 0x18 p.stream p.seq p.txn else s
  else if v.frontier.toNat < p.seq then (s.takeRx l x.vc).sendNakGap rr ri v.frontier.toNat
  else match x.glazed with
    | none => s
    | some .keyBind => (s.takeRx l x.vc).closeStream u rr ri
    | some .tagFail | some .crcFail | some .noKey =>
      let s := ((s.takeRx l x.vc).payErr (s.servingShelf l))
      (ledThen (s.discardOpen u rr ri)).sendNakGap rr ri next
    | some (.ok plain) =>
      let q := p.opened plain
      match s.findOtxn u rec_ p.txn with
      | some (r, i, _) => if s.entBusy r i ∨ (s.ent r i).st ≠ .opened then s else ledThen (s.deliver u rr ri r i q l)
      | none =>
        match s.freeEntry u .target with
        | none => (s.takeRx l x.vc).sendNakGap rr ri v.frontier.toNat
        | some i =>
          let e := targetEntry (s.ent u i) rec_ p
          let g := s.payloadGate u u i e q
          match g.2 with
          | .waits => g.1
          | .refused => (g.1.takeRx l x.vc).closeStream u rr ri
          | .open_ => ledRun (g.1.setVol u i {}) [.commit u [{ region := u, idx := i, entry := e }] [] (some q) l]

/-- A ledger-class packet for this device (R60, R120). A record that is closing takes no further packet; one whose opening has not committed
is not OPEN (R42), so that the packet is dropped. -/
def State.ledgerPacket (s : State) (l : Nat) (x : RxPkt) : State :=
  let p := x.pkt
  let e := pidEp p.dst
  let u := s.epUnit e
  let gone := (s.takeRx l x.vc).dropCnt l
  if getB s (.glEp e) 63 = false then gone
  else
    let r := s.damperIn l u x
    match r.2, r.1.findStream u false p.src e p.stream with
    | .waits, _ => r.1
    | .fail, some (rr, ri) => (r.1.takeRx l x.vc).closeStream u rr ri
    | .fail, none => (r.1.takeRx l x.vc).dropCnt l
    | .pass, none => ((r.1.heardFrom u p.src).takeRx l x.vc).dropCnt l
    | .pass, some (rr, ri) =>
      let s := r.1.heardFrom u p.src
      if (s.svol rr ri).closing then (s.takeRx l x.vc).dropCnt l else s.sequence l u rr ri x

/-- The ledger-class row whose code satisfies `f`. -/
def State.ledgerRow (s : State) (l : Nat) (f : Nat → Bool) : State :=
  match s.rxHead l (fun p => f p.cmd && s.forMe p) with
  | some x => s.ledgerPacket l x
  | none => s

/-- DATA (R60). -/
def execData (l : Fin 256) (s : State) : Host.Outcome State Fault Refusal := .next (s.ledgerRow l (fun c => c == 0x01))

/-- REQUEST (R60, R77). -/
def execRequest (l : Fin 256) (s : State) : Host.Outcome State Fault Refusal := .next (s.ledgerRow l (fun c => c == 0x02))

/-- PROGRAM_COMMAND (R60, R77). -/
def execProgramCommand (l : Fin 256) (s : State) : Host.Outcome State Fault Refusal :=
  .next (s.ledgerRow l (fun c => decide (0x80 ≤ c ∧ c ≤ 0xBF)))

/-! ## Replies at the origin (R61) -/

/-- Damper validation of a reply or stream packet steered to shelf `u`, then `f`; a failing reply is dropped and counted in DAMPERR. -/
def State.validated (s : State) (l u : Nat) (x : RxPkt) (fail : State → State) (f : State → State) : State :=
  let r := s.damperIn l u x
  match r.2 with
  | .waits => r.1
  | .fail => fail (r.1.takeRx l x.vc)
  | .pass => f ((r.1.heardFrom u x.pkt.src).takeRx l x.vc)

/-- Link management logic takes the first packet of channel 3 of link `l` for this device. One routed by its path is not validated: it is of
enumeration, or one of the two ends holds no id (R123, R127). -/
def State.mgmtRow (s : State) (l : Nat) (f : RxPkt → State → State) : State :=
  match s.rxHead l (fun p => cmdClass p.cmd == some .management && s.forMe p) with
  | some x => if x.pkt.byPath then f x (s.takeRx l x.vc) else s.validated l (s.servingShelf l) x (fun s => s.damperr l) (f x)
  | none => s

def State.gotAck (s : State) (u : Nat) (p : Packet) : State :=
  let r := txnShelf p.txn
  let i := txnIdx p.txn
  let e := s.ent r i
  if (s.ledRegions u).contains r = false ∨ e.gen.toNat ≠ txnGen p.txn ∨ e.role ≠ .origin then s.dups u
  else match e.st with
    | .dataDone => if (s.vol r i).heldAck then s.dups u else ledRun (s.modVol r i (fun v => { v with heldAck := true })) [.acked r i]
    | .issued => if (s.vol r i).heldAck then s.dups u else s.modVol r i (fun v => { v with heldAck := true })
    | _ => s.dups u

def effAck (l : Nat) (s : State) : State :=
  match s.rxHead l (fun p => p.cmd == 0x18 && s.forMe p) with
  | some x => let u := s.ledUnit (txnShelf x.pkt.txn); s.validated l u x (fun s => s.damperr l) (fun s => s.gotAck u x.pkt)
  | none => s

/-- ACK (R61). -/
def execAck (l : Fin 256) (s : State) : Host.Outcome State Fault Refusal := .next (effAck l s)

/-- A packet steered by GL_EPe, after the endpoint check of R120; without a record `none` acts. -/
def State.byEndpoint (s : State) (l : Nat) (x : RxPkt) (fail f : Nat → State → State) : State :=
  let e := pidEp x.pkt.dst
  let u := s.epUnit e
  if getB s (.glEp e) 63 = false then (s.takeRx l x.vc).dropCnt l
  else s.validated l u x (fail u) (f u)

def State.gotNakGap (s : State) (u : Nat) (p : Packet) : State :=
  match s.findStream u true p.src (pidEp p.dst) p.stream with
  | none => s
  | some (rr, ri) =>
    foldS (s.streamEntries u true (s.entNext rr ri)) (fun s e =>
      let o := s.ent e.1 e.2.1
      if (o.st = .issued ∨ o.st = .dataDone) ∧ p.seq < o.seqFirst.toNat + o.npkt.toNat then s.retx u o.ctx else s) s

def effNakGap (l : Nat) (s : State) : State :=
  match s.rxHead l (fun p => p.cmd == 0x19 && s.forMe p) with
  | some x => s.byEndpoint l x (fun _ s => s.damperr l) (fun u s => s.gotNakGap u x.pkt)
  | none => s

/-- NAK_GAP (R61). -/
def execNakGap (l : Fin 256) (s : State) : Host.Outcome State Fault Refusal := .next (effNakGap l s)

def State.gotNakClosed (s : State) (u : Nat) (p : Packet) : State :=
  match s.findStream u true p.src (pidEp p.dst) p.stream with
  | none => s
  | some (rr, ri) =>
    let es := (s.streamEntries u true (s.entNext rr ri)).filter (fun e => e.2.2.st.holdsStream)
    let acts := es.map (fun e =>
      if (e.2.2.st = .issued ∨ e.2.2.st = .dataDone) ∧ e.2.2.seqFirst.toNat + e.2.2.npkt.toNat ≤ p.seq then LedAct.acked e.1 e.2.1
      else LedAct.finish e.1 e.2.1 4)
    let s := s.modSvol rr ri (fun v => { v with closing := true })
    ledRun s (acts ++ [.settle u true p.src (pidEp p.dst) p.stream])

def effNakClosed (l : Nat) (s : State) : State :=
  match s.rxHead l (fun p => p.cmd == 0x1A && s.forMe p) with
  | some x => s.byEndpoint l x (fun _ s => s.damperr l) (fun u s => s.gotNakClosed u x.pkt)
  | none => s

/-- NAK_CLOSED (R61). -/
def execNakClosed (l : Fin 256) (s : State) : Host.Outcome State Fault Refusal := .next (effNakClosed l s)

/-- A STREAM-STATE whose TXN names no record of that GEN is a duplicate (R49). -/
def State.gotStreamState (s : State) (u : Nat) (p : Packet) : State :=
  let e := s.ent (txnShelf p.txn) (txnIdx p.txn)
  if (s.ledRegions u).contains (txnShelf p.txn) && e.gen.toNat == txnGen p.txn && e.role == .stream then s else s.dups u

def effStreamState (l : Nat) (s : State) : State :=
  match s.rxHead l (fun p => p.cmd == 0x1B && s.forMe p) with
  | some x => let u := s.ledUnit (txnShelf x.pkt.txn); s.validated l u x (fun s => s.damperr l) (fun s => s.gotStreamState u x.pkt)
  | none => s

/-- STREAM_STATE (R49, R125): a SUSPECT partner that answers is PRESENT again. -/
def execStreamState (l : Fin 256) (s : State) : Host.Outcome State Fault Refusal := .next (effStreamState l s)

/-! ## Stream commands at the target (R444) -/

/-- The record of a STREAM-OPEN at the target: NEXTIN is the SEQ carried. The spec gives no source for CTX, OWNW and the rings, nor for
NEXTOUT of a target's record: they are free values (log entry 20). -/
def targetRecord (old : Entry) (p : Packet) (f : Nat → Word) : Entry :=
  { role := .stream, st := .opened, gen := old.gen + 1, ownw := BitVec.ofNat 4 (f 0).toNat, localEp := BitVec.ofNat 8 (pidEp p.dst),
    keySlot := BitVec.ofNat 16 p.keySlot, stream := BitVec.ofNat 16 p.stream, partner := BitVec.ofNat 20 p.src,
    seqFirst := BitVec.ofNat 48 (f 1).toNat, ackSeq := BitVec.ofNat 48 p.seq, grant := BitVec.ofNat 32 p.grant,
    cring := BitVec.ofNat 16 (f 2).toNat, sring := BitVec.ofNat 16 (f 3).toNat, ctx := BitVec.ofNat 20 (f 4).toNat }

/-- A stream-class packet that fails validation is an authority failure of its stream (R123); without a record it is dropped (R60). -/
def State.badStream (s : State) (l u : Nat) (p : Packet) : State :=
  match s.findStream u false p.src (pidEp p.dst) p.stream with
  | some (rr, ri) => s.closeStream u rr ri
  | none => s.dropCnt l

def State.gotStreamOpen (s : State) (u : Nat) (p : Packet) : State :=
  let ep := pidEp p.dst
  match s.findStream u false p.src ep p.stream with
  | some (rr, ri) => s.sendHw ep p.src 0x1B p.stream (s.entNext rr ri).ackSeq.toNat p.txn
  | none =>
    match s.freeEntry u .stream with
    | none => s.sendHw ep p.src 0x1A p.stream p.seq 0
    | some i =>
      let e := targetRecord (s.ent u i) p (fun k => Config.freeValue (s.freeCtr + k))
      let s := { s with freeCtr := s.freeCtr + 5 }
      ledRun (s.setSvol u i {}) [.commit u [{ region := u, idx := i, entry := e }] [] (some p) 0]

def effStreamOpen (l : Nat) (s : State) : State :=
  match s.rxHead l (fun p => p.cmd == 0x10 && s.forMe p) with
  | some x =>
    let p := x.pkt
    if s.recordBusy (s.epUnit (pidEp p.dst)) p.src (pidEp p.dst) p.stream then s
    else s.byEndpoint l x (fun u s => s.badStream l u p) (fun u s => s.gotStreamOpen u p)
  | none => s

/-- STREAM_OPEN (R444); one that comes while an opening or closing of that stream commits waits for the commit (log entry 128). -/
def execStreamOpen (l : Fin 256) (s : State) : Host.Outcome State Fault Refusal := .next (effStreamOpen l s)

def State.gotStreamClose (s : State) (u : Nat) (p : Packet) : State :=
  match s.findStream u false p.src (pidEp p.dst) p.stream with
  | none => s
  | some (rr, ri) =>
    let s := ledThen (s.discardOpen u rr ri)
    ledRun (s.modSvol rr ri (fun v => { v with closing := true })) [.settle u false p.src (pidEp p.dst) p.stream]

def effStreamClose (l : Nat) (s : State) : State :=
  match s.rxHead l (fun p => p.cmd == 0x11 && s.forMe p) with
  | some x => s.byEndpoint l x (fun u s => s.badStream l u x.pkt) (fun u s => s.gotStreamClose u x.pkt)
  | none => s

/-- STREAM_CLOSE (R444). -/
def execStreamClose (l : Fin 256) (s : State) : Host.Outcome State Fault Refusal := .next (effStreamClose l s)

def State.gotStreamQuery (s : State) (u : Nat) (p : Packet) : State :=
  match s.findStream u false p.src (pidEp p.dst) p.stream with
  | none => s
  | some (rr, ri) => s.sendHw (pidEp p.dst) p.src 0x1B p.stream (s.ent rr ri).ackSeq.toNat p.txn

def effStreamQuery (l : Nat) (s : State) : State :=
  match s.rxHead l (fun p => p.cmd == 0x12 && s.forMe p) with
  | some x => s.byEndpoint l x (fun u s => s.badStream l u x.pkt) (fun u s => s.gotStreamQuery u x.pkt)
  | none => s

/-- STREAM_QUERY (R444). -/
def execStreamQuery (l : Fin 256) (s : State) : Host.Outcome State Fault Refusal := .next (effStreamQuery l s)

/-! ## Forwarding (R79, R119) -/

/-- A forward with HOPS decremented and HCHK recomputed (R79, R80). -/
def Packet.nextHop (p : Packet) : Packet := ({ p with w0 := setFld p.w0 63 56 (p.hops - 1) } : Packet).fixHchk

/-- A packet routed by its path goes on by link `o`; where that link is not ACTIVE it is dropped (R80). -/
def State.forwardPath (s : State) (l : Nat) (x : RxPkt) (o : Nat) : State :=
  let s := s.takeRx l x.vc
  if (s.link o).st = .active then s.modLink o (fun k => { k with txq := k.txq ++ [{ vc := 3, bytes := x.pkt.nextHop.bytes }] })
  else s.dropCnt l

def effPacketForward (l : Nat) (s : State) : State :=
  match s.rxHead l (fun p => !s.forMe p) with
  | none => s
  | some x =>
    let p := x.pkt
    if p.byPath then s.forwardPath l x (Config.pathHop p.payload).toNat
    else
      let s := s.takeRx l x.vc
      match s.route (pidDev p.dst) with
      | none => s.dropCnt l
      | some (o, _) => s.modLink o (fun k => { k with fwdq := k.fwdq ++ [p.nextHop] })

/-- PACKET_FORWARD (R80, R119). -/
def execPacketForward (l : Fin 256) (s : State) : Host.Outcome State Fault Refusal := .next (effPacketForward l s)

/-! ## The outbound damper (R53, R121, R122) -/

/-- Hop, route and source checks of Table 4.8; `fwd` tells that the packet is a forward. -/
def State.damperHdr (s : State) (l : Nat) (p : Packet) (fwd : Bool) : Bool :=
  let w := rdReg s (.glRt (pidDev p.dst))
  (fwd || pidDev p.src == s.sys.devId.toNat)
    && ((bitAt w 63 && fld w 61 54 == l) || (bitAt w 62 && fld w 53 46 == l) || pidDev p.dst == (s.link l).peerDev.toNat)
    && decide (1 ≤ p.hops ∧ p.hops ≤ getF s (.lkDamp l) 47 40)

/-- Refill and charge a bucket; none while it does not hold the length, in sixteenths of a byte (R121). -/
def charge (rate burstKiB level at_ now len : Nat) : Option Nat :=
  let b := refill rate burstKiB level at_ now
  if 16 * len ≤ b then some (b - 16 * len) else none

/-- Charge the link bucket and, for a packet of this device, the partner's; none while the packet has to wait. A damper under a DUP
mismatch lets nothing of the command channel out (R349). -/
def State.chargeOut (s : State) (l u : Nat) (p : Packet) (own : Bool) : Option State :=
  let k := s.link l
  let n := p.size
  if k.damperBroken = true ∨ s.linkRate l = 0 then none
  else match charge (s.linkRate l) (getF s (.lkDamp l) 55 48) k.bucket k.bucketAt s.now n with
    | none => none
    | some b =>
      let s' := s.setLink l { k with bucket := b, bucketAt := s.now }
      if own then
        match s.partner u p.dst with
        | none => none
        | some q =>
          let c := .glPclass q.rclass.toNat
          (charge (getF s c 63 56) (getF s c 55 48) q.bucket q.bucketAt s.now n).map (fun b =>
            s'.modPartner u p.dst (fun q => { q with bucket := b, bucketAt := s.now }))
      else some s'

/-- Put a packet into the port. -/
def State.portTakes (s : State) (l : Nat) (p : Packet) : State :=
  s.modLink l (fun k => { k with txq := k.txq ++ [{ vc := vcOf p.cmd, bytes := p.bytes, bad := p.bad }] })

/-- What the damper does with a packet. -/
inductive Release where
  | leaves (s : State)
  | drops (s : State)
  | waits (s : State)

/-- Table 4.8 and the buckets, for a packet at the head of a queue of link `l` on shelf `u`. -/
def State.damperOut (s : State) (l u : Nat) (p : Packet) (fwd : Bool) : Release :=
  let own := !fwd
  let cmd := vcOf p.cmd == 0
  if s.damperHdr l p fwd = false then .drops (s.damperr l)
  else
    let r := s.findPartner u p.dst
    match r.2 with
    | .fetching => .waits r.1
    | a =>
      if a.valid = false then .drops (r.1.damperr l)
      else if cmd then
        (match r.1.chargeOut l u p own with
          | none => .waits r.1
          | some s => .leaves (s.portTakes l p))
      else .leaves (r.1.portTakes l p)

/-- R53: the entry that TXN names is an ORIGIN entry in ISSUED, in whichever region, and SEQ lies in its range; after DATA-DONE only a resend
passes. -/
def State.ledgerLets (s : State) (p : Packet) : Bool :=
  let r := txnShelf p.txn
  let e := s.ent r (txnIdx p.txn)
  cmdClass p.cmd == some .ledger && !s.shelfGone (s.ledUnit r) && e.gen.toNat == txnGen p.txn && e.role == .origin
    && decide (e.seqFirst.toNat ≤ p.seq ∧ p.seq < e.seqFirst.toNat + e.npkt.toNat) && (e.st == .issued || (e.st == .dataDone && p.retx))

/-- R46: a resend passes at once, a first transmission when every packet before it in its stream has passed (log entry 16). -/
def State.inTurn (s : State) (p : Packet) : Bool :=
  let r := txnShelf p.txn
  let i := txnIdx p.txn
  let e := s.ent r i
  p.retx || decide (p.seq < e.seqFirst.toNat + (s.vol r i).released)
    || (p.seq == e.seqFirst.toNat + (s.vol r i).released
      && (s.liveEntries (s.ledUnit r) (fun x => x.role == .origin && (x.st == .opened || x.st == .issued) && x.seqFirst < e.seqFirst
          && x.ofStream e.partner.toNat e.localEp.toNat e.stream.toNat)).all (fun x => (s.vol x.1 x.2.1).released == x.2.2.npkt.toNat))

/-- Note a packet of an entry that the outbound path let through. -/
def State.noteOut (s : State) (l : Nat) (p : Packet) : State :=
  let first := (s.ent (txnShelf p.txn) (txnIdx p.txn)).seqFirst.toNat
  s.modVol (txnShelf p.txn) (txnIdx p.txn) (fun v => { v with
    released := max v.released (p.seq + 1 - first)
    links := if v.links.contains l then v.links else v.links ++ [l] })

/-- Owner number of the port of link `l` as a consumer of queues. -/
def unitPort (l : Nat) : Nat := 100 + l

/-- Take the oldest item of the queue that feeds link `l`. -/
def State.popFeed (s : State) (l n q : Nat) : State :=
  let s := ((s.queue n q).items.head?).elim s (fun i => s.itemRead n i)
  let r := s.qPop n q (.unit (unitPort l))
  (r.1.qRelease n q (.unit (unitPort l))).1

/-- Where a packet waits that the damper may let out. -/
inductive OutSlot where
  | own | forward | held
  deriving DecidableEq, Repr

/-- Remove a packet from where it waited. -/
def Link.without (k : Link) (w : OutSlot) (p : Packet) : Link :=
  match w with
  | .own => { k with respq := k.respq.erase p }
  | .forward => { k with fwdq := k.fwdq.erase p }
  | .held => { k with heldOut := k.heldOut.erase p }

/-- What may leave next: for each channel in the order of R108 the first packet that hardware has built, the first forward, and on the command
channel the first ledger-class packet held back whose turn has come. -/
def State.outHeads (s : State) (l : Nat) : List (OutSlot × Packet) :=
  let k := s.link l
  (vcOrder.filter (fun v => s.linkOpen l v)).flatMap (fun v =>
    ((k.respq.find? (fun p => vcOf p.cmd == v)).toList.map (fun p => (OutSlot.own, p)))
    ++ ((k.fwdq.find? (fun p => vcOf p.cmd == v)).toList.map (fun p => (OutSlot.forward, p)))
    ++ (if v = 0 then (k.heldOut.find? (fun p => !s.ledgerLets p || s.inTurn p)).toList.map (fun p => (OutSlot.held, p)) else []))

/-- Try packets in turn; one that waits lets those after it go. The flag tells that one has left or is dropped. -/
def State.tryOut (l n : Nat) : List (OutSlot × Packet) → State → State × Bool
  | [], s => (s, false)
  | (w, p) :: t, s =>
    if (w == .held && !s.ledgerLets p) = true then ((s.modLink l (fun k => k.without w p)).badTx n, true)
    else match s.damperOut l n p (w == .forward) with
      | .waits s => State.tryOut l n t s
      | .drops s => ((s.modLink l (fun k => k.without w p)).sysresetGo, true)
      | .leaves s =>
        let s := (s.modLink l (fun k => k.without w p)).sysresetGo
        (if w = .held then s.noteOut l p else s, true)

/-- The oldest item of the queue that feeds link `l`: checked against the ledger and the damper, and held back while it is not its turn. -/
def State.feedOut (s : State) (l n : Nat) : State :=
  let q := s.feedQueue l
  match (s.queue n q).items with
  | [] => s
  | i :: _ =>
    if s.linkOpen l 0 = false then s
    else
      let p := { packetOf (s.itemBytes n i) with bad := s.itemBad n i }
      if i.byGlaze = false ∨ s.ledgerLets p = false then (s.popFeed l n q).badTx n
      else if s.inTurn p = false then (s.popFeed l n q).modLink l (fun k => { k with heldOut := k.heldOut ++ [p] })
      else match s.damperOut l n p false with
        | .waits s => s
        | .drops s => s.popFeed l n q
        | .leaves s => (s.popFeed l n q).noteOut l p

def effDamperRelease (l : Nat) (s : State) : State :=
  let n := s.servingShelf l
  if (s.link l).st ≠ .active then s
  else
    let t := State.tryOut l n (s.outHeads l) s
    if t.2 then t.1 else t.1.feedOut l n

/-- DAMPER_RELEASE (R46, R53, R121, R122, R136). -/
def execDamperRelease (l : Fin 256) (s : State) : Host.Outcome State Fault Refusal := .next (effDamperRelease l s)

def effStormEnd (l : Nat) (s : State) : State :=
  if s.reached (s.link l).stormUntil then (s.settleLink l).modLink l (fun k => { k with stormUntil := none }) else s

/-- STORM_END (R122). -/
def execStormEnd (l : Fin 256) (s : State) : Host.Outcome State Fault Refusal := .next (effStormEnd l s)

end Sys2Proof.Machine
end

