-- ==== Sys2Proof/Machine/Flags.lean ====
section
/-! DEFINITION. The arithmetic status register and the arithmetic that records into it: division, and IEEE 754 binary64 and binary32
(R217 to R224, R227, R228). -/

namespace Sys2Proof.Machine

/-! ## ASR (Table 8.3) -/

def fDV : Word := 0x40
def fDZ : Word := 0x20
def fNV : Word := 0x10
def fFDZ : Word := 0x08
def fOF : Word := 0x04
def fUF : Word := 0x02
def fNX : Word := 0x01

/-- Sticky bits of ASR. -/
def asrSticky : Word := 0x7F

/-- Rounding direction RM. -/
def asrRm (asr : Word) : Nat := fld asr 9 8

/-- A write of ASR: RM is stored, a sticky bit written 1 is cleared (R227). -/
def asrWrite (old v : Word) : Word := (v &&& 0x300) ||| (old &&& asrSticky &&& ~~~ v)

/-! ## Division (R218, Table 8.1) -/

/-- The smallest signed integer. -/
def minInt64 : Word := 0x8000000000000000

/-- Result and sticky bits of DIV, DIVU, REM and REMU. -/
def divide (signed rem : Bool) (a b : Word) : Word × Word :=
  if b = 0 then (a, fDZ)
  else if signed ∧ a = minInt64 ∧ b = BitVec.allOnes 64 then (if rem then 0 else a, fDV)
  else if signed then (if rem then BitVec.ofInt 64 (a.toInt.tmod b.toInt) else BitVec.ofInt 64 (a.toInt.tdiv b.toInt), 0)
  else (if rem then a % b else a / b, 0)

/-! ## Binary formats -/

/-- A binary format: exponent bits and fraction bits. -/
structure FpShape where
  ebits : Nat
  fbits : Nat
  deriving DecidableEq, Repr

def fp64 : FpShape := ⟨11, 52⟩
def fp32 : FpShape := ⟨8, 23⟩

def FpShape.bias (f : FpShape) : Nat := 2 ^ (f.ebits - 1) - 1
def FpShape.emax (f : FpShape) : Nat := 2 ^ f.ebits - 1
def FpShape.width (f : FpShape) : Nat := 1 + f.ebits + f.fbits

/-- The canonical NaN (R222). -/
def FpShape.nan (f : FpShape) : Nat := f.emax * 2 ^ f.fbits + 2 ^ (f.fbits - 1)

def FpShape.pack (f : FpShape) (neg : Bool) (e m : Nat) : Nat := b2n neg * 2 ^ (f.width - 1) + e * 2 ^ f.fbits + m

def FpShape.inf (f : FpShape) (neg : Bool) : Nat := f.pack neg f.emax 0
def FpShape.zero (f : FpShape) (neg : Bool) : Nat := f.pack neg 0 0

/-- A datum: a NaN, an infinity, or (−1)^neg × m × 2^e. -/
inductive FpVal where
  | nan (signalling : Bool)
  | inf (neg : Bool)
  | num (neg : Bool) (m : Nat) (e : Int)
  deriving DecidableEq, Repr

/-- Read the low bits of a register as a datum. -/
def FpShape.read (f : FpShape) (x : Nat) : FpVal :=
  let y := x % 2 ^ f.width
  let neg := decide (2 ^ (f.width - 1) ≤ y)
  let e := y / 2 ^ f.fbits % 2 ^ f.ebits
  let m := y % 2 ^ f.fbits
  if e = f.emax then (if m = 0 then .inf neg else .nan (decide (m < 2 ^ (f.fbits - 1))))
  else if e = 0 then .num neg m (1 - (f.bias : Int) - f.fbits)
  else .num neg (2 ^ f.fbits + m) ((e : Int) - f.bias - f.fbits)

/-- Round up the magnitude: direction (R221), sign, whether the kept part is odd, twice the rest compared with one unit, rest non-zero. -/
def roundsUp (rm : Nat) (neg odd : Bool) (half : Ordering) (rest : Bool) : Bool :=
  match rm with
  | 0 => half == .gt || (half == .eq && odd)
  | 1 => false
  | 2 => rest && !neg
  | _ => rest && neg

/-- The quotient of n / d rounded to an integer, and whether it is inexact. -/
def roundQuot (rm : Nat) (neg : Bool) (n d : Nat) : Nat × Bool :=
  let q := n / d
  let rest := n % d
  (q + b2n (roundsUp rm neg (q % 2 == 1) (compare (2 * rest) d) (rest != 0)), rest != 0)

/-- n × 2^e / d rounded to a multiple of 2^u, in units of 2^u, and whether it is inexact. -/
def roundUnit (rm : Nat) (neg : Bool) (n d : Nat) (e u : Int) : Nat × Bool :=
  if u ≤ e then roundQuot rm neg (n * 2 ^ (e - u).toNat) d else roundQuot rm neg n (d * 2 ^ (u - e).toNat)

/-- floor of log2 (n × 2^e / d), for n and d not zero. -/
def log2Ratio (n d : Nat) (e : Int) : Int :=
  let k := (Nat.log2 n : Int) - Nat.log2 d
  let fits := if 0 ≤ k then decide (d * 2 ^ k.toNat ≤ n) else decide (d ≤ n * 2 ^ (-k).toNat)
  (if fits then k else k - 1) + e

/-- Round (−1)^neg × n / d × 2^e to the format: the bits and the flags. Tininess is detected after rounding (R223). -/
def FpShape.round (f : FpShape) (rm : Nat) (neg : Bool) (n d : Nat) (e : Int) : Nat × Word :=
  if n = 0 then (f.zero neg, 0)
  else
    let l := log2Ratio n d e
    let emin : Int := 1 - f.bias
    let free := roundUnit rm neg n d e (l - f.fbits)
    let lr : Int := if free.1 = 2 ^ (f.fbits + 1) then l + 1 else l
    let tiny := decide (lr < emin)
    let u : Int := max (l - f.fbits) (emin - f.fbits)
    let r := roundUnit rm neg n d e u
    let m := if r.1 = 2 ^ (f.fbits + 1) then 2 ^ f.fbits else r.1
    let ex : Int := (if r.1 = 2 ^ (f.fbits + 1) then u + 1 else u) + f.fbits + f.bias
    let inexact := if r.2 then fNX else 0
    if (f.emax : Int) ≤ ex ∧ 2 ^ f.fbits ≤ m then
      (if rm = 0 ∨ (rm = 2 ∧ neg = false) ∨ (rm = 3 ∧ neg = true) then f.inf neg else f.pack neg (f.emax - 1) (2 ^ f.fbits - 1), fOF ||| fNX)
    else (if m < 2 ^ f.fbits then f.pack neg 0 m else f.pack neg ex.toNat (m - 2 ^ f.fbits), inexact ||| (if tiny && r.2 then fUF else 0))

def FpVal.isNan : FpVal → Bool
  | .nan _ => true
  | _ => false

def FpVal.isSnan : FpVal → Bool
  | .nan s => s
  | _ => false

def FpVal.neg : FpVal → FpVal
  | .nan s => .nan s
  | .inf n => .inf (!n)
  | .num n m e => .num (!n) m e

/-- Signed integer of a magnitude. -/
def signedNat (neg : Bool) (m : Nat) : Int := if neg then -(m : Int) else m

/-- NaN result, with FNV for a signalling operand (R222, R224). -/
def nanResult (f : FpShape) (a b : FpVal) : Nat × Word := (f.nan, if a.isSnan || b.isSnan then fNV else 0)

/-- Addition. -/
def fpAdd (f : FpShape) (rm : Nat) (a b : FpVal) : Nat × Word :=
  match a, b with
  | .nan _, _ | _, .nan _ => nanResult f a b
  | .inf x, .inf y => if x = y then (f.inf x, 0) else (f.nan, fNV)
  | .inf x, _ => (f.inf x, 0)
  | _, .inf y => (f.inf y, 0)
  | .num x m e, .num y n g =>
    let u := min e g
    let v := signedNat x (m * 2 ^ (e - u).toNat) + signedNat y (n * 2 ^ (g - u).toNat)
    if v = 0 then (f.zero (if m = 0 ∧ n = 0 ∧ x = y then x else decide (rm = 3)), 0)
    else f.round rm (decide (v < 0)) v.natAbs 1 u

/-- Multiplication. -/
def fpMul (f : FpShape) (rm : Nat) (a b : FpVal) : Nat × Word :=
  match a, b with
  | .nan _, _ | _, .nan _ => nanResult f a b
  | .inf x, .inf y => (f.inf (x != y), 0)
  | .inf x, .num y n _ => if n = 0 then (f.nan, fNV) else (f.inf (x != y), 0)
  | .num x m _, .inf y => if m = 0 then (f.nan, fNV) else (f.inf (x != y), 0)
  | .num x m e, .num y n g => f.round rm (x != y) (m * n) 1 (e + g)

/-- Division. -/
def fpDiv (f : FpShape) (rm : Nat) (a b : FpVal) : Nat × Word :=
  match a, b with
  | .nan _, _ | _, .nan _ => nanResult f a b
  | .inf _, .inf _ => (f.nan, fNV)
  | .inf x, .num y _ _ => (f.inf (x != y), 0)
  | .num x _ _, .inf y => (f.zero (x != y), 0)
  | .num x m e, .num y n g =>
    if n = 0 then (if m = 0 then (f.nan, fNV) else (f.inf (x != y), fFDZ)) else f.round rm (x != y) m n (e - g)

/-- Square root: the integer root of a scaled significand, with a sticky digit where it is inexact. -/
def fpSqrt (f : FpShape) (rm : Nat) (a : FpVal) : Nat × Word :=
  match a with
  | .nan _ => nanResult f a a
  | .inf x => if x then (f.nan, fNV) else (f.inf false, 0)
  | .num x m e =>
    if m = 0 then (f.zero x, 0)
    else if x then (f.nan, fNV)
    else
      let k := 2 * (f.fbits + 3)
      let odd := e % 2 = 1
      let n := (if odd then 2 * m else m) * 4 ^ k
      let g : Int := (if odd then e - 1 else e) / 2 - k
      let q := Nat.sqrt n
      f.round rm false (if q * q = n then 2 * q else 2 * q + 1) 1 (g - 1)

/-- Order of two data that are no NaN; the zeros are equal. -/
def fpOrder (a b : FpVal) : Ordering :=
  match a, b with
  | .inf x, .inf y => if x = y then .eq else if x then .lt else .gt
  | .inf x, _ => if x then .lt else .gt
  | _, .inf y => if y then .gt else .lt
  | .num x m e, .num y n g =>
    let u := min e g
    compare (signedNat x (m * 2 ^ (e - u).toNat)) (signedNat y (n * 2 ^ (g - u).toNat))
  | _, _ => .eq

/-- FCMP: 0 equal, 1 less, 2 greater, 3 unordered (R224). -/
def fpCmp (a b : FpVal) : Nat × Word :=
  if a.isNan || b.isNan then (3, if a.isSnan || b.isSnan then fNV else 0)
  else (match fpOrder a b with | .eq => 0 | .lt => 1 | .gt => 2, 0)

def FpVal.isNeg : FpVal → Bool
  | .nan _ => false
  | .inf n => n
  | .num n _ _ => n

/-- minimumNumber and maximumNumber on the bits x and y (R224). -/
def fpMinMax (f : FpShape) (mx : Bool) (x y : Nat) : Nat × Word :=
  let a := f.read x
  let b := f.read y
  let nv := if a.isSnan || b.isSnan then fNV else 0
  let px := x % 2 ^ f.width
  let py := y % 2 ^ f.width
  if a.isNan && b.isNan then (f.nan, nv)
  else if a.isNan then (py, nv)
  else if b.isNan then (px, nv)
  else
    let xLower := match fpOrder a b with | .lt => true | .gt => false | .eq => a.isNeg
    (if xLower != mx then px else py, 0)

/-- FCVTI: a signed integer in the format. -/
def fpOfInt (f : FpShape) (rm : Nat) (i : Int) : Nat × Word := f.round rm (decide (i < 0)) i.natAbs 1 0

/-- FCVTF: a signed integer of `w` bits, toward zero, saturating (R224). -/
def fpToInt (w : Nat) (a : FpVal) : Int × Word :=
  let lo : Int := -(2 ^ (w - 1))
  let hi : Int := 2 ^ (w - 1) - 1
  match a with
  | .nan _ => (lo, fNV)
  | .inf n => (if n then lo else hi, fNV)
  | .num n m e =>
    let r := roundUnit 1 n m 1 e 0
    let v := signedNat n r.1
    if v < lo then (lo, fNV) else if hi < v then (hi, fNV) else (v, if r.2 then fNX else 0)

/-- FCVT between the formats. -/
def fpConvert (f : FpShape) (rm : Nat) (a : FpVal) : Nat × Word :=
  match a with
  | .nan s => (f.nan, if s then fNV else 0)
  | .inf n => (f.inf n, 0)
  | .num n m e => f.round rm n m 1 e

end Sys2Proof.Machine
end

