-- ==== Sys2Proof/Machine/Access.lean ====
section
/-! DEFINITION. The access check of a core (Table 10.3): capabilities, the address map, closed regions, the TLB, page rights, keys and
side-effect pages (R247 to R264, R270 to R273). -/

namespace Sys2Proof.Machine

/-! ## Capabilities (R247 to R250) -/

def Cap.r (c : Cap) : Bool := c.rights.getLsbD 7
def Cap.w (c : Cap) : Bool := c.rights.getLsbD 6
def Cap.x (c : Cap) : Bool := c.rights.getLsbD 5
def Cap.c (c : Cap) : Bool := c.rights.getLsbD 4
def Cap.s (c : Cap) : Bool := c.rights.getLsbD 3
def Cap.g (c : Cap) : Bool := c.rights.getLsbD 2
def Cap.e (c : Cap) : Bool := c.rights.getLsbD 1
def Cap.k (c : Cap) : Bool := c.rights.getLsbD 0

/-- Within bounds: LIMIT is not below BASE and the last byte's offset is at most LIMIT − BASE (R248, log entry 23). -/
def Cap.covers (c : Cap) (off z : Nat) : Bool :=
  decide (c.base.toNat ≤ c.limit.toNat ∧ off + z - 1 ≤ c.limit.toNat - c.base.toNat)

/-- The value lies in the bounds read as a range (R196, R249). -/
def Cap.hasValue (c : Cap) (v : Nat) : Bool := decide (c.base.toNat ≤ v ∧ v ≤ c.limit.toNat)

/-- The effective address of an offset. -/
def Cap.ea (c : Cap) (off : Nat) : Nat := (c.base.toNat + off) % 2 ^ 56

/-- A segment register (Table 7.2). -/
def Ctx.seg (x : Ctx) (r : Nat) : Cap := tget {} x.segs r
def Ctx.setSeg (x : Ctx) (r : Nat) (c : Cap) : Ctx := { x with segs := tset {} x.segs r c }

/-- Numbers of the segment registers with a use of their own (Table 7.2). -/
def segC : Nat := 0
def segD : Nat := 1
def segS : Nat := 2
def segT : Nat := 3
def segX1 : Nat := 5
def segX3 : Nat := 7

/-- SYSCTL authority (R250). -/
def Ctx.sysctl (x : Ctx) : Bool := (x.seg segT).tag && (x.seg segT).otype == 1

/-! ## Exceptions: descriptors, causes, reports (Tables 10.12, 10.13, 11.7) -/

def dIL : Nat := 2
def dCF : Nat := 3
def dTF : Nat := 4
def dAC : Nat := 5
def dRO : Nat := 6
def dRU : Nat := 7
def dUN : Nat := 8
def dDE : Nat := 9
def dCB : Nat := 10
def dBK : Nat := 11

/-- CF causes. -/
def cTag : Nat := 1
def cSealed : Nat := 2
def cRights : Nat := 3
def cBounds : Nat := 4
def cSysctl : Nat := 5
def cLocal : Nat := 6
def cNoTag : Nat := 7
def cClosed : Nat := 8
def cType : Nat := 9
def cSegc : Nat := 10

/-- TF causes. -/
def tMiss : Nat := 1
def tSize : Nat := 2
def tOff : Nat := 3
def tRights : Nat := 4
def tKey : Nat := 5

/-- Kind of an access (KIND of FINFO). -/
inductive AKind where
  | load | store | atomic | fetch | ldc | stc | fill | spill
  deriving DecidableEq, Repr

def AKind.code : AKind → Nat
  | .load => 0 | .store => 1 | .atomic => 2 | .fetch => 3 | .ldc => 4 | .stc => 5 | .fill => 6 | .spill => 6

def AKind.reads : AKind → Bool
  | .load | .atomic | .ldc | .fill => true
  | _ => false

def AKind.writes : AKind → Bool
  | .store | .atomic | .stc | .spill => true
  | _ => false

/-- Capability rights that the access needs (Table 10.4). -/
def AKind.allowed (a : AKind) (c : Cap) : Bool :=
  (!a.reads || c.r) && (!a.writes || c.w) && (a != .fetch || c.x) && (!(a == .ldc || a == .stc) || c.c)

/-- FINFO (Table 10.12). -/
def finfoOf (cause : Nat) (tf : Bool) (stage level kind seg : Nat) : Word :=
  place 15 12 cause ||| bitIf 11 tf ||| place 10 9 stage ||| place 8 7 level ||| place 6 4 kind ||| place 2 0 seg

def cfReport (cause kind seg ea : Nat) : ExcReport := { desc := dCF, finfo := finfoOf cause false 0 0 kind seg, faddr := BitVec.ofNat 64 ea }
def tfReport (cause stage level kind seg ea : Nat) : ExcReport :=
  { desc := dTF, finfo := finfoOf cause true stage level kind seg, faddr := BitVec.ofNat 64 ea }
def plainReport (d : Nat) : ExcReport := { desc := d, finfo := 0, faddr := 0 }

/-- KIND of a report that no access of the table makes. -/
def kOther : Nat := 7

/-- The report of a deferred-data error (Table 11.4). -/
def Poison.report (p : Poison) : ExcReport :=
  { desc := dDE, finfo := place 63 8 p.dpc.toNat ||| place 7 4 p.cause ||| place 2 0 p.tag, faddr := p.addr }

/-- Report of a fetch whose bytes cannot be read, with the CAUSE (R173). -/
def fetchErr (pc ea cause : Nat) : ExcReport := { desc := dDE, finfo := place 63 8 pc ||| place 7 4 cause, faddr := BitVec.ofNat 64 ea }

/-- Report of an uncorrectable word on fetch (Table 12.3). -/
def fetchDe (pc ea : Nat) : ExcReport := fetchErr pc ea 5

/-! ## The address map (Tables 10.6 and 15.1) -/

/-- A space of effective addresses. -/
inductive Space where
  | virt (va : Nat)
  | at (p : Place) (se : Bool)
  | readOnly (p : Place)
  | none
  deriving DecidableEq, Repr

def shelfSpace : Nat := 0xFF000000000000
def ownSpace : Nat := 0xFF000100000000
def ctlSpace : Nat := 0xFF000200000000

/-- The space of an effective address for a core of a shelf. -/
def shelfSpaceOf (n ea : Nat) : Space :=
  if ea < 2 ^ 48 then .virt ea
  else if 0x80000000000000 ≤ ea ∧ ea < 0x90000000000000 then .at (.host (ea % 2 ^ 52)) true
  else if shelfSpace ≤ ea ∧ ea < shelfSpace + 64 * 0x200000 then .at (.mem (ea - shelfSpace)) false
  else if ownSpace ≤ ea ∧ ea < ownSpace + 0x200000 then .at (.mem (shelfAddr n (ea - ownSpace))) false
  else if ctlSpace ≤ ea ∧ ea < ctlSpace + 0x4000000 then .at (.ctl (ea - ctlSpace)) true
  else .none

/-- The space of an effective address for the warden. -/
def wardenSpaceOf (ea : Nat) : Space :=
  let o := ea - 0xFE000000000000
  if ea < 2 ^ 48 then .virt ea
  else if 0x80000000000000 ≤ ea ∧ ea < 0x90000000000000 then .at (.host (ea % 2 ^ 52)) true
  else if 0xFE000000000000 ≤ ea ∧ o < 0x100000 then .readOnly (.rom o)
  else if 0xFE000000000000 ≤ ea ∧ o < 0x180000 then .at (.mem (sramAddr (o - 0x100000))) false
  else if 0xFE000000000000 ≤ ea ∧ 0x200000 ≤ o ∧ o < 0x300000 then .readOnly (.log (o - 0x200000))
  else if 0xFE000000000000 ≤ ea ∧ 0x300000 ≤ o ∧ o < 0x302000 then .readOnly (.snap (o - 0x300000))
  else if shelfSpace ≤ ea ∧ ea < shelfSpace + 64 * 0x200000 then .at (.mem (ea - shelfSpace)) false
  else if ctlSpace ≤ ea ∧ ea < ctlSpace + 0x4000000 then .at (.ctl (ea - ctlSpace)) true
  else .none

def spaceOf (k ea : Nat) : Space := if k = wardenKey then wardenSpaceOf ea else shelfSpaceOf (keyShelf k) ea

/-- Saggar, ledger and mirror of every shelf are closed to cores and to the warden window (R260, R359, Table 12.1). -/
def closedTo (a : Nat) : Bool :=
  decide (a < 0x8000000) && !inGeneral (a % 0x200000)

/-! ## The TLB (R264, R266, R270) -/

/-- log2 of the page size of an entry. -/
def TlbEntry.shift (e : TlbEntry) : Nat := if e.size = 0 then 12 else if e.size = 1 then 21 else 30

/-- Level of the entry's page size (R273). -/
def TlbEntry.level (e : TlbEntry) : Nat := if e.size = 0 then 3 else if e.size = 1 then 2 else 1

def TlbEntry.global (e : TlbEntry) : Bool := bitAt e.pte 12

/-- The page of an entry contains a virtual address. -/
def TlbEntry.hasPage (e : TlbEntry) (va : Nat) : Bool := va / 2 ^ e.shift == e.va / 2 ^ e.shift

def xlatVmid (w : Word) : Nat := fld w 59 48
def xlatAsid (w : Word) : Nat := fld w 47 32

/-- The access hits the entry (R264). -/
def TlbEntry.hits (e : TlbEntry) (xlat : Word) (va : Nat) : Bool :=
  e.hasPage va && e.vmid.toNat == xlatVmid xlat && (e.global || e.asid.toNat == xlatAsid xlat)

/-- The host physical address of a virtual address in the entry's page. -/
def TlbEntry.phys (e : TlbEntry) (va : Nat) : Nat := fld e.pte 51 13 * 4096 + va % 2 ^ e.shift

/-- The access is allowed by the page (Table 10.4). -/
def TlbEntry.allows (e : TlbEntry) (a : AKind) : Bool :=
  (!a.reads || bitAt e.pte 2) && (!a.writes || bitAt e.pte 3) && (a != .fetch || bitAt e.pte 4)

/-- PKEYS denies the access (R271). -/
def keyDenies (pkeys : Word) (e : TlbEntry) (a : AKind) : Bool :=
  let k := fld e.pte 8 5
  (a.reads && bitAt pkeys (4 * k)) || (a.writes && bitAt pkeys (4 * k + 1)) || (a == .fetch && bitAt pkeys (4 * k + 2))

/-- Bits that the first access or the first write of an entry ORs into its leaves (R270): A is bit 9, D bit 10. -/
def TlbEntry.owes (e : TlbEntry) (a : AKind) : Word :=
  if a.writes && !bitAt e.pte 10 then 0x600 else if !bitAt e.pte 9 then 0x200 else 0

/-- The place `i` bytes further on. -/
def Place.add (p : Place) (i : Nat) : Place :=
  match p with
  | .mem a => .mem (a + i)
  | .host a => .host (a + i)
  | .ctl o => .ctl (o + i)
  | .rom o => .rom (o + i)
  | .log o => .log (o + i)
  | .snap o => .snap (o + i)

/-- The place answers core `k` without a tag: its shelf's memory; the warden's own ROM, SRAM, log store and snapshot (R167, Table 15.1). -/
def isLocal (k : Nat) : Place → Bool
  | .mem a => if k = wardenKey then decide (sramAddr 0 ≤ a) else a / 0x200000 == keyShelf k
  | .host _ => false
  | .ctl _ => false
  | _ => true

/-- The offset of a place in its 64-byte line. -/
def Place.inLine : Place → Nat
  | .mem a | .host a | .ctl a | .rom a | .log a | .snap a => a % 64

/-! ## One page of an access (steps 7 to 12 of Table 10.3) -/

/-- A piece of an access that passed: where it lies, whether its page has side effects, its effective address and length. -/
structure Piece where
  place : Place
  se : Bool
  ea : Nat
  len : Nat
  deriving DecidableEq, Repr

/-- Outcome of a check. -/
inductive Chk (α : Type) where
  | ok (a : α)
  /-- Wait for the capability of a pending segment register. -/
  | pending (t : Nat)
  /-- Wait for the A and D atomics of a TLB entry: its index and the bits. -/
  | owed (i : Nat) (bits : Word)
  | exc (x : ExcReport)

/-- The place lies within the tagged region of host memory (R252). -/
def State.inTagRegion (s : State) (a z : Nat) : Bool :=
  let w := rdReg s .glTagrgn
  let base := fld w 51 30 * 2 ^ 30
  bitAt w 63 && decide (base ≤ a ∧ a + z ≤ base + 2 ^ fld w 5 0)

/-- Steps 7 to 12 for `z` bytes of one page at effective address `ea`; `whole` is the size of the access. -/
def State.checkPage (s : State) (k : Nat) (x : Ctx) (c : Cap) (r : Nat) (a : AKind) (ea z whole : Nat) : Chk Piece :=
  let seDone := fun (p : Place) (se : Bool) =>
    if se && (a == .fetch || !c.e) then Chk.exc (cfReport cRights a.code r ea)
    else if se && ea % whole != 0 then .exc (plainReport dAC)
    else match p, a with
      | .host h, .stc => if s.inTagRegion h z then Chk.ok ⟨p, se, ea, z⟩ else .exc (cfReport cNoTag a.code r ea)
      | _, _ => Chk.ok ⟨p, se, ea, z⟩
  match spaceOf k ea with
  | .none => .exc (tfReport tSize 0 0 a.code r ea)
  | .readOnly p => if a.writes then .exc (plainReport dAC) else .ok ⟨p, false, ea, z⟩
  | .at (.mem m) se => if closedTo m then .exc (cfReport cClosed a.code r ea) else seDone (.mem m) se
  | .at p se => seDone p se
  | .virt va =>
    if k = wardenKey ∨ (bitAt x.xlat 63 = false ∧ bitAt x.xlat 62 = false) then .exc (tfReport tOff 0 0 a.code r ea)
    else match (s.core k).tlb.find? (fun e => e.2.hits x.xlat va) with
      | none => .exc (tfReport tMiss 0 0 a.code r ea)
      | some (i, e) =>
        if !e.allows a then .exc (tfReport tRights 3 e.level a.code r ea)
        else if !c.k && keyDenies x.pkeys e a then .exc (tfReport tKey 3 e.level a.code r ea)
        else match seDone (.host (e.phys va)) (bitAt e.pte 11) with
          | .ok p => if e.owes a = 0 then .ok p else .owed i (e.owes a)
          | q => q

/-- The pages of an access, from the first byte on; one that reaches an SE page is naturally aligned as a whole (R211, R216). -/
def State.checkPages (s : State) (k : Nat) (x : Ctx) (c : Cap) (r : Nat) (a : AKind) (ea z : Nat) : Chk (List Piece) :=
  let n := min z (4096 - ea % 4096)
  match s.checkPage k x c r a ea n z with
  | .exc e => .exc e
  | .pending t => .pending t
  | .owed i b => .owed i b
  | .ok p =>
    if n = z then .ok [p]
    else match s.checkPage k x c r a (ea + n) (z - n) z with
      | .exc e => .exc e
      | .pending t => .pending t
      | .owed i b => .owed i b
      | .ok q => if (p.se || q.se) && ea % z != 0 then .exc (plainReport dAC) else .ok [p, q]

/-! ## The capability part (steps 1 to 6 of Table 10.3) -/

/-- Steps 2 to 5 on a capability: the cause and the first byte that fails. -/
def capFault (c : Cap) (a : AKind) (off z : Nat) : Option (Nat × Nat) :=
  if !c.tag then some (cTag, c.ea off)
  else if c.otype ≠ 0 then some (cSealed, c.ea off)
  else if !a.allowed c then some (cRights, c.ea off)
  else if c.covers off z then none
  else some (cBounds, if c.base.toNat ≤ c.limit.toNat ∧ off ≤ c.limit.toNat - c.base.toNat then c.limit.toNat + 1 else c.ea off)

/-- Step 1: the register waits for its capability or holds a poisoned one (R194, R173). -/
def Ctx.segReady (x : Ctx) (r : Nat) : Chk Cap :=
  match alook r x.segPend with
  | some t => .pending t
  | none => match alook r x.segPoison with
    | some p => .exc p.report
    | none => .ok (x.seg r)

/-- Steps 1 to 6 for `z` bytes at offset `off` through register `r`: the effective address; `al` is the alignment of R216. -/
def Ctx.checkCap (x : Ctx) (r : Nat) (a : AKind) (off z al : Nat) (local_ : Bool) : Chk (Cap × Nat) :=
  match x.segReady r with
  | .exc e => .exc e
  | .pending t => .pending t
  | .owed i b => .owed i b
  | .ok c =>
    match capFault c a off z with
    | some f =>
      if (f.1 = cBounds) ∧ local_ then .exc (cfReport cLocal a.code r (c.ea off)) else .exc (cfReport f.1 a.code r f.2)
    | none =>
      if local_ then .exc (cfReport cLocal a.code r (c.ea off))
      else if off % al ≠ 0 ∨ c.ea off % al ≠ 0 then .exc (plainReport dAC)
      else .ok (c, c.ea off)

/-- The whole check of Table 10.3. -/
def State.checkAccess (s : State) (k : Nat) (x : Ctx) (r : Nat) (a : AKind) (off z : Nat) (al : Nat := 1) (local_ : Bool := false) :
    Chk (List Piece) :=
  match x.checkCap r a off z al local_ with
  | .exc e => .exc e
  | .pending t => .pending t
  | .owed i b => .owed i b
  | .ok (c, ea) => s.checkPages k x c r a ea z

end Sys2Proof.Machine
end

