-- ==== Sys2Proof/Machine/Operands.lean ====
section
/-! DEFINITION. Operands of an instruction: outcomes, the operand window, the return stack, tags (R168 to R173, R202, R203, R233 to R236). -/

namespace Sys2Proof.Machine

/-! ## Outcomes -/

/-- Outcome of an instruction's action: done, waiting, or an exception. The state of the last two holds only what R282 lets remain. -/
inductive Res (α : Type) where
  | ok (a : α) (s : State)
  | wait (w : WaitWhy) (s : State)
  | exc (x : ExcReport) (s : State)

/-- Chain two actions. -/
def Res.bind {α β : Type} (m : Res α) (f : α → State → Res β) : Res β :=
  match m with
  | .ok a s => f a s
  | .wait w s => .wait w s
  | .exc x s => .exc x s

/-- Where an instruction goes on: the next instruction, or an offset in seg.c. -/
abbrev Flow := Option Nat

/-- The action of an instruction on core `k` and store `r`. -/
abbrev Action := Nat → Nat → State → Res Flow

def doneIn (s : State) : Res Flow := .ok none s

/-! ## The operand window (R233 to R236) -/

/-- Slots of the stack segment below SP. -/
def Ctx.stacked (x : Ctx) : Nat := x.sp.toNat / 8

/-- Slots of the operand stack. -/
def Ctx.total (x : Ctx) : Nat := x.stacked + x.ring.length

/-- DEPTH: slots above the window base (R233). -/
def Ctx.depth (x : Ctx) : Nat := x.total - x.wb

/-- The ring's size (R233). -/
def ringSize : Nat := 48

/-- CF of a pop that finds no slot, or of a push that the spill cannot make room for (R236). -/
def stackReport (x : Ctx) (cause : Nat) : ExcReport :=
  cfReport cause AKind.spill.code segS ((x.seg segS).ea x.sp.toNat)

/-- A spill of one slot would go beyond the limit of seg.s, or to a page that it must not touch (R236, R272). -/
def State.spillBlocked (s : State) (k : Nat) (x : Ctx) : Option ExcReport :=
  match s.checkAccess k x segS .spill x.sp.toNat 8 with
  | .exc e => some e
  | .ok ps => if ps.any (fun p => p.se) then some (stackReport x cRights) else none
  | _ => none

/-- A fill of one slot is barred by the bounds or rights of seg.s, or by an SE page. -/
def State.fillBlocked (s : State) (k : Nat) (x : Ctx) : Option ExcReport :=
  match s.checkAccess k x segS .fill (x.sp.toNat - 8) 8 with
  | .exc e => some e
  | .ok ps => if ps.any (fun p => p.se) then some (stackReport x cRights) else none
  | _ => none

/-- The slot at depth `i`; one that is not in the ring waits for the fill or has no slot above the base (R236). -/
def State.slotAt (s : State) (k r i : Nat) : Res Slot :=
  let x := s.ctx k r
  match x.ring[i]? with
  | some v => .ok v s
  | none =>
    if x.total ≤ i then .exc (stackReport x cBounds) s
    else match s.fillBlocked k x with
      | some e => .exc e s
      | none => .wait .fill s

/-- The value at depth `i`, which the instruction touches: pending slots wait and poisoned ones raise DE (R169, R173). -/
def State.operand (s : State) (k r i : Nat) : Res Word :=
  (s.slotAt k r i).bind (fun v s =>
    match v with
    | .val w => .ok w s
    | .tag t => .wait (.tag t) s
    | .poison p => .exc p.report s)

/-- The top `n` values, top first. -/
def State.operands : Nat → State → Nat → Nat → Nat → Res (List Word)
  | 0, s, _, _, _ => .ok [] s
  | n + 1, s, k, r, i => (s.operand k r i).bind (fun v s => (State.operands n s k r (i + 1)).bind (fun t s => .ok (v :: t) s))

/-- The ring has room for an instruction that removes `pops` slots and pushes `pushes` (R236). -/
def State.room (s : State) (k r pops pushes : Nat) : Res Unit :=
  let x := s.ctx k r
  if x.ring.length - pops + pushes ≤ ringSize then .ok () s
  else match s.spillBlocked k x with
    | some e => .exc e s
    | none => .wait .ring s

/-- The ring with `n` slots removed and others pushed, the new top in front. -/
def Ctx.replace (x : Ctx) (n : Nat) (push : List Slot) : Ctx := { x with ring := push ++ x.ring.drop n }

/-- Take the top `n` values (top first), and put back the values that `f` gives (top first), with room for them. -/
def popPush (n m : Nat) (f : List Word → List Word) : Action := fun k r s =>
  (s.operands n k r 0).bind (fun vs s =>
    (s.room k r n m).bind (fun _ s => doneIn (s.modCtx k r (fun x => x.replace n ((f vs).map Slot.val)))))

/-- One operand, one result. -/
def unary (f : Word → Word) : Action := popPush 1 1 (fun l => [f (l.getD 0 0)])

/-- Two operands a and b, b on top, one result. -/
def binary (f : Word → Word → Word) : Action := popPush 2 1 (fun l => [f (l.getD 1 0) (l.getD 0 0)])

/-- No operand, one result. -/
def pushWord (v : Word) : Action := popPush 0 1 (fun _ => [v])

/-! ## The return stack (R202, R203, R278) -/

/-- A push of an address with the window base: RO in TRAP mode, and whenever the floor is non-zero; else the oldest entry goes. -/
def Ctx.rpush (x : Ctx) (a : BitVec 56) (wb : Nat) : Option Ctx :=
  if x.rstack.length < 32 then some { x with rstack := (a, wb) :: x.rstack }
  else if x.rsm = false ∨ 0 < x.rsFloor then none
  else some { x with rstack := (a, wb) :: x.rstack.take 31 }

/-- The top entry above the floor. -/
def Ctx.rtop (x : Ctx) : Option (BitVec 56 × Nat) := if x.rsFloor < x.rstack.length then x.rstack.head? else none

/-! ## Tags (R168, R170, R172, R173, R193) -/

/-- Tags not outstanding, lowest first. -/
def Ctx.freeTags (x : Ctx) : List Nat := (List.range 8).filter (fun i => (alook i x.tags).isNone)

/-- Tags outstanding that carry arithmetic flags (R228). -/
def Ctx.arithTag (x : Ctx) : Option Nat := (x.tags.find? (fun e => e.2.arith)).map (·.1)

/-- Take `n` tags or wait for one (R170). -/
def State.takeTags (s : State) (k r n : Nat) : Res (List Nat) :=
  let f := (s.ctx k r).freeTags
  if n ≤ f.length then .ok (f.take n) s else .wait .tagLimit s

/-- The reference of a tag in use. -/
def State.tagRef (s : State) (k r t : Nat) : TagRef :=
  { core := k, store := r, tag := t, gen := match alook t (s.ctx k r).tags with | some x => x.gen | none => 0 }

/-- Record that tag `t` is outstanding. -/
def State.openTag (s : State) (k r t : Nat) (rec_ : TagRec) : State :=
  { (s.modCtx k r (fun x => { x with tags := aput t { rec_ with gen := s.tagCtr } x.tags })) with tagCtr := s.tagCtr + 1 }

/-- Remove the operands, push one pending slot and open its tag; `rec_` is the record without its PC. -/
def State.pushTag (s : State) (k r pops t : Nat) (rec_ : TagRec) : State :=
  (s.modCtx k r (fun x => x.replace pops [.tag t])).openTag k r t { rec_ with dpc := (s.ctx k r).pc }

/-- A long-latency operation with one result whose operands are the top `n` values: `f` starts it under the tag's reference. -/
def tagged (n : Nat) (arith : Bool) (f : List Word → TagRef → State → State) : Action := fun k r s =>
  (s.operands n k r 0).bind (fun vs s =>
    (s.room k r n 1).bind (fun _ s =>
      (s.takeTags k r 1).bind (fun ts s =>
        let t := ts.getD 0 0
        let s := s.pushTag k r n t { dpc := 0, addr := 0, dest := .stack, arith := arith }
        doneIn (f vs (s.tagRef k r t) s))))

/-- A long-latency operation with two results, the upper of them on top (R193). -/
def tagged2 (n : Nat) (f : List Word → TagRef → State → State) : Action := fun k r s =>
  (s.operands n k r 0).bind (fun vs s =>
    (s.room k r n 2).bind (fun _ s =>
      (s.takeTags k r 2).bind (fun ts s =>
        let a := ts.getD 0 0
        let b := ts.getD 1 0
        let pc := (s.ctx k r).pc
        let s := s.modCtx k r (fun x => x.replace n [.tag b, .tag a])
        let s := s.openTag k r a { dpc := pc, addr := 0, dest := .stack, mate := some b }
        let s := s.openTag k r b { dpc := pc, addr := 0, dest := .stack }
        doneIn (f vs (s.tagRef k r a) s))))

end Sys2Proof.Machine
end

