-- ==== Sys2Proof/Machine/Exceptions.lean ====
section
/-! DEFINITION. Taking an exception or an event: the task-state block, descriptors, the six entry steps, double fault and escalation
(R277 to R283, R286 to R288). -/

namespace Sys2Proof.Machine

/-! ## Contexts as words (Tables 9.1, 11.1, 11.2) -/

def CtxSt.code : CtxSt → Nat
  | .free => 0 | .ready => 1 | .running => 2 | .waiting => 3 | .sleeping => 4 | .parked => 5 | .loading => 6

/-- A resident store holds a context. -/
def Ctx.resident (x : Ctx) : Bool := x.st != .free && x.st != .parked

/-- CCW of the context in store `r`. -/
def Ctx.ccw (x : Ctx) (r : Nat) : Word :=
  bitIf 63 (x.st != .free) ||| bitIf 62 x.resident ||| place 61 59 x.st.code ||| place 58 57 x.prio.toNat ||| bitIf 56 x.ct
    ||| bitIf 55 x.rsm ||| place 54 51 x.wmask.toNat ||| place 23 20 (if x.st = .free then 0 else r)
    ||| place 19 0 x.ctx.toNat

/-- RING of the TSB (Table 11.2). A DEPTH that its field cannot hold leaves the field open (log entry 24). -/
def Ctx.ringWord (x : Ctx) (open_ : Word) : Word :=
  place 63 58 x.ring.length ||| place 57 52 (if x.depth < 64 then x.depth else open_.toNat) ||| place 51 46 x.rstack.length
    ||| place 45 40 x.rsFloor ||| place 15 0 x.mprog.toNat

/-- ECAUSE (Table 11.3). -/
def ecause (odesc why : Nat) (esc df : Bool) (prio : Nat) (event : Bool) (desc : Nat) : Word :=
  place 23 18 odesc ||| place 17 14 why ||| bitIf 13 esc ||| bitIf 12 df ||| place 11 8 prio ||| bitIf 6 event ||| place 5 0 desc

/-- What an entry reports. -/
structure Entering where
  desc : Nat
  prio : Nat := 0
  event : Bool := false
  finfo : Word := 0
  faddr : Word := 0
  deriving DecidableEq, Repr

/-- Words 0x000 to 0x06F of the TSB: the state except ETSB and the segments. -/
def Ctx.latch (x : Ctx) (r : Nat) (cause finfo faddr open_ : Word) : List Word :=
  [x.ccw r, place 55 0 x.pc.toNat, cause, finfo, faddr, x.asr, x.pkeys, x.xlat, x.s1root, x.s2root, x.mph, x.mpl, x.ringWord open_,
   place 55 0 x.sp.toNat]

/-- Store a capability with its tag. -/
def State.storeCap (s : State) (a : Nat) (c : Cap) : State := (s.storeWords a c.words).setTag a c.tag

/-- Read a capability with its tag. -/
def State.loadCap (s : State) (a : Nat) : Cap := capOfWords (s.word a) (s.word (a + 8)) (s.tagAt a)

/-- The save engine writes the latch to the TSB at `a` (R278). -/
def State.saveTsb (s : State) (a : Nat) (x : Ctx) (r : Nat) (cause finfo faddr : Word) : State :=
  let s' := s.storeWords a (x.latch r cause finfo faddr s.free)
  let s' := if 64 ≤ x.depth then s'.drawn else s'
  let s' := s'.storeCap (a + 0x70) x.etsb
  let s' := (List.range 8).foldl (fun s i => s.storeCap (a + 0x80 + 16 * i) (x.seg i)) s'
  if x.mprog = 0 then s' else s'.storeWords (a + 0x188) x.mbuf

/-! ## Addresses that entry may use -/

/-- Bytes of SRAM (R359). -/
def sramSize : Nat := 0x80000

/-- The memory address of `z` bytes at an effective address that lie in the core's own memory, outside closed regions (R277). -/
def ownMem (k ea z : Nat) : Option Nat :=
  match spaceOf k ea with
  | .at (.mem a) _ =>
    if k = wardenKey then (if sramAddr 0 ≤ a ∧ a + z ≤ sramAddr sramSize then some a else none)
    else if a / 0x200000 = keyShelf k ∧ inGeneral (a % 0x200000) = true ∧ a % 0x200000 + z ≤ 0x200000 then some a else none
  | _ => none

/-- The conditions on TSBP (R277). -/
def tsbAddr (k : Nat) (c : Cap) : Option Nat :=
  if c.tag ∧ c.otype = 0 ∧ c.r ∧ c.w ∧ c.c ∧ c.covers 0 512 ∧ c.base.toNat % 64 = 0 then ownMem k c.base.toNat 512 else none

/-- The conditions on DTP (R280). -/
def dtpAddr (k : Nat) (c : Cap) : Option Nat :=
  if c.tag ∧ c.otype = 0 ∧ c.r ∧ c.covers 0 4096 ∧ c.base.toNat % 64 = 0 then ownMem k c.base.toNat 4096 else none

/-- Address of the emergency TSB of a core (Table 12.1); the warden's is the last block of its SRAM (log entry 25). -/
def emergencyTsb (k : Nat) : Nat :=
  if k = wardenKey then sramAddr (sramSize - 0x200) else shelfAddr (keyShelf k) (0xC0000 + keySlot k * 0x200)

/-- Effective address by which a core names an address of its own memory. -/
def ownEa (k a : Nat) : Nat :=
  if k = wardenKey then 0xFE000000100000 + (a - sramAddr 0) else ownSpace + a % 0x200000

/-- A capability with R, W and C for 512 bytes of own memory (R277, R286). -/
def tsbCap (k a : Nat) : Cap :=
  { rights := 0xD0, otype := 0, base := BitVec.ofNat 56 (ownEa k a), limit := BitVec.ofNat 56 (ownEa k a + 511), tag := true }

/-! ## Descriptors (Tables 11.5, 11.6) -/

/-- A descriptor as read. -/
structure Desc where
  code : Cap
  stack : Cap
  tsb : Cap
  flags : Word
  word38 : Word
  deriving DecidableEq, Repr

def State.readDesc (s : State) (a : Nat) : Desc :=
  { code := s.loadCap a, stack := s.loadCap (a + 0x10), tsb := s.loadCap (a + 0x20), flags := s.word (a + 0x30), word38 := s.word (a + 0x38) }

/-- The parts of validity that an escalation entry shares (R280, R288). -/
def Desc.sound (d : Desc) : Bool :=
  bitAt d.flags 63 && fld d.flags 62 61 != 3 && fld d.flags 59 56 == 0 && d.word38 == 0
    && d.code.tag && d.code.otype == 0 && d.code.x && d.stack.tag && d.stack.otype == 0 && d.stack.r && d.stack.w

/-- A descriptor is valid (R280). -/
def Desc.valid (k : Nat) (d : Desc) : Bool := d.sound && (tsbAddr k d.tsb).isSome

/-- seg.t after the entry (Table 11.6). -/
def Desc.segt (d : Desc) (old dauth : Cap) : Cap :=
  match fld d.flags 62 61 with
  | 0 => old
  | 1 => { old with tag := false }
  | _ => dauth

/-! ## Entry -/

/-- The context at the start of an entry: a product or round key on its way has landed, waits are abandoned (Table 6.5, R283). -/
def Ctx.settle (x : Ctx) : Ctx :=
  let y := match x.prod with
    | some p => { x with mph := p.1, mpl := p.2, prod := none }
    | none => x
  let z := match y.rkeyNext with
    | some q => { y with rkey := q, rkeyNext := none }
    | none => y
  { z with wait := none }

/-- The context in the handler after its state went to the TSB at `a` (R278, R281): the frame stays in the ring, SP is 0, the return
stack is its floor, and every tag outstanding knows the TSB. -/
def Ctx.entered (x : Ctx) (a : Nat) (etsb tsbp sc ss st : Cap) (pc : Nat) : Ctx :=
  let poisons := x.segPoison.map (fun (e : Nat × Poison) => (a + 0x80 + 16 * e.1, e.2))
  let y := { x with
    etsb := etsb
    tsbp := tsbp
    pc := BitVec.ofNat 56 pc
    sp := 0
    wb := x.ring.length
    rsFloor := x.rstack.length
    tags := x.tags.map (fun (e : Nat × TagRec) => (e.1, { e.2 with tsbAt := e.2.tsbAt ++ [a] }))
    tsbPoison := poisons ++ x.tsbPoison
    segPend := x.segPend.filter (fun e => e.1 ≠ segC ∧ e.1 ≠ segS ∧ (e.1 ≠ segT ∨ st = x.seg segT))
    segPoison := x.segPoison.filter (fun e => e.1 ≠ segC ∧ e.1 ≠ segS ∧ (e.1 ≠ segT ∨ st = x.seg segT))
    mprogPc := if x.mprog = 0 then x.mprogPc else aput a x.pc x.mprogPc
    mprog := 0
    mbuf := []
    backward := none
    seRead := none
    readBad := none }
  ((y.setSeg segC sc).setSeg segS ss).setSeg segT st

/-- Load what descriptor `d` grants into the context in store `r`; GATE closes the gate (R281, Table 11.6). -/
def State.applyDesc (s : State) (k r a : Nat) (x : Ctx) (etsb tsbp ss : Cap) (d : Desc) : State :=
  let y := x.entered a etsb tsbp d.code ss (d.segt (x.seg segT) (s.core k).dauth) (fld d.flags 55 0)
  let s := s.setCtx k r y
  if bitAt d.flags 60 then s.modCore k (fun c => { c with gateOpen := false }) else s

/-- Steps 4 to 6 for descriptor `n`: the descriptor, or the DFWHY code of the fault (R280, Table 11.3). -/
def State.findDesc (s : State) (k n : Nat) : Except Nat Desc :=
  match dtpAddr k (s.core k).dtp with
  | none => .error 2
  | some t =>
    let a := t + 64 * n
    if s.badIn a 64 then .error 4
    else
      let d := s.readDesc a
      if d.valid k then .ok d else .error 3

/-- The core is to be reset by the steward (R287). -/
def State.askCoreReset (s : State) (k : Nat) : State := s.modCore k (fun c => { c with resetDue := true })

/-- Double fault: the latch goes to the emergency TSB and descriptor 1 is entered (R286). A second one, or a fault of this entry itself,
resets the core (R287). -/
def State.doubleFault (s : State) (k r : Nat) (x : Ctx) (e : Entering) (why : Nat) : State :=
  let again := (s.core k).dfact
  let s := s.modCore k (fun c => { c with dfcnt := BitVec.ofNat 16 (satAdd 65535 c.dfcnt.toNat 1) })
  if again then s.askCoreReset k
  else match s.findDesc k 1 with
    | .error _ => s.askCoreReset k
    | .ok d =>
      let a := emergencyTsb k
      let s := s.saveTsb a x r (ecause e.desc why false true e.prio e.event 1) e.finfo e.faddr
      let s := s.applyDesc k r a x (tsbCap k a) d.tsb d.stack d
      s.modCore k (fun c => { c with dfact := true, lastDesc := 1 })

/-- Address of the escalation entry of a core, when it lies in the general region (Table 11.19). -/
def State.escEntry (s : State) (k : Nat) : Option Nat :=
  let x := getF s (.shEsccfg (keyShelf k)) 15 0 * 64 + keySlot k * 64
  if inGeneral x then some (shelfAddr (keyShelf k) x) else none

/-- Escalation of a fault during entry while MODE is CE-256 (R288); the log's entry 26 holds what it leaves unstated. -/
def State.escalate (s : State) (k r : Nat) (x : Ctx) (e : Entering) (why : Nat) : State :=
  if (s.core k).escact then s.askCoreReset k
  else match s.escEntry k with
    | none => s.askCoreReset k
    | some ea =>
      let d := s.readDesc ea
      let fa := if d.stack.covers 0 512 ∧ d.stack.base.toNat % 64 = 0 then ownMem k d.stack.base.toNat 512 else none
      match s.badIn ea 64 || !d.sound, fa with
      | false, some a =>
        let s := s.saveTsb a x r (ecause e.desc why true false e.prio e.event 0) e.finfo e.faddr
        let rest := { d.stack with base := d.stack.base + 512 }
        let s := s.applyDesc k r a x (tsbCap k a) x.tsbp rest d
        s.modCore k (fun c => { c with escact := true })
      | _, _ => s.askCoreReset k

/-- A fault during entry: native double fault or escalation, as SH_ESCCFG says; the warden has no such register (log entry 26). -/
def State.entryFault (s : State) (k r : Nat) (x : Ctx) (e : Entering) (why : Nat) : State :=
  if k ≠ wardenKey ∧ getB s (.shEsccfg (keyShelf k)) 63 then s.escalate k r x e why else s.doubleFault k r x e why

/-- The six steps of entry in store `r` of core `k`, and whether the descriptor that `e` names was entered (R283). The saved PC is the
context's PC. -/
def State.enter (s : State) (k r : Nat) (e : Entering) : State × Bool :=
  let x := (s.ctx k r).settle
  let s := s.modCore k (fun c => { c with seg := none, fetchMiss := none, fetchBad := none, pair := false, alone := false })
  match tsbAddr k x.tsbp with
  | none => (s.entryFault k r x e 1, false)
  | some a =>
    let s := s.saveTsb a x r (ecause 0 0 false false e.prio e.event e.desc) e.finfo e.faddr
    match s.findDesc k e.desc with
    | .error w => (s.entryFault k r x e w, false)
    | .ok d =>
      let s := s.applyDesc k r a x x.tsbp d.tsb d.stack d
      (s.modCore k (fun c => { c with lastDesc := BitVec.ofNat 6 e.desc }), true)

/-- An exception found by the instruction at the context's PC. -/
def State.takeExc (s : State) (k r : Nat) (x : ExcReport) : State :=
  let s := if x.desc = dTF ∧ fld x.finfo 15 12 = tMiss then s.modCore k (fun c => { c with tlbMisses := c.tlbMisses + 1 }) else s
  (s.enter k r { desc := x.desc, finfo := x.finfo, faddr := x.faddr }).1

/-! ## Return (R284, R285) -/

/-- The report of a return or load whose TSB capability fails (R284 step 1): FADDR is the capability's base. -/
def tsbReport (c : Cap) : ExcReport :=
  let cause := if !c.tag then cTag else if c.otype ≠ 0 then cSealed else if !(c.r && c.w && c.c) then cRights
    else if !c.covers 0 512 then cBounds else cClosed
  cfReport cause kOther 0 c.base.toNat

/-- The context after the second part of ERET from the TSB at `a` (R284, R285). -/
def State.restored (s : State) (k r a : Nat) : Ctx :=
  let x := s.ctx k r
  let w := fun o => s.word (a + o)
  let sys := x.sysctl
  let ccw := w 0
  let rw := w 0x60
  let pc := BitVec.ofNat 56 (fld (w 8) 55 0)
  let known := (alook a x.mprogPc).getD pc
  let keepMp := decide (known = pc)
  let sp := fld (w 0x68) 55 0
  let total := sp / 8 + x.ring.length
  let y := { x with
    pc := pc
    ct := bitAt ccw 56
    rsm := bitAt ccw 55
    wmask := BitVec.ofNat 4 (fld ccw 54 51)
    prio := if sys then BitVec.ofNat 2 (fld ccw 58 57) else x.prio
    asr := w 0x28 &&& 0x37F
    pkeys := w 0x30 &&& 0x7777777777777777
    xlat := if sys then w 0x38 &&& 0xCFFFFFFF00000000 else x.xlat
    s1root := if sys then w 0x40 &&& 0x7FFFFFFFFF000 else x.s1root
    s2root := if sys then w 0x48 &&& 0x7FFFFFFFFF000 else x.s2root
    mph := w 0x50
    mpl := w 0x58
    sp := BitVec.ofNat 56 sp
    wb := total - fld rw 57 52
    rstack := x.rstack.drop (x.rstack.length - fld rw 51 46)
    rsFloor := fld rw 45 40
    mprog := if keepMp then BitVec.ofNat 16 (fld rw 15 0) else 0
    mbuf := if keepMp ∧ fld rw 15 0 ≠ 0 then (List.range 15).map (fun i => w (0x188 + 8 * i)) else []
    mprogPc := adel a x.mprogPc
    segs := []
    segPend := (x.tags.filter (fun e => e.2.tsbAt.contains a)).filterMap (fun e =>
      match e.2.dest with | .seg n => some (n, e.1) | _ => none)
    segPoison := (List.range 8).filterMap (fun i => (alook (a + 0x80 + 16 * i) x.tsbPoison).map (fun p => (i, p)))
    tsbPoison := x.tsbPoison.filter (fun e => e.1 < a ∨ a + 0x200 ≤ e.1)
    tags := x.tags.map (fun e => (e.1, { e.2 with tsbAt := e.2.tsbAt.takeWhile (fun b => b ≠ a) }))
    tsbp := x.etsb
    etsb := s.loadCap (a + 0x70) }
  (List.range 8).foldl (fun y i => y.setSeg i (s.loadCap (a + 0x80 + 16 * i))) y

/-- Poisoned slots among some. -/
def poisons (l : List Slot) : Nat := l.countP (fun v => match v with | .poison _ => true | _ => false)

/-- Poisoned results discarded unread (R173, Table 6.12). -/
def Ctx.dropped (x : Ctx) (n : Nat) : Ctx := { x with pdrop := BitVec.ofNat 16 (satAdd 65535 x.pdrop.toNat n) }

/-- Slots above the frame's `o` positions are discarded, from the ring first (R284). -/
def Ctx.cutFrame (x : Ctx) (o : Nat) : Ctx :=
  let extra := x.total - o
  let sp := 8 * (x.stacked - (extra - x.ring.length))
  let cut := x.spilled.filter (fun e => (x.seg segS).ea sp ≤ e.1 ∧ e.1 < (x.seg segS).ea x.sp.toNat)
  { x with
    ring := x.ring.drop extra
    sp := BitVec.ofNat 56 sp
    spilled := x.spilled.filter (fun e => !cut.contains e) }.dropped (poisons (x.ring.take extra) + poisons (cut.map (fun (e : Nat × Place × Slot) => e.2.2)))

/-- The first uncorrectable word of the TSB at `a` that a return or a load reads: MBUF only with a MPROG (R284). -/
def State.tsbBad (s : State) (a : Nat) : Option Nat :=
  s.badAt a 0x100 <|> (if fld (s.word (a + 0x60)) 15 0 = 0 then none else s.badAt (a + 0x188) 0x78)

/-- ERET (R284): while a frame slot lies in the handler's stack it waits for the fill; then the state is restored. A word of the TSB that reads
as uncorrectable raises DE (Table 12.3). The result is the
offset at which the restored context goes on. -/
def eretAction : Action := fun k r s =>
  let x := s.ctx k r
  match tsbAddr k x.etsb with
  | none => .exc (tsbReport x.etsb) s
  | some a =>
    match s.tsbBad a with
    | some w => .exc (fetchErr x.pc.toNat (ownEa k w) 5) (s.eccUnc w)
    | none =>
      let o := fld (s.word (a + 0x60)) 63 58
      let y := x.cutFrame o
      let s := s.setCtx k r y
      if y.stacked ≠ 0 then
        match s.fillBlocked k y with
        | some e => .exc e s
        | none => .wait .fill s
      else
        let esc := bitAt (s.word (a + 0x10)) 13
        let emergency := decide (a = emergencyTsb k)
        let z := s.restored k r a
        let s := (s.setCtx k r z).modCore k (fun c => { c with
          escact := c.escact && !esc
          dfact := c.dfact && !emergency })
        .ok (some z.pc.toNat) s

end Sys2Proof.Machine
end

