-- ==== Sys2Proof/Machine/Opcodes.lean ====
section
/-! DEFINITION. The opcode map of the Efmar instruction set: lengths, reserved opcodes, and the marks of Fuse (Tables 7.1, 7.4 to 7.9). -/

namespace Sys2Proof.Machine

/-- Bytes of an instruction on the system page by its sub-opcode; none where that is reserved (Table 7.9). -/
def pageLen (u : Nat) : Option Nat :=
  if u = 5 ∨ u = 9 then some 3 else if u < 10 ∨ (0x10 ≤ u ∧ u ≤ 0x13) then some 2 else none

/-- Bytes of an instruction whose first two bytes are `b` and `u`; none where the opcode is reserved (R187, R188). -/
def opLen (b u : Nat) : Option Nat :=
  if b = 0x08 ∨ b = 0x10 ∨ b = 0x37 ∨ b = 0x38 ∨ (0x68 ≤ b ∧ b ≤ 0x6D) ∨ b = 0x7F ∨ (0x81 ≤ b ∧ b ≤ 0x83) ∨ b = 0x95 ∨
    (0xA0 ≤ b ∧ b ≤ 0xAF) ∨ (0xC0 ≤ b ∧ b ≤ 0xCF) then some 2
  else if b = 0x11 ∨ (0x70 ≤ b ∧ b ≤ 0x7B) ∨ b = 0x84 ∨ b = 0x85 ∨ b = 0xF1 ∨ b = 0xF2 then some 3
  else if b = 0x7C then some 4
  else if b = 0x12 ∨ b = 0x7E then some 5
  else if b = 0x13 then some 9
  else if b = 0xF0 then pageLen u
  else if b ≤ 0x0C ∨ (0x20 ≤ b ∧ b ≤ 0x46) ∨ (0x48 ≤ b ∧ b ≤ 0x67) ∨ b = 0x7D ∨ b = 0x80 ∨ (0x88 ≤ b ∧ b ≤ 0x8D) ∨
    (0x90 ≤ b ∧ b ≤ 0x92) ∨ (0x94 ≤ b ∧ b ≤ 0x9D) then some 1
  else none

/-- The first byte alone says that the opcode is reserved. -/
def badOpcode (b : Nat) : Bool := b != 0xF0 && (opLen b 0).isNone

/-- "2nd" of Fuse: the instruction may stand second in a fusible pair (R166). -/
def fuseSecond (b : Nat) : Bool :=
  decide ((0x20 ≤ b ∧ b ≤ 0x2D) ∨ (0x30 ≤ b ∧ b ≤ 0x38) ∨ (0x3D ≤ b ∧ b ≤ 0x3F) ∨ (0x48 ≤ b ∧ b ≤ 0x4B) ∨ (0x70 ≤ b ∧ b ≤ 0x7B))

/-- Bytes that a load with "1st" reads; 0 for any other opcode. -/
def loadSize (b : Nat) : Nat :=
  if b = 0x40 ∨ b = 0x41 then 1 else if b = 0x42 ∨ b = 0x43 then 2 else if b = 0x44 ∨ b = 0x45 then 4 else if b = 0x46 then 8 else 0

/-- "1st" of Fuse (R166). -/
def fuseFirst (b : Nat) : Bool := decide (b = 0x01 ∨ (0x10 ≤ b ∧ b ≤ 0x13)) || loadSize b != 0

/-- An instruction with "2nd" that takes a second operand, below the top one. -/
def takesTwo (b : Nat) : Bool :=
  !decide (b = 0x25 ∨ b = 0x26 ∨ b = 0x37 ∨ b = 0x38 ∨ (0x3D ≤ b ∧ b ≤ 0x3F) ∨ (0x76 ≤ b ∧ b ≤ 0x7B))

/-- Opcode `i` of the floating-point page of a format (Table 7.8). -/
def fpOpcode (f : FpFmt) (i : Nat) : Byte := byteOf ((match f with | .f64 => 0xA0 | .f32 => 0xC0) + i)

end Sys2Proof.Machine
end

