-- ==== Sys2Proof/Machine/Pipeline.lean ====
section
/-! DEFINITION. How a core issues an instruction: the scheduler's choice, fetch, the SEG prefix, retirement, waits, and the return of
tags (R163, R164, R169 to R175, R182, R189, R237). -/

namespace Sys2Proof.Machine

/-! ## Cores -/

/-- A core runs: its shelf is active and its slot in service, or the warden is out of reset; no reset of it is due. -/
def State.coreLive (s : State) (k : Nat) : Bool :=
  !(s.core k).resetDue && (if k = wardenKey then s.warden.st != .reset
    else s.shelfActive (keyShelf k) && !s.slotOff (keyShelf k) (keySlot k))

/-- DET is on: ACTIVE of SH_DETCFG, and always on the warden (R182, R184). -/
def State.detOn (s : State) (k : Nat) : Bool := k == wardenKey || getB s (.shDetcfg (keyShelf k)) (32 + keySlot k)

/-! ## The scheduler (R237) -/

/-- The context in store `r` may run. -/
def State.runnable (s : State) (k r : Nat) : Bool :=
  let x := s.ctx k r
  (x.st == .ready || x.st == .running) && !x.held

/-- READY and RUNNING stores; from an event entry to its EVEOI no other context is chosen (R293). -/
def State.candidates (s : State) (k : Nat) : List Nat :=
  if (s.core k).rps = [] then (List.range 16).filter (s.runnable k) else [(s.core k).lastChosen].filter (s.runnable k)

/-- The highest PRIO of the stores. -/
def State.topPrio (s : State) (k : Nat) (rs : List Nat) : Nat := rs.foldl (fun m r => max m (s.ctx k r).prio.toNat) 0

/-- Stores in ascending order after the last one chosen. -/
def Core.order (c : Core) : List Nat := (List.range 16).map (fun i => (c.lastChosen + 1 + i) % 16)

/-- The store that the scheduler chooses at a boundary (R237). -/
def State.nextStore (s : State) (k : Nat) : Option Nat :=
  let c := s.core k
  let cs := s.candidates k
  let ts := cs.filter (fun r => (s.ctx k r).prio.toNat == s.topPrio k cs)
  match c.run with
  | some r => if ts.contains r && !(c.quantumOut && decide (1 < ts.length)) then some r else c.order.find? (fun i => ts.contains i)
  | none => c.order.find? (fun i => ts.contains i)

/-- What F and X hold of an instruction that has not retired is discarded. -/
def Core.flushed (c : Core) : Core := { c with seg := none, fetchMiss := none, fetchBad := none, pair := false, alone := false }

/-- Switch the core to store `r`, or to none; a switch costs nothing, and the product of the context that leaves has time to land. -/
def State.switchTo (s : State) (k : Nat) (nxt : Option Nat) : State :=
  if (s.core k).run = nxt then s
  else
    let s := match (s.core k).run with
      | some o => s.modCtx k o (fun (x : Ctx) => { x.settle with
          wait := x.wait
          st := if x.st = CtxSt.running then CtxSt.ready else x.st })
      | none => s
    match nxt with
    | some r => (s.modCtx k r (fun x => { x with st := .running })).modCore k (fun c => { c with
        run := some r
        lastChosen := r
        chosenAt := s.now
        quantumOut := false }.flushed)
    | none => s.modCore k (fun c => { c with run := none }.flushed)

/-- An instruction of the running context waits in X, or its SEG prefix or the first of its fused pair has issued: there is no boundary. A
long instruction between two elements stands at one (R189, R206, R237, Table 6.2). -/
def State.midInstr (s : State) (k : Nat) : Bool :=
  match (s.core k).run with
  | some r =>
    let w := (s.ctx k r).wait
    w != some .element && ((s.core k).seg.isSome || (s.core k).pair || (w.isSome && (s.ctx k r).st == .running))
  | none => false

/-- DRAINTO of a pairing hand-over of the core's shelf has passed. -/
def State.drainOver (s : State) (k : Nat) : Bool :=
  k != wardenKey && (match (s.shelf (keyShelf k)).handover with | some h => h.drained | none => false)

/-- A context that is marked, and has no tag outstanding, is held: one that is READY or SLEEPING and does not run, and from DRAINTO on any
one at its instruction boundary. A halted core reaches none (R353, R416, Table 17.7). -/
def State.holdDue (s : State) (k r : Nat) : Bool :=
  let x := s.ctx k r
  x.hold && !x.held && decide (x.tags = []) && !(s.core k).halted
    && (x.st == .ready || x.st == .sleeping || (s.drainOver k && x.resident && x.st != .loading && !((s.core k).run == some r && s.midInstr k)))

/-- A context is held; what ran is READY. -/
def Ctx.beHeld (x : Ctx) : Ctx := { x with held := true, st := if x.st = .running then .ready else x.st }

/-- Every context of the slot that drains for a quarantine is held: the steward raises STEWARD, once (R416 step 2). -/
def State.tellDrain (s : State) (k : Nat) : State :=
  match s.vexek.draining with
  | some (n, i, _) =>
    if k = 16 * n + i ∧ s.vexek.drainTold = false ∧ (List.range 16).all (fun r => !(s.ctx k r).resident || (s.ctx k r).held) then
      (s.modVexek (fun v => { v with drainTold := true })).raiseSteward n
    else s
  | none => s

/-- Hold every context of a core that is due. -/
def State.holdAll (s : State) (k : Nat) : State :=
  (foldS (List.range 16) (fun s r => if s.holdDue k r then s.modCtx k r Ctx.beHeld else s) s).tellDrain k

/-- WAIT and YIELD are transaction boundaries: a marked context without tags is held there (R353 step 1). -/
def State.holdRunning (s : State) (k r : Nat) : State :=
  if (s.ctx k r).hold && decide ((s.ctx k r).tags = []) then
    ((s.modCtx k r Ctx.beHeld).modCore k (fun c => { c with run := if c.run = some r then none else c.run })).tellDrain k
  else s

/-- Release the holds of a core's contexts. -/
def State.freeHolds (s : State) (k : Nat) : State :=
  foldS (List.range 16) (fun s r => if (s.ctx k r).hold then s.modCtx k r (fun x => { x with hold := false, held := false }) else s) s

/-- The scheduler's choice at an instruction boundary. -/
def State.schedule (s : State) (k : Nat) : State :=
  if s.midInstr k then s
  else
    let s := s.holdAll k
    s.switchTo k (s.nextStore k)

/-- As `schedule`, and the store that runs. -/
def State.running (s : State) (k : Nat) : Option Nat := (s.schedule k).core k |>.run

/-! ## Fetch (R164, R183, R184, R191) -/

/-- A place from which a core with DET on fetches at a fixed count. -/
def fixedFetch (k : Nat) : Place → Bool
  | .rom _ => k == wardenKey
  | .mem a => if k = wardenKey then decide (sramAddr 0 ≤ a) else decide (a / 0x200000 = keyShelf k ∧ 0x1E0000 ≤ a % 0x200000)
  | _ => false

/-- Number of the cache line of a place. -/
def Place.line : Place → Nat
  | .mem a => a / 64
  | .host a => 2 ^ 60 + a / 64
  | .ctl o | .rom o | .log o | .snap o => 2 ^ 61 + o / 64

/-- Lines that the pieces of an instruction touch. -/
def pieceLines (ps : List Piece) : List Nat :=
  ps.flatMap (fun p => let l := p.place.line
    match p.place with
    | .mem a | .host a => if (a + p.len - 1) / 64 = a / 64 then [l] else [l, l + 1]
    | _ => [l])

/-- Outcome of a fetch: its bytes, or what stands in the way. -/
inductive Fetched where
  | ok (bytes : List Byte)
  | miss (line : Nat)
  | owed (i : Nat) (bits : Word)
  | exc (x : ExcReport)
  /-- An uncorrectable word at an address. -/
  | bad (a : Nat) (x : ExcReport)
  /-- Another instruction than the one that the command names stands there. -/
  | other

/-- The bytes of the instruction are there. -/
def Fetched.isOk : Fetched → Bool
  | .ok _ => true
  | _ => false

/-- Report of a code-bank fault (Table 11.7). -/
def cbReport (ea : Nat) : ExcReport := { desc := dCB, finfo := 0, faddr := BitVec.ofNat 64 ea }

/-- Some place of the pieces holds an uncorrectable word. -/
def State.badPiece (s : State) (ps : List Piece) : Option Nat :=
  ps.findSome? (fun p => match p.place with | .mem a => if s.badIn a p.len then some a else none | _ => none)

/-- The way of a set that holds line `l`. -/
def CacheSet.find (c : CacheSet) (l : Nat) : Option (Nat × CacheLine) := c.ways.find? (fun e => e.2.line == l)

/-- Way `w` has been used: the tree points away from it. -/
def CacheSet.touch (c : CacheSet) (w : Nat) : CacheSet :=
  if w < 2 then { c with root := true, low := w == 0 } else { c with root := false, high := w == 2 }

/-- The way that a fill takes: an empty one, else the one that the tree points at. -/
def CacheSet.victim (c : CacheSet) : Nat :=
  match firstFree 4 c.ways with
  | some w => w
  | none => if c.root then (if c.high then 3 else 2) else (if c.low then 1 else 0)

/-- Put a line into the set. -/
def CacheSet.fill (c : CacheSet) (d : CacheLine) : CacheSet := { c with ways := tins c.victim d c.ways }.touch c.victim

/-- The cached line `l`; the cache has 64 sets (R164). -/
def Core.cached (c : Core) (l : Nat) : Option CacheLine := ((tget {} c.icache (l % 64)).find l).map (·.2)

/-- F has used line `l`. -/
def Core.useLine (c : Core) (l : Nat) : Core :=
  match (tget {} c.icache (l % 64)).find l with
  | some e => { c with icache := tmod {} c.icache (l % 64) (fun x => x.touch e.1) }
  | none => c

/-- The byte that F reads at a place: from the cache, or with DET on from the code bank, the warden's SRAM or its ROM (R164, R183, R184). -/
def State.codeByte (s : State) (k : Nat) (p : Place) : Byte :=
  if s.detOn k then match p with
    | .mem a => (s.bytes a 1).getD 0 0
    | .rom o => Config.rom o
    | _ => 0
  else match (s.core k).cached p.line with
    | some d => d.data.getD p.inLine 0
    | none => 0

def State.codeBytes (s : State) (k : Nat) (ps : List Piece) : List Byte :=
  ps.flatMap (fun p => (List.range p.len).map (fun i => s.codeByte k (p.place.add i)))

/-- An address at which the cache took up an uncorrectable word. -/
def State.badCode (s : State) (k : Nat) (ps : List Piece) : Option Nat :=
  ps.findSome? (fun p => (List.range p.len).findSome? (fun i =>
    match p.place.add i, (s.core k).cached (p.place.add i).line with
    | .mem a, some d => if d.bad.contains (a % 64 / 8) then some a else none
    | _, _ => none))

/-- Fetch `len` bytes at the context's PC. -/
def State.fetch (s : State) (k : Nat) (x : Ctx) (len : Nat) : Fetched :=
  let c := x.seg segC
  let pc := x.pc.toNat
  let ea := c.ea pc
  match capFault c .fetch pc len with
  | some f => .exc (cfReport f.1 AKind.fetch.code segC ea)
  | none =>
    match s.checkPages k x c segC .fetch ea len with
    | .exc e => if s.detOn k then .exc (cbReport ea) else .exc { e with faddr := BitVec.ofNat 64 ea }
    | .owed i b => if s.detOn k then .exc (cbReport ea) else .owed i b
    | .pending _ => .other
    | .ok ps =>
      if s.detOn k then
        if !ps.all (fun p => fixedFetch k p.place) then .exc (cbReport ea)
        else match s.badPiece ps with
          | some a => .bad a (fetchDe pc ea)
          | none => .ok (s.codeBytes k ps)
      else match (pieceLines ps).find? (fun l => ((s.core k).cached l).isNone), (s.core k).fetchBad with
        | some l, some b => if b.1 = l then .exc (fetchErr pc ea b.2) else .miss l
        | some l, none => .miss l
        | none, _ => match s.badCode k ps with
          | some a => .bad a (fetchDe pc ea)
          | none => .ok (s.codeBytes k ps)

/-- The cache lines that `len` bytes at the context's PC use; none with DET on. -/
def State.codeLines (s : State) (k : Nat) (x : Ctx) (len : Nat) : List Nat :=
  match s.checkPages k x (x.seg segC) segC .fetch ((x.seg segC).ea x.pc.toNat) len with
  | .ok ps => if s.detOn k then [] else pieceLines ps
  | _ => []

/-- Fetch the instruction whose bytes are `code`, behind `pre` bytes of prefix at the context's PC: its first byte fixes its length, on the
system page its second (R187); a reserved opcode is an illegal instruction (R188). -/
def State.fetchOp (s : State) (k : Nat) (x : Ctx) (pre : Nat) (code : List Byte) : Fetched :=
  let whole := fun (b u : Nat) => match opLen b u with
    | none => Fetched.exc (plainReport dIL)
    | some n => match s.fetch k x (pre + n) with
      | .ok l => if l.drop pre = code then .ok l else .other
      | f => f
  match s.fetch k x (pre + 1) with
  | .ok l =>
    let b := (l.getD pre 0).toNat
    if b = 0xF0 then match s.fetch k x (pre + 2) with
      | .ok l => whole b (l.getD (pre + 1) 0).toNat
      | f => f
    else whole b 0
  | f => f

/-- Ask for the A and D atomics of a TLB entry (R270). -/
def State.owe (s : State) (k i : Nat) (bits : Word) : State :=
  s.modCore k (fun c => { c with adWait := match c.adWait with | some w => some w | none => some (i, bits) })

/-! ## Issue -/

/-- An instruction: its bytes (R187), whether a SEG prefix may precede it, whether it holds X long enough for a product or round key to
land before it acts, and its action. -/
structure Op where
  code : List Byte
  segOk : Bool := false
  slow : Bool := false
  act : Action

/-- Report of an illegal instruction (R188). -/
def ilReport : ExcReport := plainReport dIL

/-- An action that the core does not offer where the condition fails (R188). -/
def legal (ok : Bool) (f : Action) : Action := fun k r s => if ok then f k r s else .exc ilReport s

/-- Queue, ledger, global, key and AES instructions raise UN on the warden (R194). -/
def notWarden (f : Action) : Action := fun k r s => if k = wardenKey then .exc (plainReport dUN) s else f k r s

/-- SYSCTL authority, or CF with cause SYSCTL (R250). -/
def needSysctl (f : Action) : Action := fun k r s =>
  if (s.ctx k r).sysctl then f k r s else .exc (cfReport cSysctl kOther segT 0) s

/-- The context begins to wait, or goes on waiting. -/
def Ctx.waits (x : Ctx) (w : WaitWhy) (now : Nat) : Ctx :=
  { x with wait := some w, waitSince := if x.wait.isSome then x.waitSince else now }

/-- A product and a round key on their way when an instruction issued are in their registers for the next one (R174, R175). -/
def Ctx.land (x : Ctx) (p : Option (Word × Word)) (q : Option (BitVec 128)) : Ctx :=
  let y := match p with | some v => { x with mph := v.1, mpl := v.2 } | none => x
  match q with | some v => { y with rkey := v } | none => y

/-- A product and a round key that were issued 2 ic ago or more are in their registers: the count is of cycles, not of instructions (R174,
R175). -/
def Ctx.late (x : Ctx) (now two : Nat) : Ctx :=
  if (x.prod.isSome || x.rkeyNext.isSome) && decide (x.latchAt + two ≤ now) then { x.settle with wait := x.wait } else x

/-- One more event of counter `i` (Table 6.16). -/
def Core.count (c : Core) (i : Nat) : Core := { c with perf := tset 0 c.perf i (tget 0 c.perf i + 1) }

/-- The core once an instruction has retired; `opens` says that it was the first of a fused pair (R166). -/
def Core.retired (c : Core) (opens : Bool) : Core :=
  { (if c.pair then c.count 2 else c) with
    seg := none
    pair := opens
    alone := false
    pret := c.pret + 1
    sinceRetry := c.sinceRetry.map (· + 1) }

/-- The instruction retires and the context goes on at `pc`. -/
def State.retire (s : State) (k r pc : Nat) (opens : Bool) : State :=
  (s.modCtx k r (fun x => { x with pc := BitVec.ofNat 56 pc, wait := none })).modCore k (fun c => c.retired opens)

/-- Single step: the instruction, pair or element has issued and the core is to halt again (R414). -/
def State.stepped (s : State) (k : Nat) : State :=
  if (s.core k).step && !(s.core k).pair then s.modCore k (fun c => { c with step := false, haltReq := true }) else s

/-- A delivery inside a mask window that EVSYNC has ended is entered at the boundary before this instruction or not at all (R299). -/
def Core.shutWindow (c : Core) : Core :=
  match c.window with
  | some (_, _, true) => { c with window := none }
  | _ => c

/-- What precedes the issue of an instruction of the running context: an ended mask window shuts, a product or key that is due lands. -/
def State.readied (s : State) (k : Nat) : State :=
  let s := s.modCore k Core.shutWindow
  match (s.core k).run with
  | some r => s.modCtx k r (fun x => x.late s.now (s.icNs k 2))
  | none => s

/-- F waits for a line; each miss is counted once in PICMISS. Time passes, so a product and a key land. -/
def State.missLine (s : State) (k r l : Nat) : State :=
  (s.modCtx k r (fun x => { x.settle with wait := x.wait })).modCore k (fun c =>
    { (if c.fetchMiss = some l then c else c.count 4) with fetchMiss := some l })

/-! ## Fused pairs (R166) -/

/-- Whether the instruction that retires is the first of a fused pair: no; yes; or both halves wait in X for a tag that the second needs. -/
inductive Pairing where
  | no | opens | waits (t : Nat)
  deriving DecidableEq, Repr

/-- The load on top of the stack reads the shelf's own memory within one 8-byte word. -/
def State.fusesLoad (s : State) (k : Nat) (x : Ctx) (size : Nat) : Bool :=
  match x.ring.head? with
  | some (.val off) =>
    match s.checkAccess k x (match (s.core k).seg with | some r => r.toNat | none => segD) .load off.toNat size with
    | .ok [p] => !p.se && isLocal k p.place && decide (p.ea % 8 + size ≤ 8) && !(s.core k).alone
    | _ => false
  | _ => false

/-- What the second of a pair, with opcode `b`, does where slot `i` lies below its top operand: a store that finds the buffer full does not
fuse, and a pending slot holds both (log entry 137). -/
def State.pairSecond (s : State) (k : Nat) (x : Ctx) (b i : Nat) : Pairing :=
  if 0x48 ≤ b ∧ b ≤ 0x4B ∧ 8 ≤ (s.core k).sbuf.length then .no
  else if takesTwo b then match x.ring[i]? with
    | some (.tag t) => .waits t
    | some _ => .opens
    | none => .no
  else .opens

/-- The instruction `code` at the PC, behind `pre` bytes of prefix, and the one behind it (R166): both whole in the two bundles of the fetch
buffer. -/
def State.pairing (s : State) (k : Nat) (x : Ctx) (pre : Nat) (code : List Byte) : Pairing :=
  let b := (code.headD 0).toNat
  let load := loadSize b != 0
  if s.detOn k || !(s.core k).fuse || !fuseFirst b || (load && !s.fusesLoad k x (loadSize b)) then .no
  else
    let y := { x with pc := x.pc + BitVec.ofNat 56 (pre + code.length) }
    match s.fetch k y 1 with
    | .ok l =>
      let h := (l.getD 0 0).toNat
      let n := (opLen h 0).getD 1
      let ea := (x.seg segC).ea x.pc.toNat
      if fuseSecond h && (s.fetch k y n).isOk && decide ((ea + pre + code.length + n - 1) / 16 ≤ ea / 16 + 1) then
        s.pairSecond k x h (b2n load)
      else .no
    | _ => .no

/-! ## One instruction -/

/-- An instruction whose bytes are fetched acts. -/
def State.act (s : State) (k r pre : Nat) (o : Op) : State :=
  let x := s.ctx k r
  let p := if o.slow then none else x.prod
  let q := if o.slow then none else x.rkeyNext
  let used := fun (t : State) => (t.modCtx k r (fun y => y.land p q)).modCore k (fun c =>
    (s.codeLines k x (pre + o.code.length)).foldl Core.useLine c)
  let t := s.modCtx k r (fun y => if o.slow then { y.settle with wait := y.wait } else { y with prod := none, rkeyNext := none })
  match (if pre ≠ 0 ∧ o.segOk = false then Res.exc (plainReport dIL) t else o.act k r t), s.pairing k x pre o.code with
  | .ok _ _, .waits g => t.modCtx k r (fun y => (y.land p q).waits (.tag g) s.now)
  | .ok f t, g => ((used t).retire k r (f.getD (x.pc.toNat + o.code.length + pre)) (g = .opens)).stepped k
  | .wait w t, _ =>
    let t := (t.modCtx k r (fun y => (y.land p q).waits w s.now)).modCore k (fun c => { c with alone := c.alone || w == .drain })
    if w = .element then t.stepped k else t
  | .exc e t, _ => ((used t).takeExc k r e).stepped k

/-- Run one instruction of the context in store `r`, the running one. -/
def State.runOp (s : State) (k r : Nat) (o : Op) : State :=
  let s := s.readied k
  let pre := b2n (s.core k).seg.isSome
  match s.fetchOp k (s.ctx k r) pre o.code with
  | .exc e => (s.takeExc k r e).stepped k
  | .bad a e => ((s.eccUnc a).takeExc k r e).stepped k
  | .miss l => s.missLine k r l
  | .owed i b => (s.owe k i b).modCtx k r (fun y => { y.settle with wait := y.wait }.waits .other s.now)
  | .other => s
  | .ok _ => s.act k r pre o

/-- The running instruction has sent a read to a side-effect page, which it completes before an event or a halt (R272). -/
def State.seWaiting (s : State) (k : Nat) : Bool :=
  match (s.core k).run with
  | some r => (s.ctx k r).seRead.isSome
  | none => false

/-- The core may issue: it runs, and no debug halt holds it; a fused pair and a side-effect read are completed first (R412, R414). -/
def State.mayIssue (s : State) (k : Nat) : Bool :=
  s.coreLive k && ((s.core k).step || !((s.core k).halted || ((s.core k).haltReq && !s.seWaiting k && !(s.core k).pair)))

/-- Core `c` issues an instruction of the context that its scheduler chooses; nothing happens where it cannot. -/
def issue (c : CoreId) (o : Op) (s : State) : State :=
  let k := s.coreKey c
  if s.mayIssue k then
    let t := s.schedule k
    match (t.core k).run with
    | some r => t.runOp k r o
    | none => t
  else s

/-- The offset in seg.c of the next instruction, for an instruction of `len` bytes. -/
def State.nextPc (s : State) (k r len : Nat) : Nat := (s.ctx k r).pc.toNat + len + b2n (s.core k).seg.isSome

/-! ## SEG (R189) -/

/-- The segment register that the instruction uses: that of its prefix, else seg.d (R193). -/
def State.dataSeg (s : State) (k : Nat) : Nat :=
  match (s.core k).seg with
  | some r => r.toNat
  | none => segD

def effSeg (c : CoreId) (r : BitVec 3) (s : State) : State :=
  let k := s.coreKey c
  if s.mayIssue k then
    let t := s.schedule k
    match (t.core k).run with
    | none => t
    | some i =>
      match t.fetchOp k (t.ctx k i) (b2n (t.core k).seg.isSome) [0x60 + r.setWidth 8] with
      | .exc e => (t.takeExc k i e).stepped k
      | .bad a e => ((t.eccUnc a).takeExc k i e).stepped k
      | .miss l => t.missLine k i l
      | .owed j b => (t.owe k j b).modCtx k i (fun y => { y.settle with wait := y.wait }.waits .other s.now)
      | .other => t
      | .ok _ => if (t.core k).seg.isSome then (t.takeExc k i ilReport).stepped k else t.modCore k (fun c => { c with seg := some r })
  else s

/-- SEG (R189). -/
def execSeg (c : CoreId) (r : BitVec 3) (s : State) : Host.Outcome State Fault Refusal := .next (effSeg c r s)

/-! ## Tags that return (R169 to R173, R228) -/

/-- What a slot holds once the tag has returned. -/
def TagRec.slot (d : TagRec) (t : Nat) (res : TagRes) : Slot :=
  match res with
  | .value v _ => .val v
  | .pair v _ => .val v
  | .cap _ => .val 0
  | .poison c => .poison { tag := t, cause := c, dpc := d.dpc, addr := d.addr }

/-- Flags that a result carries. -/
def TagRes.flags : TagRes → Word
  | .value _ f => f
  | _ => 0

def TagRes.isPoison : TagRes → Bool
  | .poison _ => true
  | _ => false

/-- A value reaches a slot that was spilled while it was pending: memory takes it, or where a grant refuses the write the core keeps it for
the fill (R172, log entry 31). -/
def State.landSpilled (s : State) (k r ea : Nat) (p : Place) (w : Word) : State :=
  let gone := fun (s : State) => s.modCtx k r (fun x => { x with spilled := x.spilled.filter (fun q => q.1 ≠ ea) })
  let kept := fun (s : State) => s.modCtx k r (fun x => { x with spilled := x.spilled.map (fun q => if q.1 = ea then (ea, p, .val w) else q) })
  match p with
  | .mem a => gone (s.storeWords a [w])
  | .host a =>
    let t := s.hostWrite (.spill k r) 4 none (some (BitVec.ofNat 12 (xlatVmid (s.ctx k r).xlat))) a (wordBytes w)
    if t.2 = .refused then kept t.1 else gone t.1
  | _ => kept s

/-- The slots that carry tag `t`, wherever they are, take the result; spilled ones reach memory (R172). -/
def State.fillSlots (s : State) (k r t : Nat) (v : Slot) : State :=
  let x := s.ctx k r
  let put := fun (o : Slot) => if o = .tag t then v else o
  let s := s.modCtx k r (fun x => { x with ring := x.ring.map put })
  match x.spilled.find? (fun e => e.2.2 == .tag t), v with
  | some e, .val w => s.landSpilled k r e.1 e.2.1 w
  | some _, _ => s.modCtx k r (fun x => { x with spilled := x.spilled.map (fun q => (q.1, q.2.1, put q.2.2)) })
  | none, _ => s

/-- The result goes to its place; whether some place took it. -/
def State.placeResult (s : State) (k r t : Nat) (d : TagRec) (res : TagRes) : State × Bool :=
  let x := s.ctx k r
  match d.dest with
  | .stack => (s.fillSlots k r t (d.slot t res), x.ring.contains (.tag t) || x.spilled.any (fun e => e.2.2 == .tag t))
  | .fp f =>
    if alook f (s.core k).fpPend = some t then
      (s.modCore k (fun c => { c with
        fpPend := adel f c.fpPend
        fpr := match res with | .value v _ => tset 0 c.fpr f v | _ => c.fpr }), true)
    else (s, false)
  | .seg n =>
    let here := alook n x.segPend = some t
    match res with
    | .cap c =>
      let s := if here then s.modCtx k r (fun x => { x.setSeg n c with segPend := adel n x.segPend }) else s
      (d.tsbAt.foldl (fun s a => s.storeCap (a + 0x80 + 16 * n) c) s, true)
    | .poison e =>
      let p : Poison := { tag := t, cause := e, dpc := d.dpc, addr := d.addr }
      (s.modCtx k r (fun x => { x with
        segPend := if here then adel n x.segPend else x.segPend
        segPoison := if here then aput n p x.segPoison else x.segPoison
        tsbPoison := d.tsbAt.map (fun a => (a + 0x80 + 16 * n, p)) ++ x.tsbPoison }), here || d.tsbAt ≠ [])
    | _ => (s, true)

/-- The flags go to the issuer's ASR: in the core, or in the TSB of the first entry since the issue (R228). -/
def State.orFlags (s : State) (k r : Nat) (d : TagRec) (f : Word) : State :=
  if f = 0 then s
  else match d.tsbAt with
    | [] => s.modCtx k r (fun x => { x with asr := x.asr ||| f })
    | a :: _ => s.storeWords (a + 0x28) [s.word (a + 0x28) ||| f]

/-- A context whose wait is over; one in WAITING becomes READY (R171). -/
def Ctx.wakeWait (x : Ctx) (fin : WaitWhy → Bool) : Ctx :=
  match x.wait with
  | some w => if fin w then { x with wait := none, st := if x.st = .waiting then .ready else x.st } else x
  | none => x

/-- Tag `t` of store `r` returns. -/
def State.returnTag (s : State) (k r t : Nat) (d : TagRec) (res : TagRes) : State :=
  let q := s.placeResult k r t d res
  let s := q.1.orFlags k r d res.flags
  s.modCtx k r (fun x => Ctx.wakeWait { x with
    tags := adel t x.tags
    pdrop := if res.isPoison && !q.2 then (x.dropped 1).pdrop else x.pdrop }
    (fun w => w == .tag t || w == .tagLimit))

def effTagReturn (c : CoreId) (r t : Nat) (s : State) : State :=
  let k := s.coreKey c
  match alook t (s.ctx k r).tags with
  | some d =>
    match d.res with
    | some res =>
      let woke := (s.ctx k r).st = .waiting
      let s := s.returnTag k r t d res
      if woke ∧ (s.ctx k r).st = .ready ∧ k ≠ wardenKey then s.wakeShelf (keyShelf k) else s
    | none => s
  | none => s

/-- TAG_RETURN (R169). -/
def execTagReturn (c : CoreId) (store : Fin 16) (tag : Fin 8) (s : State) : Host.Outcome State Fault Refusal :=
  .next (effTagReturn c store.val tag.val s)

/-! ## Waits, quantum, cache, deterministic mode -/

/-- A wait that lets the scheduler switch (R171). -/
def WaitWhy.long : WaitWhy → Bool
  | .tag _ | .tagLimit | .storeBuffer => true
  | _ => false

def effWaitSwitch (c : CoreId) (s : State) : State :=
  let k := s.coreKey c
  match (s.core k).run with
  | some r =>
    let x := s.ctx k r
    let others := (List.range 16).any (fun i => i != r && s.runnable k i)
    match x.wait with
    | some w =>
      if s.coreLive k && w.long && others && decide ((s.core k).rps = []) && decide (x.waitSince + s.icNs k 32 ≤ s.now) then
        (s.modCtx k r (fun x => { x with st := .waiting })).modCore k Core.flushed |>.schedule k
      else s
    | none => s
  | none => s

/-- WAIT_SWITCH (R171). -/
def execWaitSwitch (c : CoreId) (s : State) : Host.Outcome State Fault Refusal := .next (effWaitSwitch c s)

def effQuantumExpiry (c : CoreId) (s : State) : State :=
  let k := s.coreKey c
  let q := if k = wardenKey then 4 else getF s (.shSchcfg (keyShelf k)) 47 40
  if s.coreLive k && (s.core k).run.isSome && decide (q ≠ 0 ∧ (s.core k).chosenAt + s.icNs k (q * 256) ≤ s.now) then
    s.modCore k (fun c => { c with quantumOut := true })
  else s

/-- QUANTUM_EXPIRY (R237). -/
def execQuantumExpiry (c : CoreId) (s : State) : Host.Outcome State Fault Refusal := .next (effQuantumExpiry c s)

end Sys2Proof.Machine
end

