-- ==== Sys2Proof/Machine/EfmarInt.lean ====
section
/-! DEFINITION. Stack, literal and integer instructions (Table 7.4; R169, R174, R192, R202, R203, R217, R218, R233). -/

namespace Sys2Proof.Machine

/-- DROP: a pending slot goes without waiting and its tag stays; a poisoned one is counted in PDROP (R169, R173). -/
def dropAction : Action := fun k r s =>
  (s.slotAt k r 0).bind (fun v s => doneIn (s.modCtx k r (fun x =>
    let y := x.replace 1 []
    match v with
    | .poison _ => y.dropped 1
    | _ => y)))

/-- PICK of slot `u`. -/
def pickAction (u : Nat) : Action := fun k r s =>
  (s.operand k r u).bind (fun v s => (s.room k r 0 1).bind (fun _ s => doneIn (s.modCtx k r (fun x => x.replace 0 [.val v]))))

/-- RPUSH: an address with the current window base (R202, R203, R234). -/
def rpushAction : Action := fun k r s =>
  (s.operand k r 0).bind (fun v s =>
    match (s.ctx k r).rpush (BitVec.ofNat 56 v.toNat) (s.ctx k r).wb with
    | some x => doneIn (s.setCtx k r (x.replace 1 []))
    | none => .exc (plainReport dRO) s)

/-- RPOP and RPEEK (R202). -/
def rpopAction (pop : Bool) : Action := fun k r s =>
  match (s.ctx k r).rtop with
  | none => .exc (plainReport dRU) s
  | some e => (s.room k r 0 1).bind (fun _ s => doneIn (s.modCtx k r (fun x =>
      { x.replace 0 [.val (BitVec.ofNat 64 e.1.toNat)] with rstack := if pop then x.rstack.drop 1 else x.rstack })))

/-- The 128-bit product, high half first. -/
def product (signed : Bool) (a b : Word) : Word × Word :=
  let p : BitVec 128 := if signed then a.signExtend 128 * b.signExtend 128 else a.setWidth 128 * b.setWidth 128
  ((p >>> 64).setWidth 64, p.setWidth 64)

/-- MUL and MULS: the low half at once, MPH and MPL after the next issue (R174). -/
def mulAction (signed : Bool) : Action := fun k r s =>
  (s.operands 2 k r 0).bind (fun vs s =>
    let p := product signed (vs.getD 1 0) (vs.getD 0 0)
    doneIn (s.modCtx k r (fun x => { x.replace 2 [.val p.2] with prod := some p, latchAt := s.now })))

/-- DIV, DIVU, REM and REMU as tagged operations (R218). -/
def divAction (signed rem : Bool) : Action :=
  tagged 2 true (fun vs t s =>
    let q := divide signed rem (vs.getD 1 0) (vs.getD 0 0)
    s.tagDone t (.value q.1 q.2))

/-- NOP (R192). -/
def execNop (c : CoreId) (s : State) : Host.Outcome State Fault Refusal :=
  .next (issue c { code := [0x00], act := fun _ _ s => doneIn s } s)

/-- DUP (R192). -/
def execDup (c : CoreId) (s : State) : Host.Outcome State Fault Refusal :=
  .next (issue c { code := [0x01], act := popPush 1 2 (fun l => [l.getD 0 0, l.getD 0 0]) } s)

/-- DROP (R169). -/
def execDrop (c : CoreId) (s : State) : Host.Outcome State Fault Refusal :=
  .next (issue c { code := [0x02], act := dropAction } s)

/-- SWAP (R192). -/
def execSwap (c : CoreId) (s : State) : Host.Outcome State Fault Refusal :=
  .next (issue c { code := [0x03], act := popPush 2 2 (fun l => [l.getD 1 0, l.getD 0 0]) } s)

/-- OVER (R192). -/
def execOver (c : CoreId) (s : State) : Host.Outcome State Fault Refusal :=
  .next (issue c { code := [0x04], act := popPush 2 3 (fun l => [l.getD 1 0, l.getD 0 0, l.getD 1 0]) } s)

/-- ROT (R192). -/
def execRot (c : CoreId) (s : State) : Host.Outcome State Fault Refusal :=
  .next (issue c { code := [0x05], act := popPush 3 3 (fun l => [l.getD 2 0, l.getD 0 0, l.getD 1 0]) } s)

/-- NIP (R192). -/
def execNip (c : CoreId) (s : State) : Host.Outcome State Fault Refusal :=
  .next (issue c { code := [0x06], act := popPush 2 1 (fun l => [l.getD 0 0]) } s)

/-- TUCK (R192). -/
def execTuck (c : CoreId) (s : State) : Host.Outcome State Fault Refusal :=
  .next (issue c { code := [0x07], act := popPush 2 3 (fun l => [l.getD 0 0, l.getD 1 0, l.getD 0 0]) } s)

/-- PICK (R192). -/
def execPick (c : CoreId) (u : BitVec 8) (s : State) : Host.Outcome State Fault Refusal :=
  .next (issue c { code := [0x08, u], act := legal (u.toNat < 32) (pickAction u.toNat) } s)

/-- DEPTH (R233). -/
def execDepth (c : CoreId) (s : State) : Host.Outcome State Fault Refusal :=
  .next (issue c { code := [0x09], act := fun k r s => pushWord (BitVec.ofNat 64 (s.ctx k r).depth) k r s } s)

/-- RPUSH (R202). -/
def execRpush (c : CoreId) (s : State) : Host.Outcome State Fault Refusal :=
  .next (issue c { code := [0x0A], act := rpushAction } s)

/-- RPOP (R202). -/
def execRpop (c : CoreId) (s : State) : Host.Outcome State Fault Refusal :=
  .next (issue c { code := [0x0B], act := rpopAction true } s)

/-- RPEEK (R202). -/
def execRpeek (c : CoreId) (s : State) : Host.Outcome State Fault Refusal :=
  .next (issue c { code := [0x0C], act := rpopAction false } s)

/-- LIT8 (R187). -/
def execLit8 (c : CoreId) (x : BitVec 8) (s : State) : Host.Outcome State Fault Refusal :=
  .next (issue c { code := [0x10, x], act := pushWord (x.signExtend 64) } s)

/-- LIT16 (R187). -/
def execLit16 (c : CoreId) (x : BitVec 16) (s : State) : Host.Outcome State Fault Refusal :=
  .next (issue c { code := 0x11 :: leBytes 2 x.toNat, act := pushWord (x.signExtend 64) } s)

/-- LIT32 (R187). -/
def execLit32 (c : CoreId) (x : BitVec 32) (s : State) : Host.Outcome State Fault Refusal :=
  .next (issue c { code := 0x12 :: leBytes 4 x.toNat, act := pushWord (x.signExtend 64) } s)

/-- LIT64 (R187). -/
def execLit64 (c : CoreId) (x : Word) (s : State) : Host.Outcome State Fault Refusal :=
  .next (issue c { code := 0x13 :: leBytes 8 x.toNat, act := pushWord x } s)

/-- ADD (R217). -/
def execAdd (c : CoreId) (s : State) : Host.Outcome State Fault Refusal :=
  .next (issue c { code := [0x20], act := binary (fun a b => a + b) } s)

/-- SUB (R217). -/
def execSub (c : CoreId) (s : State) : Host.Outcome State Fault Refusal :=
  .next (issue c { code := [0x21], act := binary (fun a b => a - b) } s)

/-- AND (R192). -/
def execAnd (c : CoreId) (s : State) : Host.Outcome State Fault Refusal :=
  .next (issue c { code := [0x22], act := binary (fun a b => a &&& b) } s)

/-- OR (R192). -/
def execOr (c : CoreId) (s : State) : Host.Outcome State Fault Refusal :=
  .next (issue c { code := [0x23], act := binary (fun a b => a ||| b) } s)

/-- XOR (R192). -/
def execXor (c : CoreId) (s : State) : Host.Outcome State Fault Refusal :=
  .next (issue c { code := [0x24], act := binary (fun a b => a ^^^ b) } s)

/-- NOT (R192). -/
def execNot (c : CoreId) (s : State) : Host.Outcome State Fault Refusal :=
  .next (issue c { code := [0x25], act := unary (fun a => ~~~ a) } s)

/-- NEG (R217). -/
def execNeg (c : CoreId) (s : State) : Host.Outcome State Fault Refusal :=
  .next (issue c { code := [0x26], act := unary (fun a => 0 - a) } s)

/-- SHL (R217). -/
def execShl (c : CoreId) (s : State) : Host.Outcome State Fault Refusal :=
  .next (issue c { code := [0x27], act := binary (fun a b => a <<< (b.toNat % 64)) } s)

/-- SHR (R217). -/
def execShr (c : CoreId) (s : State) : Host.Outcome State Fault Refusal :=
  .next (issue c { code := [0x28], act := binary (fun a b => a >>> (b.toNat % 64)) } s)

/-- SAR (R217). -/
def execSar (c : CoreId) (s : State) : Host.Outcome State Fault Refusal :=
  .next (issue c { code := [0x29], act := binary (fun a b => a.sshiftRight (b.toNat % 64)) } s)

/-- ROL (R217). -/
def execRol (c : CoreId) (s : State) : Host.Outcome State Fault Refusal :=
  .next (issue c { code := [0x2A], act := binary (fun a b => a.rotateLeft (b.toNat % 64)) } s)

/-- ROR (R217). -/
def execRor (c : CoreId) (s : State) : Host.Outcome State Fault Refusal :=
  .next (issue c { code := [0x2B], act := binary (fun a b => a.rotateRight (b.toNat % 64)) } s)

/-- MUL (R174, R217). -/
def execMul (c : CoreId) (s : State) : Host.Outcome State Fault Refusal :=
  .next (issue c { code := [0x2C], act := mulAction false } s)

/-- MULS (R174, R217). -/
def execMuls (c : CoreId) (s : State) : Host.Outcome State Fault Refusal :=
  .next (issue c { code := [0x2D], act := mulAction true } s)

/-- RDMPH (R174). -/
def execRdmph (c : CoreId) (s : State) : Host.Outcome State Fault Refusal :=
  .next (issue c { code := [0x2E], act := fun k r s => pushWord (s.ctx k r).mph k r s } s)

/-- RDMPL (R174). -/
def execRdmpl (c : CoreId) (s : State) : Host.Outcome State Fault Refusal :=
  .next (issue c { code := [0x2F], act := fun k r s => pushWord (s.ctx k r).mpl k r s } s)

/-- EQ (R192). -/
def execEq (c : CoreId) (s : State) : Host.Outcome State Fault Refusal :=
  .next (issue c { code := [0x30], act := binary (fun a b => b2w (a == b)) } s)

/-- LT (R192). -/
def execLt (c : CoreId) (s : State) : Host.Outcome State Fault Refusal :=
  .next (issue c { code := [0x31], act := binary (fun a b => b2w (a.slt b)) } s)

/-- LTU (R192). -/
def execLtu (c : CoreId) (s : State) : Host.Outcome State Fault Refusal :=
  .next (issue c { code := [0x32], act := binary (fun a b => b2w (a.ult b)) } s)

/-- MIN (R192). -/
def execMin (c : CoreId) (s : State) : Host.Outcome State Fault Refusal :=
  .next (issue c { code := [0x33], act := binary (fun a b => if a.slt b then a else b) } s)

/-- MAX (R192). -/
def execMax (c : CoreId) (s : State) : Host.Outcome State Fault Refusal :=
  .next (issue c { code := [0x34], act := binary (fun a b => if a.slt b then b else a) } s)

/-- MINU (R192). -/
def execMinu (c : CoreId) (s : State) : Host.Outcome State Fault Refusal :=
  .next (issue c { code := [0x35], act := binary (fun a b => if a.ult b then a else b) } s)

/-- MAXU (R192). -/
def execMaxu (c : CoreId) (s : State) : Host.Outcome State Fault Refusal :=
  .next (issue c { code := [0x36], act := binary (fun a b => if a.ult b then b else a) } s)

/-- SEXT (R192). -/
def execSext (c : CoreId) (u : BitVec 8) (s : State) : Host.Outcome State Fault Refusal :=
  .next (issue c { code := [0x37, u], act := legal (u.toNat < 64) (unary (fun a => sext (u.toNat + 1) a)) } s)

/-- ZEXT (R192). -/
def execZext (c : CoreId) (u : BitVec 8) (s : State) : Host.Outcome State Fault Refusal :=
  .next (issue c { code := [0x38, u], act := legal (u.toNat < 64) (unary (fun a => zext (u.toNat + 1) a)) } s)

/-- DIV (R218). -/
def execDiv (c : CoreId) (s : State) : Host.Outcome State Fault Refusal :=
  .next (issue c { code := [0x39], act := divAction true false } s)

/-- DIVU (R218). -/
def execDivu (c : CoreId) (s : State) : Host.Outcome State Fault Refusal :=
  .next (issue c { code := [0x3A], act := divAction false false } s)

/-- REM (R218). -/
def execRem (c : CoreId) (s : State) : Host.Outcome State Fault Refusal :=
  .next (issue c { code := [0x3B], act := divAction true true } s)

/-- REMU (R218). -/
def execRemu (c : CoreId) (s : State) : Host.Outcome State Fault Refusal :=
  .next (issue c { code := [0x3C], act := divAction false true } s)

/-- POPC (R192). -/
def execPopc (c : CoreId) (s : State) : Host.Outcome State Fault Refusal :=
  .next (issue c { code := [0x3D], act := unary (fun a => BitVec.ofNat 64 (popcount a)) } s)

/-- CLZ (R192). -/
def execClz (c : CoreId) (s : State) : Host.Outcome State Fault Refusal :=
  .next (issue c { code := [0x3E], act := unary (fun a => BitVec.ofNat 64 (clz a)) } s)

/-- BSWAP (R192). -/
def execBswap (c : CoreId) (s : State) : Host.Outcome State Fault Refusal :=
  .next (issue c { code := [0x3F], act := unary bswap } s)

end Sys2Proof.Machine
end

