-- ==== Sys2Proof/Machine/EfmarFp.lean ====
section
/-! DEFINITION. Floating-point instructions and the ownership of the FP registers (Table 7.8; R195, R220 to R224, R243, R244). -/

namespace Sys2Proof.Machine

/-- The shape of an encoded format. -/
def fpShape : FpFmt → FpShape
  | .f64 => fp64
  | .f32 => fp32

/-- The sign bit of a format. -/
def fpSign : FpFmt → Word
  | .f64 => 0x8000000000000000
  | .f32 => 0x80000000

/-- Fields of the immediate (R195). -/
def fpD (r : BitVec 8) : Nat := r.toNat / 16
def fpS (r : BitVec 8) : Nat := r.toNat % 16
def oneReg (r : BitVec 8) : Bool := decide (fpS r = 0)

/-! ## Registers and ownership (R243) -/

/-- The issuing context owns the FP registers, or it waits for the hand-over. -/
def State.fpOwned (s : State) (k r : Nat) : Res Unit := if (s.core k).fpOwn = some r then .ok () s else .wait .fpOwner s

/-- The bits of FP register `f`; a pending one waits and a poisoned one raises DE. -/
def State.fpRead (s : State) (k f : Nat) : Res Word :=
  match alook f (s.core k).fpPend with
  | some t => .wait (.tag t) s
  | none =>
    match alook f (s.core k).fpPoison with
    | some p => .exc p.report s
    | none => .ok (tget 0 (s.core k).fpr f) s

/-- A destination register must not be pending (R169). -/
def State.fpFree (s : State) (k f : Nat) : Res Unit :=
  match alook f (s.core k).fpPend with
  | some t => .wait (.tag t) s
  | none => .ok () s

/-- FP register `f` is to be overwritten: a poisoned value in it is discarded unread (R173). -/
def State.fpDrop (s : State) (k f : Nat) : State :=
  match alook f (s.core k).fpPoison, (s.core k).fpOwn with
  | some _, some r => s.modCtx k r (fun x => x.dropped 1)
  | _, _ => s

/-- Write an FP register; the poison that a hand-over left there goes. -/
def State.fpWrite (s : State) (k f : Nat) (v : Word) : State :=
  (s.fpDrop k f).modCore k (fun c => { c with fpr := tset 0 c.fpr f v, fpPoison := adel f c.fpPoison })

/-- Flags of an instruction that completes at issue (R227). -/
def State.setFlags (s : State) (k r : Nat) (f : Word) : State := s.modCtx k r (fun x => { x with asr := x.asr ||| f })

/-- Open a tag whose result goes to FP register `d`, and give it its result. -/
def State.fpTag (s : State) (k r d : Nat) (v : Nat) (f : Word) : Res Flow :=
  (s.takeTags k r 1).bind (fun ts s =>
    let t := ts.getD 0 0
    let s := s.openTag k r t { dpc := (s.ctx k r).pc, addr := 0, dest := .fp d, arith := true, fp := true }
    let s := (s.fpDrop k d).modCore k (fun c => { c with fpPend := aput d t c.fpPend, fpPoison := adel d c.fpPoison })
    doneIn (s.tagDone (s.tagRef k r t) (.value (BitVec.ofNat 64 v) f)))

/-! ## Instruction forms -/

/-- FADD to FDIV: fd := fd op fs, and FSQRT, of fs alone, as a tagged operation, rounded by RM of the issue (R221). -/
def fpTagged (both : Bool) (f : FpFmt) (i : BitVec 8) (g : FpShape → Nat → FpVal → FpVal → Nat × Word) : Action := fun k r s =>
  (s.fpOwned k r).bind (fun _ s => (if both then s.fpRead k (fpD i) else (s.fpFree k (fpD i)).bind (fun _ s => .ok 0 s)).bind (fun x s =>
  (s.fpRead k (fpS i)).bind (fun y s =>
    let h := (fpShape f)
    let q := g h (asrRm (s.ctx k r).asr) (h.read x.toNat) (h.read y.toNat)
    s.fpTag k r (fpD i) q.1 q.2)))

/-- FMIN, FMAX, FMOV, FNEG, FABS: fd := g fd fs at once. -/
def fpQuick (i : BitVec 8) (g : Word → Word → Nat × Word) : Action := fun k r s =>
  (s.fpOwned k r).bind (fun _ s => (s.fpRead k (fpD i)).bind (fun x s => (s.fpRead k (fpS i)).bind (fun y s =>
    let q := g x y
    doneIn ((s.fpWrite k (fpD i) (BitVec.ofNat 64 q.1)).setFlags k r q.2))))

/-- Moves read their source alone: fd := g fs at once (R222). -/
def fpMove (i : BitVec 8) (g : Word → Word) : Action := fun k r s =>
  (s.fpOwned k r).bind (fun _ s => (s.fpFree k (fpD i)).bind (fun _ s => (s.fpRead k (fpS i)).bind (fun y s =>
    doneIn (s.fpWrite k (fpD i) (g y)))))

def fcmpAction (f : FpFmt) (i : BitVec 8) : Action := fun k r s =>
  (s.fpOwned k r).bind (fun _ s => (s.fpRead k (fpD i)).bind (fun x s => (s.fpRead k (fpS i)).bind (fun y s =>
    let q := fpCmp ((fpShape f).read x.toNat) ((fpShape f).read y.toNat)
    (pushWord (BitVec.ofNat 64 q.1) k r s).bind (fun w s => .ok w (s.setFlags k r q.2)))))

/-- The bits of a word that a format uses (R195). -/
def fpLow (f : FpFmt) (v : Word) : Word := BitVec.ofNat 64 (v.toNat % 2 ^ (fpShape f).width)

def fmoviAction (f : FpFmt) (i : BitVec 8) : Action := fun k r s =>
  (s.fpOwned k r).bind (fun _ s => (s.fpFree k (fpD i)).bind (fun _ s => (s.operand k r 0).bind (fun v s =>
    doneIn ((s.modCtx k r (fun x => x.replace 1 [])).fpWrite k (fpD i) (fpLow f v)))))

def fmovoAction (f : FpFmt) (i : BitVec 8) : Action := fun k r s =>
  (s.fpOwned k r).bind (fun _ s => (s.fpRead k (fpD i)).bind (fun x s => pushWord (fpLow f x) k r s))

/-- The signed integer of a stack value: 64 bits, or the low 32 (R224). -/
def fpInt (f : FpFmt) (v : Word) : Int :=
  match f with
  | .f64 => v.toInt
  | .f32 => (v.setWidth 32).toInt

def fcvtiAction (f : FpFmt) (i : BitVec 8) : Action := fun k r s =>
  (s.fpOwned k r).bind (fun _ s => (s.fpFree k (fpD i)).bind (fun _ s => (s.operand k r 0).bind (fun v s =>
    (s.takeTags k r 1).bind (fun _ s =>
      let q := fpOfInt (fpShape f) (asrRm (s.ctx k r).asr) (fpInt f v)
      (s.modCtx k r (fun x => x.replace 1 [])).fpTag k r (fpD i) q.1 q.2))))

/-- FCVTF rounds toward zero whatever RM holds (R221). -/
def fcvtfAction (f : FpFmt) (i : BitVec 8) : Action := fun k r s =>
  (s.fpOwned k r).bind (fun _ s => (s.fpRead k (fpD i)).bind (fun x s =>
    let q := fpToInt (fpShape f).width ((fpShape f).read x.toNat)
    (s.room k r 0 1).bind (fun _ s => (s.takeTags k r 1).bind (fun ts s =>
      let t := ts.getD 0 0
      let s := s.pushTag k r 0 t { dpc := 0, addr := 0, dest := .stack, arith := true, fp := true }
      doneIn (s.tagDone (s.tagRef k r t) (.value (fpLow f (BitVec.ofInt 64 q.1)) q.2))))))

/-- FCVT: the format of the encoding is that of fd (Table 7.8). -/
def fcvtAction (f : FpFmt) (i : BitVec 8) : Action := fun k r s =>
  (s.fpOwned k r).bind (fun _ s => (s.fpFree k (fpD i)).bind (fun _ s => (s.fpRead k (fpS i)).bind (fun y s =>
    let src := match f with | .f64 => fp32 | .f32 => fp64
    let q := fpConvert (fpShape f) (asrRm (s.ctx k r).asr) (src.read y.toNat)
    s.fpTag k r (fpD i) q.1 q.2)))

/-! ## The hand-over (R243) -/

/-- FPR field of the TSB that a context's TSBP names, when it lies in the core's own memory. -/
def State.fprAddr (s : State) (k r : Nat) : Option Nat := (tsbAddr k (s.ctx k r).tsbp).map (· + 0x100)

/-- Save the 16 registers of the owner in store `r` to its TSB; with no valid TSBP they are lost (log entry 28). -/
def State.fpSave (s : State) (k r : Nat) : State :=
  match s.fprAddr k r with
  | some a => s.storeWords a ((List.range 16).map (fun i => tget 0 (s.core k).fpr i))
  | none => s

/-- Load the registers of the context in store `r`; an uncorrectable word poisons its register (R243). -/
def State.fpLoad (s : State) (k r : Nat) : State :=
  match s.fprAddr k r with
  | some a =>
    let bad := (List.range 16).filter (fun i => s.badIn (a + 8 * i) 8)
    s.modCore k (fun c => { c with
      fpr := (List.range 16).foldl (fun t i => tset 0 t i (s.word (a + 8 * i))) []
      fpPoison := bad.map (fun i => (i, { tag := 0, cause := 5, dpc := (s.ctx k r).pc, addr := BitVec.ofNat 64 (ownEa k (a + 8 * i)) })) })
  | none => s.modCore k (fun c => { c with fpr := [], fpPoison := [] })

def effFpHandover (c : CoreId) (s : State) : State :=
  let k := s.coreKey c
  match (s.core k).run with
  | some r =>
    if s.coreLive k && decide ((s.ctx k r).wait = some .fpOwner) then
      match (s.core k).fpOwn with
      | some o => if (s.ctx k o).tags.all (fun e => !e.2.fp) then (((s.fpSave k o).fpLoad k r).modCore k (fun c => { c with fpOwn := some r })) else s
      | none => (s.fpLoad k r).modCore k (fun c => { c with fpOwn := some r })
    else s
  | none => s

/-- FP_HANDOVER (R243). -/
def execFpHandover (c : CoreId) (s : State) : Host.Outcome State Fault Refusal := .next (effFpHandover c s)

/-- FADD (R221, R224). -/
def execFadd (c : CoreId) (f : FpFmt) (r : BitVec 8) (s : State) : Host.Outcome State Fault Refusal :=
  .next (issue c { code := [fpOpcode f 0x0, r], act := fpTagged true f r (fun h m a b => fpAdd h m a b) } s)

/-- FSUB (R221, R224). -/
def execFsub (c : CoreId) (f : FpFmt) (r : BitVec 8) (s : State) : Host.Outcome State Fault Refusal :=
  .next (issue c { code := [fpOpcode f 0x1, r], act := fpTagged true f r (fun h m a b => fpAdd h m a b.neg) } s)

/-- FMUL (R221, R224). -/
def execFmul (c : CoreId) (f : FpFmt) (r : BitVec 8) (s : State) : Host.Outcome State Fault Refusal :=
  .next (issue c { code := [fpOpcode f 0x2, r], act := fpTagged true f r (fun h m a b => fpMul h m a b) } s)

/-- FDIV (R221, R224). -/
def execFdiv (c : CoreId) (f : FpFmt) (r : BitVec 8) (s : State) : Host.Outcome State Fault Refusal :=
  .next (issue c { code := [fpOpcode f 0x3, r], act := fpTagged true f r (fun h m a b => fpDiv h m a b) } s)

/-- FSQRT (R221, R224). -/
def execFsqrt (c : CoreId) (f : FpFmt) (r : BitVec 8) (s : State) : Host.Outcome State Fault Refusal :=
  .next (issue c { code := [fpOpcode f 0x4, r], act := fpTagged false f r (fun h m _ b => fpSqrt h m b) } s)

/-- FMIN (R224). -/
def execFmin (c : CoreId) (f : FpFmt) (r : BitVec 8) (s : State) : Host.Outcome State Fault Refusal :=
  .next (issue c { code := [fpOpcode f 0x5, r], act := fpQuick r (fun x y => fpMinMax (fpShape f) false x.toNat y.toNat) } s)

/-- FMAX (R224). -/
def execFmax (c : CoreId) (f : FpFmt) (r : BitVec 8) (s : State) : Host.Outcome State Fault Refusal :=
  .next (issue c { code := [fpOpcode f 0x6, r], act := fpQuick r (fun x y => fpMinMax (fpShape f) true x.toNat y.toNat) } s)

/-- FCMP (R224). -/
def execFcmp (c : CoreId) (f : FpFmt) (r : BitVec 8) (s : State) : Host.Outcome State Fault Refusal :=
  .next (issue c { code := [fpOpcode f 0x7, r], act := fcmpAction f r } s)

/-- FMOVI (R222). -/
def execFmovi (c : CoreId) (f : FpFmt) (r : BitVec 8) (s : State) : Host.Outcome State Fault Refusal :=
  .next (issue c { code := [fpOpcode f 0x8, r], act := legal (oneReg r) (fmoviAction f r) } s)

/-- FMOVO (R222). -/
def execFmovo (c : CoreId) (f : FpFmt) (r : BitVec 8) (s : State) : Host.Outcome State Fault Refusal :=
  .next (issue c { code := [fpOpcode f 0x9, r], act := legal (oneReg r) (fmovoAction f r) } s)

/-- FCVTI (R224). -/
def execFcvti (c : CoreId) (f : FpFmt) (r : BitVec 8) (s : State) : Host.Outcome State Fault Refusal :=
  .next (issue c { code := [fpOpcode f 0xA, r], act := legal (oneReg r) (fcvtiAction f r) } s)

/-- FCVTF (R224). -/
def execFcvtf (c : CoreId) (f : FpFmt) (r : BitVec 8) (s : State) : Host.Outcome State Fault Refusal :=
  .next (issue c { code := [fpOpcode f 0xB, r], act := legal (oneReg r) (fcvtfAction f r) } s)

/-- FMOV (R222). -/
def execFmov (c : CoreId) (f : FpFmt) (r : BitVec 8) (s : State) : Host.Outcome State Fault Refusal :=
  .next (issue c { code := [fpOpcode f 0xC, r], act := fpMove r (fpLow f) } s)

/-- FNEG (R222). -/
def execFneg (c : CoreId) (f : FpFmt) (r : BitVec 8) (s : State) : Host.Outcome State Fault Refusal :=
  .next (issue c { code := [fpOpcode f 0xD, r], act := fpMove r (fun y => fpLow f (y ^^^ fpSign f)) } s)

/-- FABS (R222). -/
def execFabs (c : CoreId) (f : FpFmt) (r : BitVec 8) (s : State) : Host.Outcome State Fault Refusal :=
  .next (issue c { code := [fpOpcode f 0xE, r], act := fpMove r (fun y => fpLow f (y &&& ~~~ fpSign f)) } s)

/-- FCVT (R220, R224). -/
def execFcvt (c : CoreId) (f : FpFmt) (r : BitVec 8) (s : State) : Host.Outcome State Fault Refusal :=
  .next (issue c { code := [fpOpcode f 0xF, r], act := fcvtAction f r } s)

end Sys2Proof.Machine
end

