-- ==== Sys2Proof/Machine/HostRead.lean ====
section
/-! DEFINITION. What a core reads from host memory and its tag table through the port caches (R252, R320, R321). -/

namespace Sys2Proof.Machine

/-- The bytes of one host line that its serving port holds. -/
def State.lineData (s : State) (line : Nat) : Option (List Byte) := (alook line (s.port (s.servingPort line)).lines).map (·.data)

/-- Lines of `n` bytes at host address `a`. -/
def hostLines (a n : Nat) : List Nat := (List.range ((a + n - 1) / 64 - a / 64 + 1)).map (fun i => a / 64 + i)

/-- `n` bytes at host address `a`, when the ports hold every line of them. -/
def State.hostBytes (s : State) (a n : Nat) : Option (List Byte) :=
  if n = 0 then some []
  else
    let ds := (hostLines a n).map s.lineData
    if ds.all Option.isSome then some (slice (ds.flatMap (fun d => d.getD [])) (a % 64) n) else none

/-- The request is outstanding or waits on the port. -/
def Port.asked (p : Port) (op : HostOp) (line : Nat) (who : HostWho) : Bool :=
  p.reqs.any (fun e => e.2.op == op && e.2.line == line && e.2.who == who)

/-- Ask the serving port for a line unless that request is outstanding; where the write-back buffer is full the access waits (R325). -/
def State.askLine (s : State) (op : HostOp) (who : HostWho) (line : Nat) : State :=
  let p := s.servingPort line
  if (s.port p).asked op line who then s
  else match s.makeRoom p line with
    | some t => t.request p { op := op, line := line, se := false, who := who, data := [], be := 0 }
    | none => s

/-- Ask for a line with READ-THROUGH, which allocates nothing. -/
def State.askThrough (s : State) (who : HostWho) (line : Nat) (se : Bool) (grant : Option Nat := none) : State :=
  s.request (s.servingPort line) { op := .readThrough, line := line, se := se, who := who, data := [], be := 0, grant := grant }

/-- Ask for the lines of `n` bytes at `a` that no port holds. -/
def State.askHost (s : State) (a n : Nat) (who : HostWho) : State :=
  ((hostLines a n).filter (fun l => (s.lineData l).isNone)).foldl (fun s l => s.askLine .acqShare who l) s

/-- The tag of the granule at host address `a`: clear outside the region, none while its line is not held. -/
def State.hostTag (s : State) (a : Nat) : Option Bool :=
  if s.inTagRegion a 16 then (s.hostBytes (s.tagSpot a).1 1).map (fun b => (b.getD 0 0).getLsbD (s.tagSpot a).2) else some false

/-- A byte of the log store: record SEQ lies at (SEQ mod 32,768) × 32, as the mirror has it (R368); one not yet written reads zero. -/
def State.logByte (s : State) (o : Nat) : Byte :=
  match s.warden.log.reverse.find? (fun r => r.seq.toNat % logSize == o / 32) with
  | some r => r.bytes.getD (o % 32) 0
  | none => 0

/-- The 16 bytes of a snapshot entry (Table 15.6). -/
def SnapEnt.bytes (e : SnapEnt) : List Byte :=
  fromWords [BitVec.ofNat 64 e.time, place 63 62 e.st.toNat ||| place 31 16 e.aux.toNat ||| place 15 0 e.value.toNat]

/-- A byte of the telemetry snapshot. -/
def State.snapByte (s : State) (o : Nat) : Byte := (tget {} s.warden.snap (o / 16)).bytes.getD (o % 16) 0

/-- Bytes of a place, when they are at hand. -/
def State.placeBytes (s : State) (p : Place) (n : Nat) : Option (List Byte) :=
  match p with
  | .mem a => some (s.bytes a n)
  | .host a => s.hostBytes a n
  | .rom o => some ((List.range n).map (fun i => Config.rom (o + i)))
  | .log o => some ((List.range n).map (fun i => s.logByte (o + i)))
  | .snap o => some ((List.range n).map (fun i => s.snapByte (o + i)))
  | _ => none

/-- Bytes of several places in turn. -/
def State.placesBytes (s : State) : List (Place × Nat) → Option (List Byte)
  | [] => some []
  | (p, n) :: t =>
    match s.placeBytes p n, State.placesBytes s t with
    | some b, some c => some (b ++ c)
    | _, _ => none

/-- A shelf whose memory the access reaches and which is in reset or retired, so that the flue returns NOT-PRESENT (R25). -/
def State.goneMem (s : State) (ps : List Piece) : Bool :=
  ps.any (fun p => match p.place with | .mem a => decide (a < 0x8000000) && s.shelfGone (a / 0x200000) | _ => false)

/-- Ask for what is not at hand of several places. -/
def State.askPlaces (s : State) (ps : List (Place × Nat)) (who : HostWho) : State :=
  ps.foldl (fun s p => match p.1 with | .host a => s.askHost a p.2 who | _ => s) s

/-- The place of byte `i` of several places. -/
def placeAt : List (Place × Nat) → Nat → Option Place
  | [], _ => none
  | (p, n) :: t, i =>
    if i < n then some (match p with
      | .mem a => .mem (a + i) | .host a => .host (a + i) | .ctl a => .ctl (a + i) | .rom a => .rom (a + i)
      | .log a => .log (a + i) | .snap a => .snap (a + i))
    else placeAt t (i - n)

/-- The tag of a granule, when it is at hand. -/
def State.placeTag (s : State) (p : Place) : Option Bool :=
  match p with
  | .mem a => some (s.tagAt a)
  | .host a => s.hostTag a
  | _ => some false

end Sys2Proof.Machine
end

