-- ==== Sys2Proof/Machine/Contexts.lean ====
section
/-! DEFINITION. Resident stores: spill and fill, context moves, sleep and wakes, shelf idling (R229 to R245). -/

namespace Sys2Proof.Machine

/-! ## Idle shelves (R242) -/

/-- A store whose context keeps its shelf from idling. -/
def CtxSt.busy : CtxSt → Bool
  | .ready | .running | .waiting => true
  | _ => false

/-- No core of the shelf holds a context in READY, RUNNING or WAITING. -/
def State.shelfIdle (s : State) (n : Nat) : Bool :=
  (s.ctxs.filter (fun e => e.1 / 256 == n)).all (fun e => !e.2.st.busy)

/-- The shelf of a core may have become idle now. -/
def State.noteIdle (s : State) (k : Nat) : State :=
  if k ≠ wardenKey ∧ s.shelfIdle (keyShelf k) = true then s.modShelf (keyShelf k) (fun h => { h with idleSince := s.now }) else s

/-! ## Spill and fill (R235, R236) -/

/-- The place of the stack slot at offset `off` of seg.s, when spill or fill may use it. -/
def State.stackPlace (s : State) (k : Nat) (x : Ctx) (a : AKind) (off : Nat) : Option (Place × Nat) :=
  match s.checkAccess k x segS a off 8 with
  | .ok [p] => if p.se then none else some (p.place, p.ea)
  | _ => none

/-- A and D atomics that the stack's page still needs. -/
def State.stackOwes (s : State) (k : Nat) (x : Ctx) (a : AKind) (off : Nat) : Option (Nat × Word) :=
  match s.checkAccess k x segS a off 8 with
  | .owed i b => some (i, b)
  | _ => none

/-- Write the oldest ring slot to the stack segment; none where the spill is stopped. -/
def State.spillOne (s : State) (k r : Nat) : Option State :=
  let x := s.ctx k r
  match x.ring.getLast?, s.stackPlace k x .spill x.sp.toNat with
  | some v, some (p, ea) =>
    let done := fun (s : State) => s.modCtx k r (fun y => { y with
      ring := y.ring.dropLast
      sp := y.sp + 8
      spilled := (match v with | .val _ => [] | o => [(ea, p, o)]) ++ y.spilled.filter (fun e => e.1 ≠ ea) })
    match v, p with
    | .val w, .mem a => if a < 0x8000000 ∧ s.shelfGone (a / 0x200000) = true then none else some (done (s.storeWords a [w]))
    | .val w, .host a =>
      let t := s.hostWrite (.spill k r) 4 none (some (BitVec.ofNat 12 (xlatVmid x.xlat))) a (wordBytes w)
      if t.2 = .refused then none else some (done t.1)
    | .val _, _ => none
    | _, _ => some (done s)
  | _, _ => none

def effSpill (c : CoreId) (r : Nat) (s : State) : State :=
  let k := s.coreKey c
  let x := s.ctx k r
  if s.coreLive k && x.resident && x.st != .loading && decide (40 < x.ring.length ∧ x.wait ≠ some .fill) then
    match s.stackOwes k x .spill x.sp.toNat with
    | some o => s.owe k o.1 o.2
    | none => (s.spillOne k r).getD s
  else s

/-- SPILL (R235). -/
def execSpill (c : CoreId) (store : Fin 16) (s : State) : Host.Outcome State Fault Refusal := .next (effSpill c store.val s)

/-- A slot that reads as uncorrectable is poisoned (R173, R305). -/
def badSlot (x : Ctx) (ea : Nat) : Slot := .poison { tag := 0, cause := 5, dpc := x.pc, addr := BitVec.ofNat 64 ea }

/-- Read the newest stacked slot back into the ring; it waits for a host line that no port holds. -/
def State.fillOne (s : State) (k r : Nat) : State :=
  let x := s.ctx k r
  if x.stacked = 0 then s
  else match s.stackPlace k x .fill (x.sp.toNat - 8) with
    | none => s
    | some (p, ea) =>
      let put := fun (s : State) (v : Slot) => s.modCtx k r (fun y => { y with
        ring := y.ring ++ [v]
        sp := y.sp - 8
        spilled := y.spilled.filter (fun e => e.1 ≠ ea) })
      match alook ea x.spilled, p with
      | some v, _ => put s v.2
      | none, .mem a => if s.badIn a 8 then put (s.eccUnc a) (badSlot x ea) else put s (.val (s.word a))
      | none, .host a =>
        match s.hostBytes a 8 with
        | some b => put s (.val (bytesWord b))
        | none => s.askHost a 8 (.spill k r)
      | none, _ => s

def effFill (c : CoreId) (r : Nat) (s : State) : State :=
  let k := s.coreKey c
  let x := s.ctx k r
  if s.coreLive k && x.resident && x.st != .loading && decide (x.ring.length < 8 ∨ x.wait = some .fill) && decide (x.ring.length < ringSize) &&
    x.stacked != 0 then
    match s.stackOwes k x .fill (x.sp.toNat - 8) with
    | some o => s.owe k o.1 o.2
    | none => s.fillOne k r
  else s

/-- FILL (R235). An instruction that waits for a slot has its fill run whatever O is (log entry 29). -/
def execFill (c : CoreId) (store : Fin 16) (s : State) : Host.Outcome State Fault Refusal := .next (effFill c store.val s)

/-! ## Moves (R232, Tables 9.2, 9.8, 9.9) -/

def rOk : Nat := 0
def rInUse : Nat := 1
def rTags : Nat := 2
def rSelf : Nat := 3
def rBadTsb : Nat := 4
def rEmpty : Nat := 5

/-- CTXRES: BUSY, RESULT and CTX. -/
def ctxresWord (busy : Bool) (result ctx : Nat) : Word := bitIf 63 busy ||| place 62 60 result ||| place 19 0 ctx

/-- The core that SLOT of CTXCMD names; the warden has one. -/
def State.cmdCore (s : State) (k : Nat) (v : Word) : Nat :=
  if k = wardenKey then k
  else 16 * keyShelf k + (if s.paired (keyShelf k) then fld v 55 52 / 2 * 2 else fld v 55 52)

/-- Record the end of a command that changes nothing more. -/
def State.cmdEnds (s : State) (k result ctx : Nat) : State := s.modCore k (fun c => { c with ctxRes := ctxresWord false result ctx, mov := none })

/-- The slot is quarantined and empty, so that it takes no context (R416). -/
def State.slotClosed (s : State) (k : Nat) : Bool :=
  k != wardenKey && s.vexek.quar.contains (keyShelf k, keySlot k)

/-- A LOAD or NEWLOAD that nothing refuses waits for the capability of seg.x3, or for the A atomics of its page (R194, R270). -/
def State.loadHeld (s : State) (k r : Nat) (v : Word) : Option (WaitWhy × State) :=
  let dk := s.cmdCore k v
  if (fld v 63 60 = 1 ∨ fld v 63 60 = 2) ∧ (s.core k).mov.isNone ∧ (s.ctx dk (fld v 51 48)).st = .free then
    match s.checkAccess k (s.ctx k r) segX3 .load 0 512 with
    | .pending t => some (.tag t, s)
    | .owed i b => some (.other, s.owe k i b)
    | _ => none
  else none

/-- LOAD and NEWLOAD at issue: refused, or the store is LOADING and the command is in progress. -/
def State.startLoad (s : State) (k r : Nat) (v : Word) : State :=
  let x := s.ctx k r
  let dk := s.cmdCore k v
  let dr := fld v 51 48
  let id := fld v 19 0
  if (s.ctx dk dr).st ≠ .free ∨ s.slotClosed dk = true ∨ s.coreLive dk = false then s.cmdEnds k rInUse id
  else match s.checkAccess k x segX3 .load 0 512 with
    | .ok ps =>
      let s := s.setCtx dk dr { st := .loading, ctx := BitVec.ofNat 20 id }
      s.modCore k (fun c => { c with
        ctxRes := ctxresWord true rOk id
        mov := some { op := fld v 63 60, core := dk, store := dr, ctx := BitVec.ofNat 20 id, src := ps.map (fun p => (p.place, p.len)),
                      ea := (x.seg segX3).base.toNat } })
    | _ => s.cmdEnds k rBadTsb id

/-- The context that LOAD makes of a TSB (R232); the return stack of a parked context has no place in the TSB, so its entries are free
values (log entry 30). -/
def loadedCtx (new : Bool) (id : BitVec 20) (w : Nat → Word) (caps : Nat → Cap) (ea : Nat) (open_ : Nat → Word) : Ctx :=
  let ccw := w 0
  let ring := if new then 0 else w 0x60
  let sp := fld (w 0x68) 55 0
  let n := min 32 (fld ring 51 46)
  let x : Ctx := {
    st := .ready
    ctx := id
    prio := if new then 0 else BitVec.ofNat 2 (fld ccw 58 57)
    ct := !new && bitAt ccw 56
    rsm := !new && bitAt ccw 55
    wmask := if new then 0 else BitVec.ofNat 4 (fld ccw 54 51)
    pc := BitVec.ofNat 56 (fld (w 8) 55 0)
    asr := if new then 0 else w 0x28 &&& 0x37F
    pkeys := w 0x30 &&& 0x7777777777777777
    xlat := w 0x38 &&& 0xCFFFFFFF00000000
    s1root := w 0x40 &&& 0x7FFFFFFFFF000
    s2root := w 0x48 &&& 0x7FFFFFFFFF000
    mph := w 0x50
    mpl := w 0x58
    sp := BitVec.ofNat 56 sp
    wb := sp / 8 - fld ring 57 52
    rstack := (List.range n).map (fun i => ((open_ (2 * i)).setWidth 56, (open_ (2 * i + 1)).toNat))
    rsFloor := fld ring 45 40
    mprog := BitVec.ofNat 16 (fld ring 15 0)
    mbuf := if fld ring 15 0 = 0 then [] else (List.range 15).map (fun i => w (0x188 + 8 * i))
    etsb := caps 0x70
    tsbp := { rights := 0xD0, otype := 0, base := BitVec.ofNat 56 ea, limit := BitVec.ofNat 56 (ea + 511), tag := true } }
  (List.range 8).foldl (fun y i => y.setSeg i (caps (0x80 + 16 * i))) x

/-- Apply the wakes that a LOADING context held (Table 9.5). -/
def Ctx.applyLate (x : Ctx) : Ctx :=
  x.lateWakes.foldl (fun y w => y.wakeBits w.1 w.2) { x with lateWakes := [] }

/-- Tags of the capabilities in a TSB, when all are at hand. -/
def State.tsbTags (s : State) (src : List (Place × Nat)) : Option (List (Nat × Bool)) :=
  let offs := 0x70 :: (List.range 8).map (fun i => 0x80 + 16 * i)
  let ts := offs.map (fun o => (o, (placeAt src o).bind s.placeTag))
  if ts.all (fun e => e.2.isSome) then some (ts.map (fun e => (e.1, e.2.getD false))) else none

/-- Fill up to `n` slots. -/
def State.fillMany : Nat → State → Nat → Nat → State
  | 0, s, _, _ => s
  | n + 1, s, k, r => State.fillMany n (s.fillOne k r) k r

/-- The first uncorrectable word of shelf memory that a load reads in the TSB (Table 12.3). -/
def State.srcBad (s : State) (src : List (Place × Nat)) : Option Nat :=
  let at_ := fun (o n : Nat) => (List.range n).findSome? (fun i => match placeAt src (o + 8 * i) with | some (.mem a) => s.badAt a 8 | _ => none)
  at_ 0 32 <|> (if ((s.placesBytes src).map (fun b => fld (wordIn b 0x60) 15 0)).getD 0 = 0 then none else at_ 0x188 15)

/-- The load's TSB is at hand: the context becomes READY; else its lines are asked for. A TSB with an uncorrectable word is bad (log entry 138). -/
def State.finishLoad (s : State) (k : Nat) (m : CtxMove) : State :=
  match s.srcBad m.src with
  | some w => ((s.eccUnc w).setCtx m.core m.store {}).cmdEnds k rBadTsb m.ctx.toNat
  | none =>
  match s.placesBytes m.src, s.tsbTags m.src with
  | some b, some tags =>
    let w := fun o => wordIn b o
    let caps := fun o => capOfWords (w o) (w (o + 8)) ((alook o tags).getD false)
    let late := (s.ctx m.core m.store).lateWakes
    let x := loadedCtx (m.op == 2) m.ctx w caps m.ea (fun i => Config.freeValue (s.freeCtr + i))
    let x := Ctx.applyLate { x with lateWakes := late, hold := (s.ctx m.core m.store).hold }
    let x := if m.core = wardenKey then { x with xlat := 0 } else x
    let s := { s with freeCtr := s.freeCtr + 64 }
    let s := (s.setCtx m.core m.store x).fillMany (if m.op = 2 then 0 else 8) m.core m.store
    let s := if m.core = wardenKey then s else s.wakeShelf (keyShelf m.core)
    s.cmdEnds k rOk m.ctx.toNat
  | _, _ =>
    let s := s.askPlaces m.src (.spill m.core m.store)
    (0x70 :: (List.range 8).map (fun i => 0x80 + 16 * i)).foldl (fun s o =>
      match placeAt m.src o with
      | some (.host a) => if s.inTagRegion a 16 then s.askHost (s.tagSpot a).1 1 (.spill m.core m.store) else s
      | _ => s) s

/-- Spill every ring slot; none where one cannot be spilled. A poisoned slot leaves a free value in memory (log entry 31). -/
def State.spillAll : Nat → State → Nat → Nat → Option State
  | 0, s, _, _ => some s
  | n + 1, s, k, r =>
    let x := s.ctx k r
    match x.ring.getLast? with
    | none => some s
    | some v =>
      let s := match v with
        | .poison _ => (s.modCtx k r (fun y => { y with ring := y.ring.dropLast ++ [Slot.val s.free] })).drawn
        | _ => s
      match s.spillOne k r with
      | some t => State.spillAll n t k r
      | none => none

/-- Write bytes at offset `off` of an access through its pieces, as the writer that SRC and the VMID name (R330, Table 13.18). -/
def State.putPieces (s : State) (who : HostWho) (src : Nat) (vmid : Option (BitVec 12)) : List Piece → Nat → List Byte → State
  | [], _, _ => s
  | p :: t, off, b =>
    if p.len ≤ off then State.putPieces s who src vmid t (off - p.len) b
    else
      let n := p.len - off
      let s := match p.place with
        | .mem a => s.store (a + off) (b.take n)
        | .host a => if b = [] then s else (s.hostWrite who src none vmid (a + off) (b.take n)).1
        | _ => s
      State.putPieces s who src vmid t 0 (b.drop n)

/-- Write a capability into a TSB; outside memory that holds tags its tag is lost (R252). -/
def State.putCap (s : State) (who : HostWho) (ps : List Piece) (off : Nat) (c : Cap) : State :=
  let s := s.putPieces who 7 none ps off (fromWords c.words)
  match placeAt (ps.map (fun p => (p.place, p.len))) off with
  | some (.mem a) => s.setTag a c.tag
  | some (.host a) => if c.tag && s.inTagRegion a 16 then s.putHostTag a true else s
  | _ => s

/-- The grants of a TSB's pieces in host memory, which only grants with ANY match (R330): all pass, one fails at a port and an address, or an entry is to be fetched. -/
def State.checkPieces (s : State) (ps : List Piece) : Option (Nat × Nat × GrantAns) :=
  ps.findSome? (fun p => match p.place with
    | .host a => match s.checkWrite (s.servingPort (a / 64)) none none a p.len with
      | .pass _ => none
      | g => some (s.servingPort (a / 64), a, g)
    | _ => none)

/-- The words of a parked context's TSB, its capabilities, and the FP registers of the owner (Tables 11.1, 11.2); words that report an entry
are not written. -/
def State.writeTsb (s : State) (k r : Nat) (z : Ctx) (ps : List Piece) : State :=
  let who := HostWho.spill k r
  let put := fun (s : State) (off : Nat) (ws : List Word) => s.putPieces who 7 none ps off (fromWords ws)
  let ws : List Word := z.latch r 0 0 0 s.free
  let s := put (put s 0 (ws.take 2)) 0x28 (ws.drop 5)
  let s := s.putCap who ps 0x70 z.etsb
  let s := (List.range 8).foldl (fun s i => s.putCap who ps (0x80 + 16 * i) (z.seg i)) s
  let s := if (s.core k).fpOwn = some r then put s 0x100 ((List.range 16).map (fun i => tget 0 (s.core k).fpr i)) else s
  if z.mprog = 0 then s else put s 0x188 z.mbuf

/-- Poisoned slots that lie in the stack segment leave free values in memory (log entry 31). -/
def State.freePoison (s : State) (k r : Nat) (x : Ctx) : State :=
  foldS x.spilled (fun (s : State) (e : Nat × Place × Slot) => match e.2.2 with
    | .poison _ => (s.putPieces (.spill k r) 4 (some (BitVec.ofNat 12 (xlatVmid x.xlat))) [⟨e.2.1, false, e.1, 8⟩] 0 (wordBytes s.free)).drawn
    | _ => s) s

/-- PARK waits: its command stays in progress and is tried again (log entry 138). -/
def State.parkLater (s : State) (k r : Nat) (v : Word) (id : Nat) : State :=
  s.modCore k (fun c => { c with
    ctxRes := ctxresWord true rOk id
    mov := some { op := 3, core := s.cmdCore k v, store := fld v 51 48, ctx := BitVec.ofNat 20 id, later := some (r, v) } })

/-- PARK at issue (R232, R251). -/
def State.park (s : State) (k r : Nat) (v : Word) : State :=
  let dk := s.cmdCore k v
  let dr := fld v 51 48
  let x := s.ctx dk dr
  let id := x.ctx.toNat
  if x.st = .free ∨ x.st = .loading then s.cmdEnds k rEmpty id
  else if dk = k ∧ dr = r then s.cmdEnds k rSelf id
  else if x.tags ≠ [] then s.cmdEnds k rTags id
  else
    match capFault x.tsbp .store 0 512, s.checkPages dk x x.tsbp 0 .store x.tsbp.base.toNat 512 with
    | none, .owed i b => (s.owe dk i b).parkLater k r v id
    | none, .ok ps =>
      if s.goneMem ps then s.cmdEnds k rBadTsb id
      else match s.checkPieces ps with
      | some (p, _, .fetch i) => (s.fetchGrant p i).parkLater k r v id
      | some (p, a, _) => (s.dropWrite p a).cmdEnds k rBadTsb id
      | none =>
        match s.spillAll ringSize dk dr with
        | none => s.cmdEnds k rBadTsb id
        | some t =>
          let y := (t.ctx dk dr).settle
          let z : Ctx := { y with st := .parked }
          let t := (t.freePoison dk dr y).writeTsb dk dr z ps
          let t := (t.setCtx dk dr {}).modCore dk (fun c => { (if c.fpOwn = some dr then { c with fpOwn := none, fpr := [], fpPoison := [] } else c) with
            run := if c.run = some dr then none else c.run })
          let t := t.modCore k (fun c => { c with
            ctxRes := ctxresWord true rOk id
            mov := some { op := 3, core := dk, store := dr, ctx := BitVec.ofNat 20 id } })
          t.noteIdle dk
    | _, _ => s.cmdEnds k rBadTsb id

/-- FREE at issue; a context with a tag outstanding stays resident, as for PARK (R172, log entry 140). -/
def State.freeStore (s : State) (k r : Nat) (v : Word) : State :=
  let dk := s.cmdCore k v
  let dr := fld v 51 48
  let x := s.ctx dk dr
  let id := x.ctx.toNat
  if x.st = .free ∨ x.st = .loading then s.cmdEnds k rEmpty id
  else if dk = k ∧ dr = r then s.cmdEnds k rSelf id
  else if x.tags ≠ [] then s.cmdEnds k rTags id
  else
    let s := s.modCore dk (fun c => { c with
      run := if c.run = some dr then none else c.run
      fpOwn := if c.fpOwn = some dr then none else c.fpOwn
      fpr := if c.fpOwn = some dr then [] else c.fpr
      fpPend := if c.fpOwn = some dr then [] else c.fpPend
      fpPoison := if c.fpOwn = some dr then [] else c.fpPoison })
    let s := (s.setCtx dk dr {}).modCore k (fun c => { c with
      ctxRes := ctxresWord true rOk id
      mov := some { op := 4, core := dk, store := dr, ctx := BitVec.ofNat 20 id } })
    s.noteIdle dk

/-- The party that a core context is (R373). -/
def coreParty (k : Nat) (sys : Bool) : Party :=
  if h : keyShelf k < 64 then .core ⟨keyShelf k, h⟩ sys else .warden

/-- A pairing hand-over of the core's shelf is in progress. -/
def State.handingOver (s : State) (k : Nat) : Bool := k != wardenKey && (s.shelf (keyShelf k)).handover.isSome

/-- Start a command of CTXCMD. -/
def State.startCtxcmd (s : State) (k r : Nat) (v : Word) : State :=
  match fld v 63 60 with
  | 1 => s.startLoad k r v
  | 2 => s.startLoad k r v
  | 3 => s.park k r v
  | 4 => s.freeStore k r v
  | _ => s

/-- A write of CTXCMD (R232); one while BUSY is 1 is ignored and counted (Table 9.2), and one during a pairing hand-over waits for its end
(R354). -/
def State.writeCtxcmd (s : State) (k r : Nat) (v : Word) : State :=
  if (s.core k).mov.isSome then s.violate (coreParty k true) true 0
  else if s.handingOver k ∧ 1 ≤ fld v 63 60 ∧ fld v 63 60 ≤ 4 then
    s.modCore k (fun c => { c with
      ctxRes := ctxresWord true rOk (fld v 19 0)
      mov := some { op := fld v 63 60, core := s.cmdCore k v, store := fld v 51 48, ctx := BitVec.ofNat 20 (fld v 19 0), later := some (r, v) } })
  else s.startCtxcmd k r v

def effCtxcmdDone (c : CoreId) (s : State) : State :=
  let k := s.coreKey c
  match (s.core k).mov with
  | some m =>
    match m.later with
    | some w => if s.handingOver k then s else (s.modCore k (fun c => { c with mov := none })).startCtxcmd k w.1 w.2
    | none =>
    if m.op ≤ 2 then (if (s.ctx m.core m.store).st = .loading then s.finishLoad k m else s.cmdEnds k rOk m.ctx.toNat)
    else s.cmdEnds k rOk m.ctx.toNat
  | none => s

/-- CTXCMD_DONE (R232). -/
def execCtxcmdDone (c : CoreId) (s : State) : Host.Outcome State Fault Refusal := .next (effCtxcmdDone c s)

/-! ## WAIT, YIELD (R237, R241) -/

/-- WAIT, a transaction boundary; `same` are the sources that become pending in its issue ic. An enabled one abandons the sleep and sets WWON;
the wakes themselves follow, as the events of their sources, which set PEND, CODE and POSTS (R238, log entry 139). -/
def waitAction (same : BitVec 4) : Action := fun k r s =>
  let x := s.ctx k r
  if x.pend &&& x.wmask ≠ 0 ∨ x.wmask = 0 then doneIn (s.holdRunning k r)
  else if same &&& x.wmask ≠ 0 then doneIn ((s.setCtx k r { x with wwon := true }).holdRunning k r)
  else doneIn (((s.setCtx k r { x with st := .sleeping }).modCore k (fun c => { c with run := none })).noteIdle k)

/-- YIELD, a transaction boundary: another READY context of equal or higher PRIO runs next. -/
def yieldAction : Action := fun k r s =>
  let p := (s.ctx k r).prio.toNat
  if (List.range 16).any (fun i => i != r && s.runnable k i && decide (p ≤ (s.ctx k i).prio.toNat)) && decide ((s.core k).rps = []) then
    doneIn (((s.modCtx k r (fun x => { x with st := .ready })).modCore k (fun c => { c with run := none })).holdRunning k r)
  else doneIn (s.holdRunning k r)

/-- WAIT (R241). -/
def execWait (c : CoreId) (wakeSameIc : BitVec 4) (s : State) : Host.Outcome State Fault Refusal :=
  .next (issue c { code := [0xF0, 0x00], act := waitAction wakeSameIc } s)

/-- YIELD (R237). -/
def execYield (c : CoreId) (s : State) : Host.Outcome State Fault Refusal := .next (issue c { code := [0xF0, 0x01], act := yieldAction } s)

/-! ## Wakes (R238, R239) -/

def effWtimeExpiry (c : CoreId) (r : Nat) (s : State) : State :=
  let k := s.coreKey c
  let x := s.ctx k r
  if x.resident && x.wtime != 0 && decide (x.wtime.toNat ≤ s.now) then
    let s := s.modCtx k r (fun y => { (y.wake wakeTMR 0) with wtime := 0 })
    if k = wardenKey then s else s.wakeShelf (keyShelf k)
  else s

/-- WTIME_EXPIRY (R238). -/
def execWtimeExpiry (c : CoreId) (store : Fin 16) (s : State) : Host.Outcome State Fault Refusal := .next (effWtimeExpiry c store.val s)

/-- A write of SH_POST: SYNC with CODE on CTX; code 0xFFFF is reserved for RETX (Table 9.12). -/
def State.writePost (s : State) (n : Nat) (v : Word) : State :=
  if bitAt v 63 && decide (fld v 47 32 ≠ 0xFFFF) then s.wake n (BitVec.ofNat 20 (fld v 19 0)) wakeSYNC (BitVec.ofNat 16 (fld v 47 32)) else s

def effShPost (who : Party) (n : Nat) (v : Word) (s : State) : State := s.gateWrite who (.shPost n) v (fun s => s.writePost n v)

/-- SH_POST (R238). -/
def execShPost (who : Party) (n : Fin 64) (v : Word) (s : State) : Host.Outcome State Fault Refusal := .next (effShPost who n v s)

def effWakeHoldCommit (n : Nat) (s : State) : State :=
  match (s.shelf n).holdList with
  | w :: t =>
    let q := getF s (.shSchcfg n) 57 48
    if s.shelfActive n && getB s (.shSchcfg n) 63 && decide ((s.queue n q).items.length < s.qDepth n q) then
      let u := s.unitCommit n q unitSched (wordBytes (wakeItem w.ctx w.src w.code)) false
      if u.2 = .waits then u.1 else u.1.modShelf n (fun h => { h with holdList := t })
    else s
  | [] => s

/-- WAKE_HOLD_COMMIT (R239). -/
def execWakeHoldCommit (n : Fin 64) (s : State) : Host.Outcome State Fault Refusal := .next (effWakeHoldCommit n.val s)

def effIdleTimeout (n : Nat) (s : State) : State :=
  let d := getF s (.shSchcfg n) 39 24
  if s.shelfActive n && s.shelfIdle n && decide (d ≠ 0 ∧ (s.shelf n).idleSince + s.icNs (16 * n) (d * 64) ≤ s.now) then
    s.modShelf n (fun h => { h with idleAsked := true })
  else s

/-- IDLE_TIMEOUT (R242). -/
def execIdleTimeout (n : Fin 64) (s : State) : Host.Outcome State Fault Refusal := .next (effIdleTimeout n.val s)

/-! ## Registers of a context and of the scheduler (Tables 9.1, 9.6, 9.10) -/

/-- A write of the CCW: without SYSCTL authority only CT, RSM and WMASK (R231). -/
def Ctx.writeCcw (x : Ctx) (v : Word) (sys : Bool) : Ctx :=
  { x with
    prio := if sys then BitVec.ofNat 2 (fld v 58 57) else x.prio
    ct := bitAt v 56
    rsm := bitAt v 55
    wmask := BitVec.ofNat 4 (fld v 54 51) }

/-- WHY as read and written. -/
def Ctx.why (x : Ctx) : Word := place 63 48 x.code.toNat ||| place 47 32 x.posts.toNat ||| bitIf 4 x.wwon ||| place 3 0 x.pend.toNat

def Ctx.writeWhy (x : Ctx) (v : Word) : Ctx :=
  { x with
    wwon := x.wwon && !bitAt v 4
    pend := x.pend &&& ~~~ (v.setWidth 4)
    posts := if bitAt v 0 then 0 else x.posts }

/-- FPOWN (Table 9.10). -/
def Core.fpownWord (c : Core) : Word := match c.fpOwn with | some r => bitIf 4 true ||| place 3 0 r | none => 0

end Sys2Proof.Machine
end

