-- ==== Sys2Proof/Machine/EfmarCap.lean ====
section
/-! DEFINITION. Capability instructions without a memory access (Table 10.5; R194, R250, R256). -/

namespace Sys2Proof.Machine

/-- Fields of an immediate (R194). -/
def immHi (i : BitVec 8) : Nat := i.toNat / 16
def immLo (i : BitVec 8) : Nat := i.toNat % 16
def immOk (i : BitVec 8) : Bool := decide (immHi i < 8 ∧ immLo i < 8)

/-- CF of a capability instruction that names register `r`. -/
def capExc (cause r : Nat) : ExcReport := cfReport cause kOther r 0

/-- A register takes a capability; a poisoned one that it held is discarded unread (R173). -/
def Ctx.putSeg (x : Ctx) (n : Nat) (c : Cap) : Ctx :=
  let y := x.setSeg n c
  if (alook n x.segPoison).isSome then
    { y with segPoison := adel n x.segPoison, pdrop := BitVec.ofNat 16 (satAdd 65535 x.pdrop.toNat 1) }
  else y

/-- The capability of a register that is not pending and not poisoned; else the instruction waits or raises DE (R169, R173, R194). -/
def State.segVal (s : State) (k r n : Nat) : Res Cap :=
  match (s.ctx k r).segReady n with
  | .ok c => .ok c s
  | .pending t => .wait (.tag t) s
  | .owed _ _ => .wait .other s
  | .exc e => .exc e s

/-- A destination register that waits for a capability makes the instruction wait (Table 10.14). -/
def State.segFree (s : State) (k r n : Nat) : Res Unit :=
  match alook n (s.ctx k r).segPend with
  | some t => .wait (.tag t) s
  | none => .ok () s

/-- Conditions of SNARROW in their order: SEGC, TAG, SEALED, RIGHTS, BOUNDS. -/
def narrowFault (n : Nat) (c : Cap) (base limit rights : Word) : Option Nat :=
  if n = segC then some cSegc
  else if !c.tag then some cTag
  else if c.otype ≠ 0 then some cSealed
  else if 256 ≤ rights.toNat ∨ rights.setWidth 8 &&& ~~~ c.rights ≠ 0 then some cRights
  else if base.toNat < c.base.toNat ∨ c.limit.toNat < limit.toNat ∨ 2 ^ 56 ≤ base.toNat then some cBounds
  else none

def snarrowAction (n : Nat) : Action := fun k r s =>
  (s.operands 3 k r 0).bind (fun vs s => (s.segVal k r n).bind (fun c s =>
    let rights := vs.getD 0 0
    let limit := vs.getD 1 0
    let base := vs.getD 2 0
    match narrowFault n c base limit rights with
    | some f => .exc (capExc f n) s
    | none => doneIn (s.modCtx k r (fun x => (x.replace 3 []).putSeg n
        { rights := rights.setWidth 8, otype := 0, limit := limit.setWidth 56, base := base.setWidth 56, tag := true }))))

def scopyAction (d n : Nat) : Action := fun k r s =>
  (s.segFree k r d).bind (fun _ s => (s.segVal k r n).bind (fun c s =>
    if d = segC then .exc (capExc cSegc d) s else doneIn (s.modCtx k r (fun x => x.putSeg d c))))

/-- The type authority in register `n` covers type `t` (R249). -/
def authFault (c : Cap) (n t : Nat) : Option (Nat × Nat) :=
  if !c.tag then some (cTag, n)
  else if c.otype ≠ 0 then some (cSealed, n)
  else if !c.s then some (cRights, n)
  else if t < 1 ∨ 255 < t ∨ !c.hasValue t then some (cType, n)
  else none

def slockAction (d n : Nat) : Action := fun k r s =>
  (s.operand k r 0).bind (fun t s => (s.segVal k r d).bind (fun e s => (s.segVal k r n).bind (fun c s =>
    let s := s.modCtx k r (fun x => x.replace 1 [])
    if d = segC then .exc (capExc cSegc d) s
    else if !e.tag then .exc (capExc cTag d) s
    else if e.otype ≠ 0 then .exc (capExc cSealed d) s
    else match authFault c n t.toNat with
      | some f => .exc (capExc f.1 f.2) s
      | none => doneIn (s.modCtx k r (fun x => x.setSeg d { e with otype := t.setWidth 8 })))))

def sunlockAction (d n : Nat) : Action := fun k r s =>
  (s.segVal k r d).bind (fun e s => (s.segVal k r n).bind (fun c s =>
    if d = segC then .exc (capExc cSegc d) s
    else if !e.tag then .exc (capExc cTag d) s
    else if e.otype = 0 then .exc (capExc cType d) s
    else match authFault c n e.otype.toNat with
      | some f => .exc (capExc f.1 f.2) s
      | none => doneIn (s.modCtx k r (fun x => x.setSeg d { e with otype := 0 }))))

/-- A field of a capability (Table 7.5). -/
def Cap.field (c : Cap) (f : Nat) : Word :=
  match f with
  | 0 => BitVec.ofNat 64 c.base.toNat
  | 1 => BitVec.ofNat 64 c.limit.toNat
  | 2 => BitVec.ofNat 64 c.rights.toNat
  | 3 => BitVec.ofNat 64 c.otype.toNat
  | _ => b2w c.tag

def sfieldAction (f n : Nat) : Action := fun k r s => (s.segVal k r n).bind (fun c s => pushWord (c.field f) k r s)

def svoidAction (n : Nat) : Action := fun k r s =>
  (s.segVal k r n).bind (fun c s => doneIn (s.modCtx k r (fun x => x.setSeg n { c with tag := false })))

/-- SNARROW (R256). -/
def execSnarrow (c : CoreId) (imm : BitVec 8) (s : State) : Host.Outcome State Fault Refusal :=
  .next (issue c { code := [0x68, imm], act := legal (imm.toNat < 8) (snarrowAction imm.toNat) } s)

/-- SCOPY (R256). -/
def execScopy (c : CoreId) (imm : BitVec 8) (s : State) : Host.Outcome State Fault Refusal :=
  .next (issue c { code := [0x69, imm], act := legal (immOk imm) (scopyAction (immHi imm) (immLo imm)) } s)

/-- SLOCK (R256). -/
def execSlock (c : CoreId) (imm : BitVec 8) (s : State) : Host.Outcome State Fault Refusal :=
  .next (issue c { code := [0x6A, imm], act := legal (immOk imm) (slockAction (immHi imm) (immLo imm)) } s)

/-- SUNLOCK (R256). -/
def execSunlock (c : CoreId) (imm : BitVec 8) (s : State) : Host.Outcome State Fault Refusal :=
  .next (issue c { code := [0x6B, imm], act := legal (immOk imm) (sunlockAction (immHi imm) (immLo imm)) } s)

/-- SFIELD (R256). -/
def execSfield (c : CoreId) (imm : BitVec 8) (s : State) : Host.Outcome State Fault Refusal :=
  .next (issue c { code := [0x6C, imm], act := legal (decide (immHi imm < 5 ∧ immLo imm < 8)) (sfieldAction (immHi imm) (immLo imm)) } s)

/-- SVOID (R256). -/
def execSvoid (c : CoreId) (imm : BitVec 8) (s : State) : Host.Outcome State Fault Refusal :=
  .next (issue c { code := [0x6D, imm], act := legal (imm.toNat < 8) (svoidAction imm.toNat) } s)

end Sys2Proof.Machine
end

