-- ==== Sys2Proof/Machine/Translation.lean ====
section
/-! DEFINITION. Translation: PROBE, the TLB instructions, A and D atomics, device-wide removal, the tagged region (R262 to R270, R276). -/

namespace Sys2Proof.Machine

/-! ## Page-table entries (Tables 10.8, 10.9) -/

/-- FRAME bits that must be zero in a leaf of a level. -/
def leafMask (level : Nat) : Nat := if level = 1 then 2 ^ 18 else if level = 2 then 2 ^ 9 else 1

/-- An entry is bad (R263). -/
def pteBad (pte : Word) (level : Nat) : Bool :=
  fld pte 63 52 != 0 || (!bitAt pte 1 && level == 0) || (bitAt pte 1 && level == 3) || (!bitAt pte 1 && fld pte 51 13 % leafMask level != 0)

/-- RES of a PROBE: 0 TABLE, 1 LEAF, 2 INVALID, 3 BADENTRY (Table 10.11). -/
def probeRes (pte : Word) (level : Nat) : Nat :=
  if !bitAt pte 0 then 2 else if pteBad pte level then 3 else if bitAt pte 1 then 0 else 1

/-- The result word of a PROBE. -/
def probeWord (res stage level : Nat) (pte : Word) : Word :=
  place 63 60 res ||| place 59 59 stage ||| place 58 57 level ||| place 51 0 pte.toNat

/-- Index of a virtual address at a level. -/
def vaIndex (va level : Nat) : Nat := va / 2 ^ (39 - 9 * level) % 512

/-- WALKA of a leaf at a host physical address (Table 10.21). -/
def walkaWord (a : Nat) : Word := place 50 3 (a / 8) ||| 1

/-- The result of a PROBE whose entry has arrived: the word, and WALKA on a leaf (R265). -/
def State.probeDone (s : State) (k r stage level a : Nat) (pte : Word) : State × TagRes :=
  let res := probeRes pte level
  let s := if res = 1 then s.modCtx k r (fun x =>
      if stage = 0 then { x with walka1 := walkaWord a } else { x with walka2 := walkaWord a }) else s
  (s, .value (probeWord res stage level pte) 0)

/-! ## Operations that have reached host memory -/

/-- Bytes of the pieces of a tagged read, when the ports hold them all. -/
def State.partsBytes (s : State) : List (Nat × Nat) → Option (List Byte)
  | [] => some []
  | (a, n) :: t =>
    match s.hostBytes a n, State.partsBytes s t with
    | some b, some c => some (b ++ c)
    | _, _ => none

/-- PROBE ( va ctl -- r ): a tagged host read of one entry. -/
def probeAction : Action := needSysctl (fun k r s =>
  (s.operands 2 k r 0).bind (fun vs s => (s.room k r 2 1).bind (fun _ s => (s.takeTags k r 1).bind (fun ts s =>
    let ctl := vs.getD 0 0
    let va := (vs.getD 1 0).toNat
    let stage := fld ctl 2 2
    let level := fld ctl 1 0
    let a := fld ctl 50 12 * 4096 + 8 * vaIndex va level
    let t := ts.getD 0 0
    let open_ := fun (parts : List (Nat × Nat)) => s.pushTag k r 2 t
      { dpc := 0, addr := BitVec.ofNat 64 a, dest := .stack, op := .probe stage level, parts := parts }
    if 2 ^ 48 ≤ va then
      let s := open_ []
      doneIn (s.tagDone (s.tagRef k r t) (.value (probeWord 4 stage level 0) 0))
    else
      let s := open_ [(a, 8)]
      let ref := s.tagRef k r t
      match s.hostBytes a 8 with
      | some b =>
        let q := s.probeDone k r stage level a (bytesWord b)
        doneIn (q.1.tagDone ref q.2)
      | none => doneIn (s.askThrough (.tag ref) (a / 64) false)))))

/-- PROBE (R265). -/
def execProbe (c : CoreId) (s : State) : Host.Outcome State Fault Refusal := .next (issue c { code := [0xF0, 0x10], act := probeAction } s)

/-! ## TLBWR, TLBINV, TLBINVA (R266, R268, R269) -/

def ctlAsid (ctl : Word) : Nat := fld ctl 47 32
def ctlVmid (ctl : Word) : Nat := fld ctl 59 48

/-- FRAME is aligned for a SIZE. -/
def frameOk (pte : Word) (size : Nat) : Bool := fld pte 51 13 % (if size = 0 then 1 else if size = 1 then 2 ^ 9 else 2 ^ 18) == 0

/-- TLBWR writes nothing and sets ERR. -/
def tlbwrBad (x : Ctx) (pte ctl : Word) : Bool :=
  fld ctl 1 0 == 3 || !bitAt pte 0 || bitAt pte 1 || !frameOk pte (fld ctl 1 0) || (bitAt ctl 2 && !bitAt x.walka1 0)
    || (bitAt ctl 3 && !bitAt x.walka2 0)

/-- The pages of two entries overlap. -/
def TlbEntry.overlaps (a b : TlbEntry) : Bool := let m := 2 ^ max a.shift b.shift; a.va / m == b.va / m

/-- A present entry goes when the new one is written (R268). -/
def TlbEntry.displacedBy (o n : TlbEntry) : Bool := o.vmid == n.vmid && o.overlaps n && (o.asid == n.asid || o.global || n.global)

/-- Host physical address of a WALKA register. -/
def walkaAddr (w : Word) : Nat := fld w 50 3 * 8

/-- The entry that TLBWR writes. -/
def newEntry (x : Ctx) (pte va ctl : Word) : TlbEntry :=
  { va := va.toNat % 2 ^ 48, size := BitVec.ofNat 2 (fld ctl 1 0), asid := BitVec.ofNat 16 (ctlAsid ctl), vmid := BitVec.ofNat 12 (ctlVmid ctl),
    pte := pte, leaf1 := if bitAt ctl 2 then some (walkaAddr x.walka1) else none,
    leaf2 := if bitAt ctl 3 then some (walkaAddr x.walka2) else none }

/-- Write an entry: overlapping ones go; the lowest invalid entry takes it, else one that the LFSR chooses, a free value (log entry 32). -/
def State.tlbWrite (s : State) (k : Nat) (e : TlbEntry) : State :=
  let t := (s.core k).tlb.filter (fun o => !o.2.displacedBy e)
  match firstFree 64 t with
  | some i => s.modCore k (fun c => { c with tlb := aput i e t })
  | none => (s.modCore k (fun c => { c with tlb := aput (s.free.toNat % 64) e t })).drawn

def tlbwrAction : Action := needSysctl (fun k r s =>
  (s.operands 3 k r 0).bind (fun vs s =>
    let ctl := vs.getD 0 0
    let va := vs.getD 1 0
    let pte := vs.getD 2 0
    let x := s.ctx k r
    let s := s.modCtx k r (fun y => y.replace 3 [])
    doneIn (if tlbwrBad x pte ctl then s.modCore k (fun c => { c with tlbErr := true }) else s.tlbWrite k (newEntry x pte va ctl))))

/-- TLBWR (R266). -/
def execTlbwr (c : CoreId) (s : State) : Host.Outcome State Fault Refusal := .next (issue c { code := [0xF0, 0x11], act := tlbwrAction } s)

/-- An entry lies within a removal scope (R269). -/
def TlbEntry.inScope (e : TlbEntry) (scope va asid vmid : Nat) : Bool :=
  match scope with
  | 0 => e.hasPage va && e.vmid.toNat == vmid && (e.global || e.asid.toNat == asid)
  | 1 => e.vmid.toNat == vmid && e.asid.toNat == asid
  | 2 => e.vmid.toNat == vmid
  | _ => true

/-- Remove entries of a core. -/
def State.tlbRemove (s : State) (k : Nat) (f : TlbEntry → Bool) : State :=
  s.modCore k (fun c => { c with tlb := c.tlb.filter (fun e => !f e.2) })

def tlbinvAction : Action := needSysctl (fun k r s =>
  (s.operands 2 k r 0).bind (fun vs s =>
    let ctl := vs.getD 0 0
    doneIn ((s.modCtx k r (fun y => y.replace 2 [])).tlbRemove k
      (fun e => e.inScope (fld ctl 1 0) ((vs.getD 1 0).toNat % 2 ^ 48) (ctlAsid ctl) (ctlVmid ctl)))))

/-- TLBINV (R269). -/
def execTlbinv (c : CoreId) (s : State) : Host.Outcome State Fault Refusal := .next (issue c { code := [0xF0, 0x12], act := tlbinvAction } s)

/-- TLBINVA (R269). -/
def execTlbinva (c : CoreId) (s : State) : Host.Outcome State Fault Refusal :=
  .next (issue c { code := [0xF0, 0x13], act := needSysctl (fun k _ s => doneIn (s.tlbRemove k (fun _ => true))) } s)

/-! ## A and D atomics (R270) -/

/-- The line of `a` is held by its port in M or E. -/
def State.ownedLine (s : State) (line : Nat) : Bool :=
  let st := (s.port (s.servingPort line)).lineSt line
  st == .M || st == .E

/-- Write bytes of one line that the port holds in M or E. -/
def State.writeOwned (s : State) (a : Nat) (b : List Byte) : State :=
  s.mergeLine (s.servingPort (a / 64)) (a / 64) (padTo 64 (List.replicate (a % 64) 0 ++ b)) (beRange (a % 64) (a % 64 + b.length))

/-- OR the bits into one leaf; false where the entry is no longer a valid leaf. -/
def State.orLeaf (s : State) (a : Nat) (bits : Word) : State × Bool :=
  match s.hostBytes a 8 with
  | some b =>
    let w := bytesWord b
    if bitAt w 0 && !bitAt w 1 then ((s.clearHostTags a 8).writeOwned a (wordBytes (w ||| bits)), true) else (s, false)
  | none => (s, false)

/-- Act on the bound leaves in order; false where one was not a valid leaf. -/
def orLeaves : List Nat → Word → State → State × Bool
  | [], _, s => (s, true)
  | a :: t, bits, s =>
    let q := s.orLeaf a bits
    if q.2 then orLeaves t bits q.1 else q

/-- The bound leaves, stage 2 first. -/
def TlbEntry.leaves (e : TlbEntry) : List Nat :=
  (match e.leaf2 with | some a => [a] | none => []) ++ (match e.leaf1 with | some a => [a] | none => [])

/-- A line to own before an atomic: shared lines are raised, absent ones acquired. -/
def State.askOwn (s : State) (who : HostWho) (line : Nat) : State :=
  let p := s.servingPort line
  match (s.port p).lineSt line with
  | .M | .E => s
  | .S | .O => if (s.port p).asked .acqRaise line who then s
      else s.request p { op := .acqRaise, line := line, se := false, who := who, data := [], be := 0 }
  | .I => s.askLine .acqOwn who line

/-- The grant checks of the atomics (R330), with the VMID of the entry. -/
def State.leafChecks (s : State) (e : TlbEntry) : List (Nat × GrantAns) :=
  e.leaves.map (fun a => (a, s.checkWrite (s.servingPort (a / 64)) none (some e.vmid) a 8))

/-- Atomics on the owned leaves: the entry keeps its place with the bits set, or goes where a leaf is no longer valid. -/
def State.adFinish (s : State) (k i : Nat) (e : TlbEntry) (bits : Word) : State :=
  let q := orLeaves e.leaves bits s
  q.1.modCore k (fun c => { c with
    adWait := none
    tlb := if q.2 then c.tlb.map (fun o => if o.1 = i then (i, { o.2 with pte := o.2.pte ||| bits }) else o) else adel i c.tlb })

/-- A refused atomic leaves the leaf unchanged and the entry goes (R331, log entry 36). -/
def State.adRefused (s : State) (k i a : Nat) : State :=
  (s.refuse (s.servingPort (a / 64)) 3 a none).modCore k (fun c => { c with adWait := none, tlb := adel i c.tlb })

def effAdAtomicDone (c : CoreId) (s : State) : State :=
  let k := s.coreKey c
  match (s.core k).adWait with
  | some (i, bits) =>
    match alook i (s.core k).tlb with
    | none => s.modCore k (fun c => { c with adWait := none })
    | some e =>
      let cs := s.leafChecks e
      match cs.find? (fun x => x.2 == .fail), cs.findSome? (fun x => match x.2 with | .fetch j => some (x.1, j) | _ => none) with
      | some f, _ => s.adRefused k i f.1
      | none, some g => s.fetchGrant (s.servingPort (g.1 / 64)) g.2
      | none, none =>
        if e.leaves.all (fun a => s.ownedLine (a / 64)) then s.adFinish k i e bits
        else e.leaves.foldl (fun s a => s.askOwn (.pte k) (a / 64)) s
  | none => s

/-- AD_ATOMIC_DONE (R270). -/
def execAdAtomicDone (c : CoreId) (s : State) : Host.Outcome State Fault Refusal := .next (effAdAtomicDone c s)

/-! ## GL_TLBINV (R269) -/

/-- Remove the entries of a scope from every core. -/
def State.tlbRemoveAll (s : State) (f : TlbEntry → Bool) : State := foldS (s.cores.map (·.1)) (fun s k => s.tlbRemove k f) s

/-- A write of GL_TLBINV; the removal's scope stays in the register while BUSY is 1. -/
def State.writeTlbinv (s : State) (v : Word) : State :=
  if getB s .glTlbinv 62 ∨ bitAt v 63 = false then s
  else
    let s := wrReg s .glTlbinv (bitIf 62 true ||| (v &&& fmask 61 32))
    let f := fun (e : TlbEntry) => e.inScope (fld v 61 60) (getF s .glTlbva 47 12 * 4096) (ctlAsid v) (ctlVmid v)
    { s.tlbRemoveAll f with tlbGone := (s.cores.flatMap (fun c => c.2.tlb.map (·.2))).filter f }

def effGlTlbinv (who : Party) (v : Word) (s : State) : State := s.gateWrite who .glTlbinv v (fun s => s.writeTlbinv v)

/-- GL_TLBINV (R269). -/
def execGlTlbinv (who : Party) (v : Word) (s : State) : Host.Outcome State Fault Refusal := .next (effGlTlbinv who v s)

/-- Host address `a`, reached for a VMID, lies in the frame of a removed entry. -/
def State.inGone (s : State) (vmid : BitVec 12) (a : Nat) : Bool :=
  s.tlbGone.any (fun e => e.vmid == vmid && (let f := fld e.pte 51 13 * 4096; decide (f ≤ a ∧ a < f + 2 ^ e.shift)))

/-- An access translated through a removed entry is still outstanding: a tag, a store-buffer entry, or an A or D atomic. -/
def State.removalPending (s : State) : Bool :=
  s.ctxs.any (fun e => e.2.tags.any (fun t => t.2.res.isNone && t.2.parts.any (fun p => s.inGone t.2.vmid p.1)))
    || s.cores.any (fun e => e.2.sbuf.any (fun b => match b.block with | .host a => s.inGone b.vmid a | _ => false))
    || s.cores.any (fun e => match e.2.adWait with | some w => (alook w.1 e.2.tlb).isNone | none => false)

def effGlTlbinvDone (s : State) : State :=
  if getB s .glTlbinv 62 && !s.removalPending then { wrReg s .glTlbinv 0 with tlbGone := [] } else s

/-- GL_TLBINV_DONE (R269). -/
def execGlTlbinvDone (s : State) : Host.Outcome State Fault Refusal := .next (effGlTlbinvDone s)

/-! ## The tagged region (R276) -/

/-- A write of GL_TAGRGN: while VALID is 1 only one that clears VALID acts. -/
def State.writeTagrgn (s : State) (v : Word) : State :=
  if getB s .glTagrgn 63 ∧ bitAt v 63 = true then s else s.plainWrite .glTagrgn v

def effGlTagrgnWrite (who : Party) (v : Word) (s : State) : State := s.gateWrite who .glTagrgn v (fun s => s.writeTagrgn v)

/-- GL_TAGRGN_WRITE (R276). -/
def execGlTagrgnWrite (who : Party) (v : Word) (s : State) : Host.Outcome State Fault Refusal := .next (effGlTagrgnWrite who v s)

/-- A write of GL_TAGTAB, ignored while VALID of GL_TAGRGN is 1. -/
def State.writeTagtab (s : State) (v : Word) : State := if getB s .glTagrgn 63 then s else s.plainWrite .glTagtab v

def effGlTagtabWrite (who : Party) (v : Word) (s : State) : State := s.gateWrite who .glTagtab v (fun s => s.writeTagtab v)

/-- GL_TAGTAB_WRITE (R276). -/
def execGlTagtabWrite (who : Party) (v : Word) (s : State) : Host.Outcome State Fault Refusal := .next (effGlTagtabWrite who v s)

/-! ## Registers (Tables 10.16, 10.18 to 10.22) -/

/-- TLBSTAT. -/
def Core.tlbstat (c : Core) : Word := place 63 32 c.tlbMisses.toNat ||| bitIf 15 c.tlbErr ||| place 6 0 c.tlb.length

def pkeysMask : Word := 0x7777777777777777
def xlatMask : Word := 0xCFFFFFFF00000000
def rootMask : Word := 0x7FFFFFFFFF000

end Sys2Proof.Machine
end

