-- ==== Sys2Proof/WellFormed.lean ====
section
/-! DEFINITION. Which operands a command may carry: the lengths that the spec's formats fix. A meaning runs on anything else too (log
entry 126). -/

namespace Sys2Proof

/-- Descriptor numbers that an exception reported from outside may carry: those of Table 11.1 that a condition raises, and TRAP's. -/
def ExcReport.ok (x : ExcReport) : Bool := decide ((2 ≤ x.desc ∧ x.desc ≤ 11) ∨ (32 ≤ x.desc ∧ x.desc ≤ 63))

/-- A flit is 256 bytes (R107), a slot eight words (Table 3.5), a load record 128 bytes
(Table 5.2), a host line 64 bytes (R317), a grant entry four words (Table 13.7), a firmware transfer at most 1,024 bytes and a token at
most 512 bytes (Tables 15.8 and 15.14). -/
def Instr.wf : Instr → Bool
  | .submitSlotFetch _ f => f.first.length == 8 && f.rest.all (fun w => w.length == 8)
  | .dataFlit _ flit _ => flit.length == 256
  | .idleFlit _ flit _ => flit.length == 256
  | .retryReq _ flit _ => flit.length == 256
  | .sync _ flit _ => flit.length == 256
  | .abort _ flit _ => flit.length == 256
  | .keyRecordFetched record => record.length == 128
  | .exceptionEntry _ x => x.ok
  | .datFill _ _ _ _ _ b => b.length == 64
  | .grantFetchDone _ _ entry => entry.length == 4
  | .requestFirmwareData _ _ b => decide (b.length ≤ 1024)
  | .lcreq _ token => decide (token.length ≤ 512)
  | _ => true

end Sys2Proof
end

