-- ==== Sys2Proof/Machine/Events.lean ====
section
/-! DEFINITION. The shelf event controller: configuration of sources, arbitration, entry, claim and end, hold-off, timers (R289 to R301). -/

namespace Sys2Proof.Machine

/-! ## Configuration of a source (Table 11.15) -/

/-- Fields that the register of a source offers: TARGET for shared sources, the last four for data sources. -/
def srcFields (target data : Bool) : List Fld :=
  (Reg.fields (.evScfg 0 16)).filter (fun f => (target || f.hi != 56) && (data || decide (31 ≤ f.lo)))

/-- Bits of a list of fields. -/
def fldsMask (fs : List Fld) : Word := fs.foldl (fun w f => w ||| f.mask) 0

/-- The register of a source, all fields. -/
def EvSrc.word (x : EvSrc) (data : Bool) : Word :=
  bitIf 63 x.en ||| place 62 61 x.sense.toNat ||| place 60 57 x.prio.toNat ||| place 56 53 x.target.toNat ||| bitIf 52 x.quar
    ||| bitIf 51 (x.pending data) ||| bitIf 50 x.act ||| bitIf 49 x.sat ||| place 48 41 x.edges.toNat ||| place 40 31 x.qcnt
    ||| place 30 21 x.queue.toNat ||| place 20 19 x.kind.toNat ||| place 18 11 x.ccount.toNat ||| place 10 0 x.ctime.toNat

/-- The register as read. -/
def EvSrc.read (x : EvSrc) (target data : Bool) : Word := x.word data &&& fldsMask (srcFields target data)

/-- A write through the lanes of `m`, with the reaction of hardware in the same cycle; clearing QUAR clears the count and EN stays 0. -/
def EvSrc.write (target data : Bool) (v m hm hv : Word) (x : EvSrc) : EvSrc :=
  let w := regWriteBoth (srcFields target data) v m hm hv (x.word data)
  let freed := x.quar && !bitAt w 52
  { x with
    en := bitAt w 63 && !freed
    sense := BitVec.ofNat 2 (fld w 62 61)
    prio := BitVec.ofNat 4 (fld w 60 57)
    target := BitVec.ofNat 4 (fld w 56 53)
    quar := bitAt w 52
    act := bitAt w 50
    sat := bitAt w 49
    edges := BitVec.ofNat 8 (fld w 48 41)
    qcnt := if freed then 0 else fld w 40 31
    queue := BitVec.ofNat 10 (fld w 30 21)
    kind := BitVec.ofNat 2 (fld w 20 19)
    ccount := BitVec.ofNat 8 (fld w 18 11)
    ctime := BitVec.ofNat 11 (fld w 10 0) }

/-! ## Sources of a core -/

/-- Active slot to which a TARGET routes: the pair's slots hold one state in PAIRED mode. -/
def State.routed (s : State) (n slot : Nat) : Nat := if s.paired n then slot / 2 * 2 else slot

/-- Source `i` of core `k` is a data source. -/
def coreData (k i : Nat) : Bool := k != wardenKey && isData i

/-- Source `i` as core `k` numbers it. -/
def State.bankSrc (s : State) (k i : Nat) : EvSrc :=
  if k = wardenKey ∨ i < 16 then tget {} (s.core k).srcs i else s.src (keyShelf k) i

/-- Change source `i` as core `k` numbers it. -/
def State.bankMod (s : State) (k i : Nat) (f : EvSrc → EvSrc) : State :=
  if k = wardenKey ∨ i < 16 then s.psrc k i f else s.shsrc (keyShelf k) i f

/-- Sources that reach core `k`, in ascending order: its private bank and the shared sources that target it (R289). -/
def State.sourcesOf (s : State) (k : Nat) : List (Nat × EvSrc) :=
  (s.core k).srcs ++ (if k = wardenKey then []
    else (s.evsrcs.filter (fun e => e.1 / 256 == keyShelf k && s.routed (keyShelf k) e.2.target.toNat == keySlot k)).map
      (fun e => (e.1 % 256, e.2)))

/-! ## Arbitration (R292) -/

/-- The running priority. -/
def Core.runPrio (c : Core) : Nat :=
  if c.escact then 15
  else match c.rps with
    | p :: _ => p.toNat
    | [] => c.evBase.toNat

/-- A management group is held off (R294). -/
def State.heldOff (s : State) (k i : Nat) : Bool :=
  k != wardenKey && decide (16 ≤ i ∧ i < 64 ∧ s.now < tget 0 s.holdoff (16 * keyShelf k + i / 16))

/-- A source is eligible on its core. -/
def State.eligible (s : State) (k : Nat) (e : Nat × EvSrc) : Bool :=
  e.2.en && e.2.pending (coreData k e.1) && !e.2.act && !s.heldOff k e.1 && decide ((s.core k).runPrio < e.2.prio.toNat)
    && (s.core k).gateOpen

/-- The source of highest PRIO, the first of them on a tie. -/
def bestOf : List (Nat × EvSrc) → Option (Nat × Nat)
  | [] => none
  | e :: t =>
    match bestOf t with
    | some b => if e.2.prio.toNat < b.2 then some b else some (e.1, e.2.prio.toNat)
    | none => some (e.1, e.2.prio.toNat)

/-- The source that wins arbitration on core `k`, with its PRIO. -/
def State.winner (s : State) (k : Nat) : Option (Nat × Nat) := bestOf ((s.sourcesOf k).filter (s.eligible k))

/-- A change that may mask the winner of core `k`: where it does, its delivery may still be entered once (R299). -/
def State.masking (s : State) (k : Nat) (f : State → State) : State :=
  let t := f s
  match s.winner k with
  | some w => if (t.sourcesOf k).any (fun e => e.1 == w.1 && t.eligible k e) then t
      else t.modCore k (fun c => { c with window := some (w.1, w.2, false) })
  | none => t

/-- The source whose delivery is in progress: the winner, or one that a mask write has caught, if it is still pending. -/
def State.delivering (s : State) (k : Nat) : Option (Nat × Nat) :=
  match (s.core k).window with
  | some (i, p, _) =>
    if (s.bankSrc k i).pending (coreData k i) then
      match s.winner k with
      | some w => if w.2 < p ∨ (w.2 = p ∧ i < w.1) then some (i, p) else some w
      | none => some (i, p)
    else s.winner k
  | none => s.winner k

/-! ## Entry (R283, R293, R297) -/

/-- The store that takes an event: the running context, else the context in store ESLOT, which leaves WAITING or SLEEPING. -/
def State.eventStore (s : State) (k : Nat) : Option (Nat × State) :=
  let t := s.schedule k
  match (t.core k).run with
  | some r => some (r, t)
  | none =>
    let r := (t.core k).eslot.toNat
    let x := t.ctx k r
    if x.resident && x.st != .loading && !x.held then some (r, t.switchTo k (some r)) else none

/-- HOLD of a management group starts at step 5 (R294). -/
def State.startHold (s : State) (k i : Nat) : State :=
  let h := getF s (.evGrp (keyShelf k) (i / 16)) 63 48
  if k ≠ wardenKey ∧ 16 ≤ i ∧ i < 64 ∧ h ≠ 0 then { s with holdoff := tset 0 s.holdoff (16 * keyShelf k + i / 16) (s.now + h * 64) } else s

/-- Enter for source `i` at priority `p`; an entry that fails is not claimed and pushes nothing (R286). -/
def State.enterEvent (s : State) (k r i p : Nat) : State :=
  let q := (s.modCore k (fun c => { c with window := none })).enter k r { desc := 16 + p, prio := p, event := true }
  if q.2 then (q.1.modCore k (fun c => { c with rps := BitVec.ofNat 4 p :: c.rps, claim := some i })).startHold k i else q.1

/-- X stands where an event may be accepted: not between a SEG prefix or the first of a fused pair and the instruction behind it, unless that
one waits, so that the pair has not executed or the first has retired (R189, R206, Tables 6.2, 6.4). -/
def State.open_ (s : State) (k : Nat) : Bool :=
  let c := s.core k
  (c.seg.isNone && !c.pair) || c.fetchMiss.isSome || (match c.run with | some r => (s.ctx k r).wait.isSome | none => true)

/-- A hand-over of the FP registers is in progress, and completes before an entry (R243, R283). -/
def State.fpMoving (s : State) (k : Nat) : Bool :=
  match (s.core k).run with
  | some r => decide ((s.ctx k r).wait = some .fpOwner) && ((s.core k).fpOwn.elim true (fun o => (s.ctx k o).tags.all (fun e => !e.2.fp)))
  | none => false

/-- No halt holds the core, X stands at a boundary, and no A or D atomic and no FP hand-over is on its way (R283, R412); MASKEV keeps events
from a step (R414). -/
def State.mayEnter (s : State) (k : Nat) : Bool :=
  let c := s.core k
  s.coreLive k && !c.halted && !c.haltReq && !(c.step && getB s .vxCtl 62) && s.open_ k && c.adWait.isNone && !s.seWaiting k
    && !s.fpMoving k

def effEventEntry (c : CoreId) (s : State) : State :=
  let k := s.coreKey c
  if s.mayEnter k then
    match s.delivering k with
    | some w =>
      match s.eventStore k with
      | some q => q.2.enterEvent k q.1 w.1 w.2
      | none => s
    | none => s
  else s

/-- EVENT_ENTRY (R283). -/
def execEventEntry (c : CoreId) (s : State) : Host.Outcome State Fault Refusal := .next (effEventEntry c s)

/-- The saved PC of a TRAP is the instruction after it (Table 11.7). -/
def State.pastTrap (s : State) (k r desc : Nat) : State :=
  if 32 ≤ desc then s.modCtx k r (fun x => { x with pc := x.pc + 3 }) else s

def effExceptionEntry (c : CoreId) (x : ExcReport) (s : State) : State :=
  let k := s.coreKey c
  if s.mayIssue k then
    let t := s.schedule k
    match (t.core k).run with
    | some r => ((t.pastTrap k r x.desc).takeExc k r x).stepped k
    | none => t
  else s

/-- EXCEPTION_ENTRY (R283): the running context takes the exception that the instruction at its PC has found. A report that names no exception of
Table 11.1 tells of none, and nothing happens (log entry 1). -/
def execExceptionEntry (c : CoreId) (x : ExcReport) (s : State) : Host.Outcome State Fault Refusal :=
  .next (if x.ok then effExceptionEntry c x s else s)

/-! ## Claim and end (R295) -/

/-- SPURIOUS. -/
def spurious : Nat := 0x100

/-- The source that a claim returns. -/
def State.claimed (s : State) (k : Nat) : Option Nat :=
  let second := ((s.sourcesOf k).find? (fun e => e.2.en && e.2.pending (coreData k e.1) && e.2.prio.toNat == (s.core k).runPrio)).map (·.1)
  match (s.core k).claim with
  | some i => if (s.bankSrc k i).pending (coreData k i) then some i else second
  | none => second

/-- A source that has been claimed. -/
def EvSrc.claim (x : EvSrc) : EvSrc := { x with act := true, edges := 0, sat := false, dpend := false }

/-- The value that EVCLAIM returns (Table 11.16). -/
def claimWord (i : Nat) (x : EvSrc) : Word := bitIf 24 x.sat ||| place 23 16 x.edges.toNat ||| place 8 0 i

/-- A read of EVCLAIM. -/
def State.readClaim (s : State) (k : Nat) : Word × State :=
  match s.claimed k with
  | some i => (claimWord i (s.bankSrc k i), s.bankMod k i EvSrc.claim)
  | none => (BitVec.ofNat 64 spurious, s)

/-- A source that has ended; a level source is sampled again. -/
def EvSrc.done (x : EvSrc) : EvSrc := { x with act := false, qcnt := 0 }

/-- A write of EVEOI. -/
def State.writeEoi (s : State) (k : Nat) (v : Word) : State :=
  let i := fld v 8 0
  let known := decide (i < 256) && (s.bankSrc k i).act
  let bad := (s.core k).rps.isEmpty || !known
  let s := s.modCore k (fun c => { c with rps := c.rps.drop 1, eoiErr := c.eoiErr || bad })
  if known then s.bankMod k i EvSrc.done else s

/-! ## Registers of the core (Tables 11.17, 11.18) -/

/-- EVRPS: TOP, DEPTH, LEVELS. -/
def Core.rpsWord (c : Core) : Word :=
  place 63 60 c.runPrio ||| place 59 55 c.rps.length ||| c.rps.foldl (fun w p => w ||| bitIf p.toNat true) 0

/-- EVSTAT. -/
def Core.evstat (c : Core) : Word := bitIf 63 c.eoiErr ||| bitIf 62 c.swi

/-- A write of EVSTAT: EOIERR clears by 1, SWI drives source 5. -/
def State.writeEvstat (s : State) (k : Nat) (v : Word) : State :=
  (s.modCore k (fun c => { c with eoiErr := c.eoiErr && !bitAt v 63, swi := bitAt v 62 })).psrc k 5 (fun x => x.setLevel (bitAt v 62))

/-- EVCFG. -/
def Core.evcfg (c : Core) : Word := place 11 8 c.eslot.toNat ||| place 3 0 c.evBase.toNat

def State.writeEvcfg (s : State) (k : Nat) (v : Word) : State :=
  s.masking k (fun s => s.modCore k (fun c => { c with eslot := BitVec.ofNat 4 (fld v 11 8), evBase := BitVec.ofNat 4 (fld v 3 0) }))

def State.writeEvgate (s : State) (k : Nat) (v : Word) : State :=
  s.masking k (fun s => s.modCore k (fun c => { c with gateOpen := bitAt v 0 }))

/-- The level of source TMR. -/
def State.tmrLevel (s : State) (k : Nat) : Bool :=
  let e := (s.core k).evtmr
  e != 0 && decide (e.toNat ≤ s.now)

/-- Evaluate the compare of EVTMR. -/
def State.sampleTmr (s : State) (k : Nat) : State := s.psrc k 0 (fun x => x.setLevel (s.tmrLevel k))

def State.writeEvtmr (s : State) (k : Nat) (v : Word) : State := (s.modCore k (fun c => { c with evtmr := v })).sampleTmr k

/-- ic that remain of a count that runs until `d`. -/
def State.icLeft (s : State) (k d : Nat) : Nat := ceilDiv ((d - s.now) * s.coreMHz k) 1000

/-- COUNT of EVWDOG as it reads now. -/
def State.wdogCount (s : State) (k : Nat) : Nat :=
  let c := s.core k
  match c.wexpAt with
  | some d => if c.wexp then 0 else min c.wcount.toNat (s.icLeft k d)
  | none => c.wcount.toNat

/-- EVWDOG. -/
def State.evwdog (s : State) (k : Nat) : Word := bitIf 63 (s.core k).wexp ||| place 31 0 (s.wdogCount k)

/-- The watchdog counts `n` ic from now on. -/
def State.wdogStart (s : State) (k n : Nat) : State :=
  s.modCore k (fun c => { c with wcount := BitVec.ofNat 32 n, wexpAt := if n = 0 then none else some (s.now + s.icNs k n) })

/-- A write of COUNT: it reloads the watchdog and clears WEXP. -/
def State.writeEvwdog (s : State) (k : Nat) (v : Word) : State :=
  ((s.modCore k (fun c => { c with wexp := false })).wdogStart k (fld v 31 0)).psrc k 1 (fun x => x.setLevel false)

/-- The count stands from now on: a halt or a gated shelf (R395, R417). -/
def State.wdogStop (s : State) (k : Nat) : State :=
  if (s.core k).wexp then s
  else
    let n := s.wdogCount k
    s.modCore k (fun c => { c with wcount := BitVec.ofNat 32 n, wexpAt := none })

/-- The count goes on; a count that is not zero is raised to `least` (R417). -/
def State.wdogResume (s : State) (k least : Nat) : State :=
  let c := s.core k
  if c.wexp ∨ c.wcount = 0 ∨ c.wexpAt.isSome then s else s.wdogStart k (max least c.wcount.toNat)

/-- EXSTAT. -/
def Core.exstat (c : Core) : Word :=
  bitIf 63 c.dfact ||| bitIf 62 c.escact ||| place 47 32 c.dfcnt.toNat ||| place 5 0 c.lastDesc.toNat

/-- Configure a source; a reserved one holds what is written and is never pending. -/
def State.configure (s : State) (k i : Nat) (f : EvSrc → EvSrc) : State :=
  if (k = wardenKey ∧ reservedWarden i = true) ∨ (k ≠ wardenKey ∧ i < 16 ∧ 6 ≤ i) then
    s.modCore k (fun c => { c with srcs := tmod {} c.srcs i f })
  else if k ≠ wardenKey ∧ 16 ≤ i ∧ reservedShared i = true then s.setSrc (keyShelf k) i (f (s.src (keyShelf k) i))
  else s.masking k (fun s => s.bankMod k i f)

/-- EVPCFGi. -/
def State.readPcfg (s : State) (k i : Nat) : Word := (tget {} (s.core k).srcs i).read false false

def State.writePcfg (s : State) (k i : Nat) (v : Word) : State :=
  s.configure k i (EvSrc.write false false v (BitVec.allOnes 64) 0 0)

/-- EV_SCFGi and WD_SCFGi. -/
def State.readScfg (s : State) (n i : Nat) : Word := (s.src n i).read true (isData i)

def State.writeScfg (s : State) (n i : Nat) (v m hm hv : Word) : State :=
  s.configure (16 * n + s.routed n (s.src n i).target.toNat) i (EvSrc.write true (isData i) v m hm hv)

def State.readWdScfg (s : State) (i : Nat) : Word := (tget {} (s.core wardenKey).srcs i).read true false

def State.writeWdScfg (s : State) (i : Nat) (v m hm hv : Word) : State :=
  s.configure wardenKey i (EvSrc.write true false v m hm hv)

/-! ## Inputs and timers -/

/-- The input of a source that a register of the core or the log store holds at a level (Tables 11.9, 15.2). -/
def State.heldLevel (s : State) (k i : Nat) : Option Bool :=
  match i with
  | 0 => some (s.tmrLevel k)
  | 1 => some (s.core k).wexp
  | 2 => some ((s.core k).sel.any (fun e => e.2.valid))
  | 5 => some (s.core k).swi
  | 22 => if k = wardenKey then some (decide (16384 ≤ s.warden.unflushed)) else none
  | _ => none

def effSourceInputChange (b : SourceBank) (i : Nat) (level : Bool) (s : State) : State :=
  match b with
  | .own c =>
    let k := s.coreKey c
    if k ≠ wardenKey ∧ (16 ≤ i ∨ s.shelfGone (keyShelf k) = true) then s
    else s.psrc k i (fun x => x.setLevel ((s.heldLevel k i).getD level))
  | .shared n => if isData i || s.shelfGone n.val then s else s.shsrc n.val i (fun x => x.setLevel level)

/-- SOURCE_INPUT_CHANGE (R291). -/
def execSourceInputChange (b : SourceBank) (i : Fin 256) (level : Bool) (s : State) : Host.Outcome State Fault Refusal :=
  .next (effSourceInputChange b i.val level s)

def effCoalesceTimer (n i : Nat) (s : State) : State :=
  if isData i && s.reached (s.src n i).coalDue then
    s.shsrc n i (fun x => { x with dpend := true, counted := 0, coalDue := none })
  else s

/-- COALESCE_TIMER (R294). -/
def execCoalesceTimer (n : Fin 64) (i : Fin 256) (s : State) : Host.Outcome State Fault Refusal := .next (effCoalesceTimer n.val i.val s)

def effHoldoffExpiry (n g : Nat) (s : State) : State :=
  if tget 0 s.holdoff (16 * n + g) ≤ s.now then { s with holdoff := tdel (16 * n + g) s.holdoff } else s

/-- HOLDOFF_EXPIRY (R294). -/
def execHoldoffExpiry (n : Fin 64) (g : Fin 16) (s : State) : Host.Outcome State Fault Refusal := .next (effHoldoffExpiry n.val g.val s)

def effEvtmrMatch (c : CoreId) (s : State) : State :=
  let k := s.coreKey c
  if (s.core k).halted then s else s.sampleTmr k

/-- EVTMR_MATCH (R289). A halted core evaluates its compare again at release (Table 17.6). -/
def execEvtmrMatch (c : CoreId) (s : State) : Host.Outcome State Fault Refusal := .next (effEvtmrMatch c s)

def effWdogExpire (c : CoreId) (s : State) : State :=
  let k := s.coreKey c
  let x := s.core k
  if !x.wexp && s.reached x.wexpAt then
    (s.modCore k (fun c => { c with wexp := true, wcount := 0, wexpAt := some s.now })).psrc k 1 (fun x => x.setLevel true)
  else s

/-- WDOG_EXPIRE (R289). -/
def execWdogExpire (c : CoreId) (s : State) : Host.Outcome State Fault Refusal := .next (effWdogExpire c s)

/-- A write of EV_CDB. -/
def State.writeCdb (s : State) (n : Nat) (v : Word) : State :=
  if bitAt v 63 then s.psrc (16 * n + s.routed n (fld v 3 0)) 4 EvSrc.pulse else s

def effEvCdb (who : Party) (n : Nat) (v : Word) (s : State) : State := s.gateWrite who (.evCdb n) v (fun s => s.writeCdb n v)

/-- EV_CDB (R289). -/
def execEvCdb (who : Party) (n : Fin 64) (v : Word) (s : State) : Host.Outcome State Fault Refusal := .next (effEvCdb who n.val v s)

end Sys2Proof.Machine
end

