-- ==== Sys2Proof/Machine/EfmarSys.lean ====
section
/-! DEFINITION. The system page and the core control numbers: CTLRD, CTLWR, ERET, TRAP, BKPT, RSMODE, RDTIME, STIM, EVSYNC (Table 7.9,
R185, R203, R212, R213, R227, R246, R275, R284, R299, R301, R411, R419). -/

namespace Sys2Proof.Machine

/-! ## Store-error log (R178, Tables 6.13 to 6.15) -/

def SelEnt.info (e : SelEnt) : Word := bitIf 63 e.valid ||| place 62 59 e.cause.toNat ||| place 19 0 e.ctx.toNat

def Core.selstat (c : Core) : Word := bitIf 63 c.selOvf ||| place 15 0 c.selLost.toNat

/-- STOREERR is high while any VALID is 1. -/
def State.sampleStoreErr (s : State) (k : Nat) : State := s.psrc k 2 (fun x => x.setLevel ((s.core k).sel.any (fun e => e.2.valid)))

/-- A write of SELINFOn: VALID clears by 1. -/
def State.writeSelinfo (s : State) (k n : Nat) (v : Word) : State :=
  if bitAt v 63 then (s.modCore k (fun c => { c with sel := tmod {} c.sel n (fun e => { e with valid := false }) })).sampleStoreErr k else s

/-! ## Other core registers (Tables 6.10 to 6.12, 6.16) -/

/-- Physical core of an active slot: SH_SLOTMAP0 and SH_SLOTMAP1 (Table 14.13). -/
def State.physOf (s : State) (n slot : Nat) : Nat :=
  let j := slot % 8
  getF s (if slot < 8 then .shSlotmap0 n else .shSlotmap1 n) (5 * j + 4) (5 * j)

/-- DET lane of a slot: slots with DET on take lanes 0 to 3 in ascending order (R180). -/
def State.laneOf (s : State) (n slot : Nat) : Nat := ((List.range slot).filter (fun i => getB s (.shDetcfg n) (32 + i))).length

/-- CORESTAT; SHELF, PHYS, SLOT and LANE of the warden are open (log entry 3). LANE is 0 while DETACT is 0. -/
def State.corestat (s : State) (k : Nat) : Word :=
  if k = wardenKey then (s.free &&& (fmask 47 33 ||| fmask 6 5)) ||| bitIf 7 true
  else
    let n := keyShelf k
    let i := keySlot k
    place 47 42 n ||| place 41 37 (s.physOf n i) ||| place 36 33 i ||| bitIf 7 (s.detOn k)
      ||| (if s.detOn k then place 6 5 (s.laneOf n i) else 0)

def Core.pipecfg (c : Core) : Word := bitIf 1 c.bpen ||| bitIf 0 c.fuse

def State.writePipecfg (s : State) (k : Nat) (v : Word) : State :=
  s.modCore k (fun c => { c with bpen := bitAt v 1, fuse := bitAt v 0, icache := if bitAt v 2 then [] else c.icache })

def Ctx.tagstat (x : Ctx) : Word := place 47 32 x.pdrop.toNat ||| x.tags.foldl (fun w e => w ||| bitIf e.1 true) 0

/-- PCYC to PWAIT: PRET, PFUSE, PMISS and PICMISS count events; PCYC and PWAIT count ic, so what they have counted since they were written
is open (log entry 3). -/
def State.readPerf (s : State) (k i : Nat) : Word := if i = 1 then (s.core k).pret else tget 0 (s.core k).perf i + (if i = 0 ∨ i = 5 then s.free else 0)

def State.writePerf (s : State) (k i : Nat) (v : Word) : State :=
  s.modCore k (fun c => if i = 1 then { c with pret := v } else { c with perf := tset 0 c.perf i v })

/-! ## Control numbers (Tables 6.9, 9.6, 10.16, 11.13; R227) -/

/-- A capability transfer: written only (R301). -/
def capNum (n : Nat) : Bool := decide ((0x090 ≤ n ∧ n ≤ 0x092) ∨ (0x098 ≤ n ∧ n ≤ 0x09A))

/-- A number that some chapter defines. -/
def ctlNum (n : Nat) : Bool :=
  decide ((0x010 ≤ n ∧ n ≤ 0x012) ∨ n = 0x020 ∨ n = 0x021 ∨ (0x030 ≤ n ∧ n ≤ 0x038) ∨ (0x040 ≤ n ∧ n ≤ 0x045) ∨ n = 0x050
    ∨ (0x060 ≤ n ∧ n ≤ 0x063) ∨ (0x080 ≤ n ∧ n ≤ 0x086) ∨ n = 0x09C ∨ (0x400 ≤ n ∧ n ≤ 0x407) ∨ (0x410 ≤ n ∧ n ≤ 0x41F)
    ∨ n = 0x700 ∨ n = 0x701 ∨ (0x710 ≤ n ∧ n ≤ 0x71F)) || capNum n

/-- A number that needs SYSCTL authority. -/
def sysctlNum (n : Nat) : Bool :=
  decide (n = 0x011 ∨ (0x030 ≤ n ∧ n ≤ 0x038) ∨ (0x040 ≤ n ∧ n ≤ 0x045) ∨ (0x081 ≤ n ∧ n ≤ 0x086) ∨ n = 0x092 ∨ n = 0x09A ∨ 0x400 ≤ n)

/-- Value of a control number, and the state after the read. -/
def State.readNum (s : State) (k r n : Nat) : Word × State :=
  let x := s.ctx k r
  let c := s.core k
  if n = 0x010 then (s.corestat k, s.drawn)
  else if n = 0x011 then (c.pipecfg, s)
  else if n = 0x012 then (x.tagstat, s)
  else if n = 0x020 then (x.mph, s)
  else if n = 0x021 then (x.mpl, s)
  else if n < 0x038 then
    let e := tget {} c.sel ((n - 0x030) / 2)
    (if n % 2 = 0 then place 55 0 e.addr.toNat else e.info, s)
  else if n = 0x038 then (c.selstat, s)
  else if n ≤ 0x045 then (s.readPerf k (n - 0x040), s.drawn)
  else if n = 0x050 then (x.asr, s)
  else if n = 0x060 then (x.ccw r, s)
  else if n = 0x061 then (x.wtime, s)
  else if n = 0x062 then (x.why, s)
  else if n = 0x063 then (c.fpownWord, s)
  else if n = 0x080 then (x.pkeys, s)
  else if n = 0x081 then (x.xlat, s)
  else if n = 0x082 then (x.s1root, s)
  else if n = 0x083 then (x.s2root, s)
  else if n = 0x084 then (x.walka1, s)
  else if n = 0x085 then (x.walka2, s)
  else if n = 0x086 then (c.tlbstat, s)
  else if n = 0x09C then (c.exstat, s)
  else if n = 0x400 then s.readClaim k
  else if n = 0x402 then (bitIf 0 c.gateOpen, s)
  else if n = 0x403 then (c.evcfg, s)
  else if n = 0x404 then (c.rpsWord, s)
  else if n = 0x405 then (c.evstat, s)
  else if n = 0x406 then (c.evtmr, s)
  else if n = 0x407 then (s.evwdog k, s)
  else if 0x410 ≤ n ∧ n ≤ 0x41F then (s.readPcfg k (n - 0x410), s)
  else if n = 0x701 then (c.ctxRes, s)
  else if 0x710 ≤ n then ((s.ctx k (n - 0x710)).ccw (n - 0x710), s)
  else (0, s)

/-- A write of a control number other than a capability transfer; read-only numbers ignore it (R8). -/
def State.writeNum (s : State) (k r n : Nat) (v : Word) : State :=
  let x := s.ctx k r
  if n = 0x011 then s.writePipecfg k v
  else if 0x030 ≤ n ∧ n < 0x038 then (if n % 2 = 0 then s else s.writeSelinfo k ((n - 0x030) / 2) v)
  else if n = 0x038 then s.modCore k (fun c => if bitAt v 63 then { c with selOvf := false, selLost := 0 } else c)
  else if 0x040 ≤ n ∧ n ≤ 0x045 then s.writePerf k (n - 0x040) v
  else if n = 0x050 then s.setCtx k r { x with asr := asrWrite x.asr v }
  else if n = 0x060 then s.setCtx k r (x.writeCcw v x.sysctl)
  else if n = 0x061 then s.setCtx k r { x with wtime := v }
  else if n = 0x062 then s.setCtx k r (x.writeWhy v)
  else if n = 0x080 then s.setCtx k r { x with pkeys := v &&& pkeysMask }
  else if n = 0x081 then (if k = wardenKey then s else s.setCtx k r { x with xlat := v &&& xlatMask })
  else if n = 0x082 then s.setCtx k r { x with s1root := v &&& rootMask }
  else if n = 0x083 then s.setCtx k r { x with s2root := v &&& rootMask }
  else if n = 0x086 then s.modCore k (fun c => { c with tlbErr := c.tlbErr && !bitAt v 15 })
  else if n = 0x401 then s.writeEoi k v
  else if n = 0x402 then s.writeEvgate k v
  else if n = 0x403 then s.writeEvcfg k v
  else if n = 0x405 then s.writeEvstat k v
  else if n = 0x406 then s.writeEvtmr k v
  else if n = 0x407 then s.writeEvwdog k v
  else if 0x410 ≤ n ∧ n ≤ 0x41F then s.writePcfg k (n - 0x410) v
  else if n = 0x700 then s.writeCtxcmd k r v
  else if 0x710 ≤ n ∧ n ≤ 0x71F then
    s.modCtx k (n - 0x710) (fun y => if y.resident then y.writeCcw v true else y)
  else s

/-- An access waits: ASR for arithmetic tags (R228), CTXRES for the command in progress (R232). -/
def State.numWait (s : State) (k r n : Nat) (wr : Bool) : Option WaitWhy :=
  if n = 0x050 then (s.ctx k r).arithTag.map WaitWhy.tag
  else if n = 0x701 ∧ wr = false ∧ (s.core k).mov.isSome then some .other
  else none

/-- A capability transfer by register number `d` (R301). -/
def capTransfer (n d : Nat) : Action := fun k r s =>
  let x := s.ctx k r
  let into := fun (c : Cap) => (s.segFree k r d).bind (fun _ s =>
    if d = segC then .exc (capExc cSegc d) s else doneIn (s.modCtx k r (fun x => x.putSeg d c)))
  if n = 0x090 then (s.segVal k r d).bind (fun c s => doneIn (s.modCtx k r (fun x => { x with tsbp := c })))
  else if n = 0x091 then (s.segVal k r d).bind (fun c s => doneIn (s.modCtx k r (fun x => { x with etsb := c })))
  else if n = 0x092 then
    (s.segVal k r d).bind (fun c s => (s.segVal k r segT).bind (fun t s =>
      doneIn (s.modCore k (fun y => { y with dtp := c, dauth := t }))))
  else if n = 0x098 then into x.tsbp
  else if n = 0x099 then into x.etsb
  else into (s.core k).dtp

/-- The condition of authority of a control number. -/
def numAuth (n : Nat) (f : Action) : Action := if sysctlNum n then needSysctl f else f

/-- CTLRD of a 16-bit field. -/
def ctlrdAction (f : Nat) : Action := legal (decide (f < 0x1000) && ctlNum f && !capNum f) (numAuth f (fun k r s =>
  match s.numWait k r f false with
  | some w => .wait w s
  | none => (s.room k r 0 1).bind (fun _ s =>
      let q := s.readNum k r f
      doneIn (q.2.modCtx k r (fun x => x.replace 0 [.val q.1])))))

/-- CTLWR of a 16-bit field. -/
def ctlwrAction (f : Nat) : Action := legal (decide (f < 0x1000) && ctlNum f) (numAuth f (fun k r s =>
  match s.numWait k r f true with
  | some w => .wait w s
  | none => (s.operand k r 0).bind (fun v s =>
      if capNum f then
        (legal (decide (v.toNat < 8)) (capTransfer f v.toNat) k r s).bind (fun _ s => doneIn (s.modCtx k r (fun x => x.replace 1 [])))
      else if let some w := (if f = 0x700 then s.loadHeld k r v else none) then .wait w.1 w.2
      else doneIn ((s.writeNum k r f v).modCtx k r (fun x => x.replace 1 [])))))

def opCtlrd (f : Nat) : Op := { code := 0xF1 :: leBytes 2 f, act := ctlrdAction f }
def opCtlwr (f : Nat) : Op := { code := 0xF2 :: leBytes 2 f, act := ctlwrAction f }

/-- CTLRD (R212). -/
def execCtlrd (c : CoreId) (k : BitVec 16) (s : State) : Host.Outcome State Fault Refusal := .next (issue c (opCtlrd k.toNat) s)

/-- CTLWR (R213). -/
def execCtlwr (c : CoreId) (k : BitVec 16) (s : State) : Host.Outcome State Fault Refusal := .next (issue c (opCtlwr k.toNat) s)

/-! ## Rows that name one register -/

/-- As `issue`, for a row that stands for one value of the operand: nothing happens where the top of the stack is another value. -/
def issueWhen (c : CoreId) (f : Word → Bool) (o : Op) (s : State) : State :=
  let k := s.coreKey c
  if s.mayIssue k then
    let t := s.schedule k
    match (t.core k).run with
    | some r =>
      match (t.ctx k r).ring.head? with
      | some (.val v) => if f v then t.runOp k r o else s
      | _ => t.runOp k r o
    | none => t
  else s

/-- PIPECFG_ICINV (R164): a CTLWR of PIPECFG with ICINV 1. -/
def execPipecfgIcinv (c : CoreId) (s : State) : Host.Outcome State Fault Refusal :=
  .next (issueWhen c (fun v => bitAt v 2) (opCtlwr 0x011) s)

/-- CCW_WRITE (R231): a CTLWR of the running context's CCW. -/
def execCcwWrite (c : CoreId) (s : State) : Host.Outcome State Fault Refusal := .next (issue c (opCtlwr 0x060) s)

/-- ASR_ACCESS (R228): a CTLRD or CTLWR of ASR. -/
def execAsrAccess (c : CoreId) (wr : Bool) (s : State) : Host.Outcome State Fault Refusal :=
  .next (issue c (if wr then opCtlwr 0x050 else opCtlrd 0x050) s)

/-- CTX_LOAD (R232): a CTLWR of CTXCMD with OP 1. -/
def execCtxLoad (c : CoreId) (s : State) : Host.Outcome State Fault Refusal :=
  .next (issueWhen c (fun v => fld v 63 60 == 1) (opCtlwr 0x700) s)

/-- CTX_NEWLOAD (R232): a CTLWR of CTXCMD with OP 2. -/
def execCtxNewload (c : CoreId) (s : State) : Host.Outcome State Fault Refusal :=
  .next (issueWhen c (fun v => fld v 63 60 == 2) (opCtlwr 0x700) s)

/-- CTX_PARK (R232): a CTLWR of CTXCMD with OP 3. -/
def execCtxPark (c : CoreId) (s : State) : Host.Outcome State Fault Refusal :=
  .next (issueWhen c (fun v => fld v 63 60 == 3) (opCtlwr 0x700) s)

/-- CTX_FREE (R232): a CTLWR of CTXCMD with OP 4. -/
def execCtxFree (c : CoreId) (s : State) : Host.Outcome State Fault Refusal :=
  .next (issueWhen c (fun v => fld v 63 60 == 4) (opCtlwr 0x700) s)

/-- EVWDOG_WRITE (R289): a CTLWR of EVWDOG. -/
def execEvwdogWrite (c : CoreId) (s : State) : Host.Outcome State Fault Refusal := .next (issue c (opCtlwr 0x407) s)

/-- EVCLAIM (R295): a CTLRD of EVCLAIM. -/
def execEvclaim (c : CoreId) (s : State) : Host.Outcome State Fault Refusal := .next (issue c (opCtlrd 0x400) s)

/-- EVEOI (R295): a CTLWR of EVEOI. -/
def execEveoi (c : CoreId) (s : State) : Host.Outcome State Fault Refusal := .next (issue c (opCtlwr 0x401) s)

/-- TSBP_SET (R301). -/
def execTsbpSet (c : CoreId) (s : State) : Host.Outcome State Fault Refusal := .next (issue c (opCtlwr 0x090) s)

/-- ETSB_SET (R301). -/
def execEtsbSet (c : CoreId) (s : State) : Host.Outcome State Fault Refusal := .next (issue c (opCtlwr 0x091) s)

/-- DTP_SET (R281, R301). -/
def execDtpSet (c : CoreId) (s : State) : Host.Outcome State Fault Refusal := .next (issue c (opCtlwr 0x092) s)

/-- TSBP_GET (R301). -/
def execTsbpGet (c : CoreId) (s : State) : Host.Outcome State Fault Refusal := .next (issue c (opCtlwr 0x098) s)

/-- ETSB_GET (R301). -/
def execEtsbGet (c : CoreId) (s : State) : Host.Outcome State Fault Refusal := .next (issue c (opCtlwr 0x099) s)

/-- DTP_GET (R301). -/
def execDtpGet (c : CoreId) (s : State) : Host.Outcome State Fault Refusal := .next (issue c (opCtlwr 0x09A) s)

/-! ## The system page -/

/-- EVSYNC: every earlier mask write has passed its window (R299). -/
def evsyncAction : Action := fun k _ s =>
  doneIn (s.modCore k (fun c => { c with window := c.window.map (fun (w : Nat × Nat × Bool) => (w.1, w.2.1, true)) }))

/-- EVSYNC (R299). -/
def execEvsync (c : CoreId) (s : State) : Host.Outcome State Fault Refusal := .next (issue c { code := [0xF0, 0x03], slow := true, act := evsyncAction } s)

/-- ERET (R284). -/
def execEret (c : CoreId) (s : State) : Host.Outcome State Fault Refusal := .next (issue c { code := [0xF0, 0x04], slow := true, act := eretAction } s)

/-- TRAP u: descriptor 32 + u, with the instruction after it as the saved PC (Table 11.7). -/
def trapAction (u : Nat) : Action := fun k r s =>
  let next := s.nextPc k r 3
  let q := (s.modCtx k r (fun x => { x with pc := BitVec.ofNat 56 next })).enter k r { desc := 32 + u }
  .ok (some (q.1.ctx k r).pc.toNat) q.1

/-- TRAP (R283). -/
def execTrap (c : CoreId) (u : BitVec 8) (s : State) : Host.Outcome State Fault Refusal :=
  .next (issue c { code := [0xF0, 0x05, u], slow := true, act := legal (decide (u.toNat < 32)) (trapAction u.toNat) } s)

/-- RSMODE: 0 TRAP, 1 WRAP (R203). -/
def rsmodeAction : Action := fun k r s =>
  (s.operand k r 0).bind (fun v s =>
    legal (decide (v.toNat < 2)) (fun k r s => doneIn (s.modCtx k r (fun x => { x.replace 1 [] with rsm := v == 1 }))) k r s)

/-- RSMODE (R203). -/
def execRsmode (c : CoreId) (s : State) : Host.Outcome State Fault Refusal := .next (issue c { code := [0xF0, 0x07], act := rsmodeAction } s)

/-- RDTIME (R192). -/
def execRdtime (c : CoreId) (s : State) : Host.Outcome State Fault Refusal :=
  .next (issue c { code := [0xF0, 0x08], act := fun k r s => pushWord s.devtime k r s } s)

/-! ## Stimulus packets (R419, Table 17.8) -/

/-- Place a packet in the core's FIFO of 16; a full one drops it, counts it and pulses STIMOVF. -/
def State.stimulus (s : State) (k port kind : Nat) (ctx : BitVec 20) (v : Word) : State :=
  let c := s.core k
  if c.stim.length < 16 then
    s.modCore k (fun c => { c with drops := 0, stim := c.stim ++
      [{ time := s.now, shelf := keyShelf k, slot := keySlot k, port := port, kind := kind, ctx := ctx, value := v, drops := c.drops }] })
  else (s.modCore k (fun c => { c with drops := satAdd (2 ^ 32 - 1) c.drops 1 })).psrc k 3 EvSrc.pulse

def stimAction (u : Nat) : Action := fun k r s =>
  (s.operand k r 0).bind (fun v s =>
    let s := s.modCtx k r (fun x => x.replace 1 [])
    doneIn (if getB s .vxTrcfg 63 && getB s .vxTrcfg u then s.stimulus k u 0 (s.ctx k r).ctx v else s))

/-- STIM (R419). -/
def execStim (c : CoreId) (u : BitVec 8) (s : State) : Host.Outcome State Fault Refusal :=
  .next (issue c { code := [0xF0, 0x09, u], act := legal (decide (u.toNat < 32)) (stimAction u.toNat) } s)

/-! ## Halts (R411) -/

/-- DEPLOYED. -/
def State.deployed (s : State) : Bool := s.fuses.lc == 2

/-- A trigger reaches a core: in DEPLOYED only one in quarantine; the warden only in a session at WARDEN level (R415, R416). -/
def State.haltable (s : State) (k : Nat) : Bool :=
  if k = wardenKey then s.vexek.level == 3
  else s.shelfActive (keyShelf k) && (!s.deployed || s.vexek.quar.contains (keyShelf k, keySlot k))

/-- Ask a core to halt at its next boundary. -/
def State.triggerCore (s : State) (k : Nat) : State :=
  if s.haltable k then s.modCore k (fun c => { c with haltReq := c.haltReq || !c.halted }) else s

/-- Trigger group of an active slot: VX_SHTRGn; of the warden: WGRP of VX_CTL. -/
def State.groupsOf (s : State) (k : Nat) : List Nat :=
  if k = wardenKey then [getF s .vxCtl 61 58]
  else
    let n := keyShelf k
    let g := fun i => getF s (.vxShtrg n) (4 * i + 3) (4 * i)
    if s.paired n then [g (keySlot k), g (keySlot k + 1)] else [g (keySlot k)]

/-- Keys of the cores of the block: the active slots of every shelf, one for each pair in PAIRED mode, and the warden. -/
def State.coreKeys (s : State) : List Nat :=
  ((List.range 1024).filter (fun k => k % 2 == 0 || !s.paired (k / 16))) ++ [wardenKey]

/-- Trigger every core of group `g`. -/
def State.triggerGroup (s : State) (g : Nat) : State :=
  if g = 0 then s else foldS (s.coreKeys.filter (fun k => (s.groupsOf k).contains g)) (fun s k => s.triggerCore k) s

/-- BKPT: with HALTBK 1 the core halts at it and triggers its group; else descriptor 11. The halted context's PC stays at the BKPT, as
the saved PC of descriptor 11 does (log entry 34). -/
def bkptAction : Action := fun k r s =>
  if getB s .vxCtl 63 && s.haltable k then
    .ok (some ((s.ctx k r).pc.toNat)) ((s.triggerCore k) |> fun s => foldS (s.groupsOf k) (fun s g => s.triggerGroup g) s)
  else .exc (plainReport dBK) s

/-- BKPT (R411). -/
def execBkpt (c : CoreId) (s : State) : Host.Outcome State Fault Refusal := .next (issue c { code := [0xF0, 0x06], act := bkptAction } s)

end Sys2Proof.Machine
end

