-- ==== Sys2Proof/Machine/Keys.lean ====
section
/-! DEFINITION. Key slots (R140 to R144): copies, caches, the key commands of GL_KEYCMD, key grants (R332), and their rows. -/

namespace Sys2Proof.Machine

/-! ## Copies and caches -/

/-- A slot as its home copy gives it, or the buddy's mirror while the home shelf is gone; none where both are gone. -/
def State.keyCopy (s : State) (k : Nat) : Option KeySlot :=
  let h := k / 1024
  if s.saggarOpen h then some (tget {} (s.shelf h).homeKeys (k % 1024))
  else if s.saggarOpen (buddy h) then some (tget {} (s.shelf (buddy h)).mirrorKeys (k % 1024))
  else none

/-- Write every copy whose shelf can be reached, then drop the slot from every key cache (R142). -/
def State.keyStore (s : State) (k : Nat) (x : KeySlot) : State :=
  let h := k / 1024
  let s := if s.saggarOpen h then s.modShelf h (fun t => { t with homeKeys := tset {} t.homeKeys (k % 1024) x }) else s
  let s := if s.saggarOpen (buddy h) then s.modShelf (buddy h) (fun t => { t with mirrorKeys := tset {} t.mirrorKeys (k % 1024) x }) else s
  foldS (List.range 64) (fun s n => s.modShelf n (fun t => { t with keyCache := adel k t.keyCache })) s

/-- What an engine of shelf `n` finds for a slot: the key, a fill that it has to wait for, or a failed fill (R144). -/
inductive KeyGot where
  | key (x : KeySlot) | wait | fails
  deriving DecidableEq, Repr

/-- Look a slot up for an engine of shelf `n`; a miss asks for a fill once, a failed fill is reported once. -/
def State.keyFor (s : State) (n k : Nat) : State × KeyGot :=
  let h := s.shelf n
  if h.saggarClosed then (s, .fails)
  else if k / 1024 = n then (s, .key (tget {} h.homeKeys (k % 1024)))
  else match alook k h.keyCache with
    | some x => (s.setShelf n { h with keyCache := aput k x h.keyCache }, .key x)
    | none =>
      match h.keyMiss.find? (fun m => m.1 == k) with
      | some (_, true) => (s.setShelf n { h with keyMiss := h.keyMiss.filter (fun m => m.1 ≠ k) }, .fails)
      | some (_, false) => (s, .wait)
      | none => (s.setShelf n { h with keyMiss := h.keyMiss ++ [(k, false)] }, .wait)

/-- The bytes of a key, byte 0 first. -/
def keyBytes (k : BitVec 256) : List Byte := leBytes 32 k.toNat

def effKeyFillDone (n k : Nat) (s : State) : State :=
  let h := s.shelf n
  if h.keyMiss.contains (k, false) then
    match s.keyCopy k, h.transportKey, s.saggarOpen n with
    | some x, some _, true => s.setShelf n { h with
        keyMiss := h.keyMiss.filter (fun m => m.1 ≠ k)
        keyCache := (aput k x h.keyCache).take 256 }
    | _, _, _ => s.setShelf n { h with keyMiss := h.keyMiss.map (fun m => if m.1 = k then (k, true) else m) }
  else s

/-- KEY_FILL_DONE (R144): from the home shelf, or from its buddy's mirror; without a transport key or a copy the fill fails. -/
def execKeyFillDone (n : Fin 64) (k : Fin 65536) (s : State) : Host.Outcome State Fault Refusal := .next (effKeyFillDone n k s)

/-! ## Commands (R141 to R143, R332) -/

/-- RESULT codes of GL_KEYSTAT (Table 5.14). -/
def keyOk : Nat := 0
def keyNoAuth : Nat := 1
def keyBadRec : Nat := 2
def keyUnwrapFail : Nat := 3
def keyAbsent : Nat := 4

/-- End the command on slot `k` with a result. -/
def State.keyDone (s : State) (k res : Nat) : State :=
  wrReg { (s.readStale (.keyRecord 0)).readStale (.keyRecord 1) with keyCmd := none } .glKeystat (place 62 60 res ||| place 15 0 k)

/-- A key grant for slot `k` covers the load record (R332). -/
def State.keyGrant (s : State) (k : Nat) : Bool :=
  let a := getF s .glKeyaddr 51 7 * 128
  getB s .glGrant 63 && (s.port (s.servingPort (a / 64))).windows.any (fun e =>
    grantUsable e.2 && bitAt (e.2.getD 0 0) 62 && bitAt (e.2.getD 0 0) 60 && bitAt (e.2.getD 0 0) 59 && grantCovers e.2 a 128
      && decide (fld (e.2.getD 2 0) 31 16 ≤ k ∧ k ≤ fld (e.2.getD 2 0) 47 32))

/-- A LOAD or ERASE passes with a key grant, or from the warden (R332). -/
def State.keyAllowed (s : State) (who : Party) (k : Nat) : Bool := who == .warden || s.keyGrant k

/-- A command turned away for want of a key grant: NOAUTH, and an access violation (R332). -/
def State.keyRefused (s : State) (who : Party) (k : Nat) : State := (s.keyDone k keyNoAuth).violate who true 0x500

/-- LOAD: the record is on its way from host memory. During a wipe and in RETIRED every command ends with NOAUTH (R376, Table 12.5). -/
def State.keyLoad (s : State) (who : Party) (v : Word) : State :=
  let k := fld v 15 0
  if getB s .glWipe 63 || s.fuses.lc == 3 then s.keyDone k keyNoAuth
  else if !s.keyAllowed who k then s.keyRefused who k
  else if (s.keyCopy k).isNone then s.keyDone k keyAbsent
  else
    let s := wrReg { s with keyCmd := some { slot := k, kek := fld v 31 16, wrap := bitAt v 59, warden := who == .warden } } .glKeystat
      (bitIf 63 true ||| place 15 0 k)
    let a := getF s .glKeyaddr 51 7 * 128
    (s.readTable (.keyRecord 0) a).readTable (.keyRecord 1) (a + 64)

def State.keyErase (s : State) (who : Party) (v : Word) : State :=
  let k := fld v 15 0
  if getB s .glWipe 63 || s.fuses.lc == 3 then s.keyDone k keyNoAuth
  else if !s.keyAllowed who k then s.keyRefused who k
  else if (s.keyCopy k).isNone then s.keyDone k keyAbsent
  else (s.keyStore k {}).keyDone k keyOk

def State.keyQuery (s : State) (v : Word) : State :=
  let k := fld v 15 0
  if getB s .glWipe 63 || s.fuses.lc == 3 then s.keyDone k keyNoAuth
  else match s.keyCopy k with
    | none => s.keyDone k keyAbsent
    | some x =>
      let s := wrReg s .glKeyattr (bitIf 63 x.valid ||| place 62 60 x.mode.toNat ||| place 59 40 x.localId.toNat ||| place 39 20 x.peer.toNat)
      (wrReg s .glKeyfloor (place 47 0 x.floor.toNat)).keyDone k keyOk

/-- A write of GL_KEYCMD; ignored while BUSY, and a reserved OP does nothing (Table 5.12). -/
def State.writeKeycmd (s : State) (who : Party) (v : Word) : State :=
  s.gateWrite who .glKeycmd v (fun s =>
    if getB s .glKeystat 63 then s
    else match fld v 63 60 with
      | 1 => s.keyLoad who v
      | 2 => s.keyErase who v
      | 3 => s.keyQuery v
      | _ => s)

/-- KEY_LOAD (R142). -/
def execKeyLoad (who : Party) (v : Word) (s : State) : Host.Outcome State Fault Refusal :=
  .next (if fld v 63 60 = 1 then s.writeKeycmd who v else s)

/-- KEY_ERASE (R142). -/
def execKeyErase (who : Party) (v : Word) (s : State) : Host.Outcome State Fault Refusal :=
  .next (if fld v 63 60 = 2 then s.writeKeycmd who v else s)

/-- KEY_QUERY (R141). -/
def execKeyQuery (who : Party) (v : Word) (s : State) : Host.Outcome State Fault Refusal :=
  .next (if fld v 63 60 = 3 then s.writeKeycmd who v else s)

/-! ## The load record (Table 5.2, R143) -/

/-- The wrapping key of a command: a VALID KEK slot of the same home shelf. -/
def State.kekOf (s : State) (c : KeyCmd) : Option KeySlot :=
  match s.keyCopy c.kek with
  | some x => if x.valid ∧ x.mode = 3 ∧ c.kek / 1024 = c.slot / 1024 then some x else none
  | none => none

/-- Reserved fields of the record are zero and MODE is not reserved. -/
def recordOk (wrap : Bool) (r : List Byte) : Bool :=
  let attr := wordIn r 0x48
  !bitAt attr 63 && fld attr 19 0 == 0 && decide (fld attr 62 60 ≤ 3) && fld (wordIn r 0x50) 63 48 == 0
    && (slice r 0x58 40).all (· == 0) && (wrap || (slice r 0x40 8).all (· == 0))

/-- The slot that a record loads over `old`: FLOOR never falls (R142). -/
def slotOf (keys r : List Byte) (old : KeySlot) : KeySlot :=
  let attr := wordIn r 0x48
  let floor := fld (wordIn r 0x50) 47 0
  { key1 := BitVec.ofNat 256 (natIn keys 0 32), key2 := BitVec.ofNat 256 (natIn keys 32 32), valid := true,
    mode := BitVec.ofNat 3 (fld attr 62 60), localId := BitVec.ofNat 20 (fld attr 59 40), peer := BitVec.ofNat 20 (fld attr 39 20),
    floor := BitVec.ofNat 48 (max floor old.floor.toNat) }

def effKeyRecordFetched (r : List Byte) (s : State) : State :=
  match s.keyCmd with
  | none => s
  | some c =>
    match s.keyCopy c.slot with
    | none => s.keyDone c.slot keyAbsent
    | some old =>
      if !recordOk c.wrap r then s.keyDone c.slot keyBadRec
      else if c.wrap then
        match s.kekOf c with
        | none => s.keyDone c.slot keyBadRec
        | some k =>
          match keyUnwrap (keyBytes k.key1) (slice r 0 72) with
          | none => s.keyDone c.slot keyUnwrapFail
          | some keys => (s.keyStore c.slot (slotOf keys r old)).keyDone c.slot keyOk
      else (s.keyStore c.slot (slotOf (slice r 0 64) r old)).keyDone c.slot keyOk

/-- A line of the record has been read; with both the command goes on. -/
def State.keyLineArrived (s : State) (half : Nat) (line : List Byte) : State :=
  match s.keyCmd with
  | none => s
  | some c =>
    let c := if half = 0 then { c with lo := some line } else { c with hi := some line }
    match c.lo, c.hi with
    | some a, some b => effKeyRecordFetched (a ++ b) { s with keyCmd := some c }
    | _, _ => { s with keyCmd := some c }

/-- The home could not read a line of the record: the command ends with BADREC and the slot keeps its contents (log entry 132). -/
def State.keyLineFailed (s : State) : State :=
  match s.keyCmd with
  | none => s
  | some c => s.keyDone c.slot keyBadRec

/-- KEY_RECORD_FETCHED (R142, R143): both lines of the record at once (log entry 45). -/
def execKeyRecordFetched (record : List Byte) (s : State) : Host.Outcome State Fault Refusal :=
  .next (effKeyRecordFetched (s.fit 128 record) (((s.drawnFor 128 record).readEnds (.keyRecord 0)).readEnds (.keyRecord 1)))

end Sys2Proof.Machine
end

