-- ==== Sys2Proof/Machine/Restore.lean ====
section
/-! DEFINITION. How a shelf comes up after a shelf reset: the root context (R258, R399), and the ledger restored from the fallback region
where the buddy is not active (R309). -/

namespace Sys2Proof.Machine

/-! ## Capabilities at start (Table 10.6a, R258, R361) -/

/-- A capability with its tag set. -/
def rootCap (rights otype base limit : Nat) : Cap :=
  { rights := BitVec.ofNat 8 rights, otype := BitVec.ofNat 8 otype, base := BitVec.ofNat 56 base, limit := BitVec.ofNat 56 limit, tag := true }

/-- seg.d, seg.t and seg.x0 of Table 10.6a with a seg.c of R and X. -/
def rootSegs (base limit : Nat) : Tbl Cap :=
  [(segC, rootCap 0xA0 0 base limit), (segD, rootCap 0xD7 0 0 0xFFFFFFFFFFFFFF), (segT, rootCap 0x04 1 0 0), (4, rootCap 0x0C 0 1 255)]

/-- The context that starts in store 0. -/
def rootCtx (base limit pc : Nat) : Ctx := { st := .ready, segs := rootSegs base limit, pc := BitVec.ofNat 56 pc }

/-! ## The shelf is active -/

/-- The root context of shelf `n` starts in store 0 of slot 0, where that store is free (R399). -/
def State.startRoot (s : State) (n : Nat) : State :=
  let half := getF s (.shRtvec n) 62 62
  if (s.ctx (16 * n) 0).st = .free then
    s.setCtx (16 * n) 0 (rootCtx 0xFF000100000000 0xFF0001001FFFFF (0x1E0000 + half * 0x10000 + tget 0 (s.shelf n).rtEntry half))
  else s

/-- The shelf is active: its mirror region and its buddy's mirror target come back, and the root context starts (Table 16.7). A completed
shelf reset is a safety reaction, with its record in the firing log (R32, R367). -/
def State.shelfUp (s : State) (n : Nat) (root : Bool) : State :=
  let b := buddy n
  let s := s.modShelf n (fun h => { h with phase := .active, started := true, restore := none, restoreImg := none, idleSince := s.now })
  let s := if s.shelfActive b then
      let s := s.modShelf n (fun h => { h with mirror := mirrorCopy (s.shelf b).entries })
      (s.modShelf b (fun h => { h with buddyBad := false })).mirrorBack b
    else if root || s.isRetired b then s.mirrorLost n
    else s
  let s := if root then s.startRoot n else s
  if root then s.reaction n 1 (rdReg s (.shFtstat n)) else if s.power.warm then s.raiseSteward n else s

/-! ## Restoring (R309) -/

/-- Region that a step of restoring reads: the adopted one, or the shelf's own. -/
def Shelf.restoreRegion (h : Shelf) (n : Nat) (adopted : Bool) : Nat := if adopted then h.adopt.getD n else n

/-- Ask for the image that comes next, or for its seal record. -/
def State.askRestore (s : State) (n : Nat) : State :=
  let h := s.shelf n
  match h.restore with
  | none => s
  | some (ad, i) =>
    let r := h.restoreRegion n ad
    s.askThrough (.restore n) ((if h.restoreImg.isSome then s.fbSeal n r i else s.fbAddr n r i) / 64) false

/-- The next image; after the last one the shelf is active. -/
def State.nextRestore (s : State) (n : Nat) : State :=
  let h := s.shelf n
  match h.restore with
  | none => s
  | some (ad, i) =>
    if i + 1 < 4096 then (s.setShelf n { h with restore := some (ad, i + 1), restoreImg := none }).askRestore n
    else if ad = false ∧ h.adopt.isSome then (s.setShelf n { h with restore := some (true, 0), restoreImg := none }).askRestore n
    else s.shelfUp n true

/-- An image whose seal fails counts as a mirror fault (R59). -/
def State.restoreBad (s : State) (n : Nat) : State := (ledRun s [.fault n false]).nextRestore n

/-- A line has been read: an image, then the seal record that vouches for it. -/
def State.restoreArrived (s : State) (n : Nat) (data : List Byte) : State :=
  let h := s.shelf n
  match h.restore with
  | none => s
  | some (ad, i) =>
    match h.restoreImg with
    | none => (s.setShelf n { h with restoreImg := some data }).askRestore n
    | some img =>
      let r := h.restoreRegion n ad
      let rec_ := slice data (s.fbSeal n r i % 64) 32
      if rec_ = sealRecord h.sealKey (fld (wordIn rec_ 0) 47 0) n (r == n) img then
        (s.setEnt r i { entryOf (toWords 8 img) with prep := false }).nextRestore n
      else s.restoreBad n

/-- The shelf leaves its test: it restores its ledger where its buddy is not active and the fallback region, its mirror target from now
on, is valid; else it is active at once. -/
def State.leaveReset (s : State) (n : Nat) : State :=
  let s := s.modShelf n (fun h => { h with commits := [], vol := [] })
  if s.shelfActive (buddy n) = false ∧ s.fbValid n then
    ((s.modShelf n (fun h => { h with restore := some (false, 0), restoreImg := none })).setMode n .host).askRestore n
  else s.shelfUp n true

end Sys2Proof.Machine
end

