-- ==== Sys2Proof/Machine/RingOps.lean ====
section
/-! DEFINITION. Rows of host rings and of queue registers (R84 to R95, R100, R103). -/

namespace Sys2Proof.Machine

/-! ## SUBMIT slots (R84, R86) -/

/-- The completion ring of a slot: its CRING, or the ring's default (Table 3.5). -/
def slotCring (r : Ring) (slot : List Word) : Nat :=
  if fld (slot.getD 0 0) 31 16 = 0xFFFF then fld (r.word 1) 15 0 else fld (slot.getD 0 0) 31 16

/-- A bad first slot: a SLOTERR completion, and the ring is switched off; a full completion ring makes the ring unit wait. Where its completion
ring is no enabled COMPLETE ring no completion is written (log entry 130). -/
def State.slotError (s : State) (k cause : Nat) (slot : List Word) : State :=
  let r := s.ring k
  let c := slotCring r slot
  match s.reserveSlot c with
  | some (i, t) => (t.writeSlot c i (errSlot (t.ring c) k cause (r.fetched.toNat % 2 ^ 32) i) 0 noEntry).ringOff k
  | none => if (s.ring c).en ∧ (s.ring c).ty = 1 then s else s.ringOff k

/-- A packet as a move unit brings it from its slots: header and payload (Table 3.5). -/
def fetchedBytes (slot : List Word) (rest : List (List Word)) (len : Nat) : List Byte :=
  (fromWords (slot.drop 1) ++ rest.flatMap fromWords).take (32 + len)

def effSubmitSlotFetch (k : Nat) (slot : List Word) (rest : List (List Word)) (dst : Nat) (s : State) : State :=
  let r := s.ring k
  let len := fld (slot.getD 3 0) 13 0
  let ns := fld (slot.getD 0 0) 7 0
  if r.en = false ∨ r.ty ≠ 0 ∨ r.fetched = r.p then s
  else if ns = 0 ∨ ns ≠ nslotOf len then s.slotError k 1 slot
  else if r.size < ns then s.slotError k 2 slot
  else if (s.freeMover r.noticeShelf).isNone then s
  else
    let run : RingRun := { first := r.fetched.toNat, slots := ns, stream := fld (slot.getD 2 0) 15 0, partner := fld (slot.getD 1 0) 35 16,
                           released := cmdClass (fld (slot.getD 1 0) 7 0) != some .ledger }
    let y := { r with fetched := r.fetched + BitVec.ofNat 64 ns, runs := r.runs ++ [run] }
    (s.setRing k (passReleased (y.runs.length + 1) y)).store (shelfAddr r.noticeShelf dst) (fetchedBytes slot rest len)

/-- Words of the slots of a packet that an operand lacks are free values (log entry 126). -/
def State.fitSlots (s : State) (slot : List Word) (rest : List (List Word)) : List Word × List (List Word) :=
  let ns := fld ((s.fitWords 8 slot).getD 0 0) 7 0
  (s.fitWords 8 slot, (List.range (ns - 1)).map (fun i => s.fitWords 8 (rest.getD i [])))

/-- SUBMIT_SLOT_FETCH (R83 to R85, R89): a move unit of the notice queue's shelf brings a packet's slots to the place in shelf memory that the
channel program names. -/
def execSubmitSlotFetch (r : Fin 65536) (slots : SlotFetch) (s : State) : Host.Outcome State Fault Refusal :=
  let f := s.fitSlots slots.first slots.rest
  .next (effSubmitSlotFetch r f.1 f.2 slots.dst.toNat (s.drawnFor 8 slots.first))

/-! ## Doorbells (R88, R89) -/

/-- Advance the index that a doorbell moves (Table 3.6). -/
def State.ringBell (s : State) (k : Nat) (v : Word) : State :=
  let r := s.ring k
  let submit := r.ty == 0
  let x := if submit then r.p else r.c
  let f := if submit then r.size - r.fill else r.fill
  let d := (fld v 31 0 + 2 ^ 32 - x.toNat % 2 ^ 32) % 2 ^ 32
  if d = 0 ∨ 2 ^ 31 ≤ d then s
  else if f < d then s.setRing k { r with ovr := BitVec.ofNat 16 (satAdd 65535 r.ovr.toNat 1) }
  else if submit then (s.setRing k { r with p := r.p + BitVec.ofNat 64 d }).notice k
  else
    let s := s.setRing k { r with c := r.c + BitVec.ofNat 64 d }
    if r.ty = 1 then s.retryRing k else s.rxGo k

def effDoorbell (p : Fin 16) (k : Nat) (v : Word) (s : State) : State :=
  let r := s.ring k
  if s.power.block ≠ .hostReady ∨ r.en = false then s
  else if fld (r.word 1) (48 + p.val) (48 + p.val) = 0 then s.violate (.host p) true (Reg.glDb k).off
  else s.ringBell k v

/-- DOORBELL (R88). -/
def execDoorbell (p : Fin 16) (r : Fin 65536) (v : Word) (s : State) : Host.Outcome State Fault Refusal := .next (effDoorbell p r v s)

def effHeldNoticeCommit (k : Nat) (s : State) : State := if (s.ring k).held.isSome then s.notice k else s

/-- HELD_NOTICE_COMMIT (R89). -/
def execHeldNoticeCommit (r : Fin 65536) (s : State) : Host.Outcome State Fault Refusal := .next (effHeldNoticeCommit r s)

def effRingEventTimer (k : Nat) (s : State) : State := if s.reached (s.ring k).evDue then s.sendRingEvent k else s

/-- RING_EVENT_TIMER (R92). -/
def execRingEventTimer (r : Fin 65536) (s : State) : Host.Outcome State Fault Refusal := .next (effRingEventTimer r s)

/-! ## Ring commands (R95) -/

/-- Report a ring command in GL_RINGSTAT: RESULT 0 OK, 1 BADDESC, 2 STATE, 3 NOTAB (Table 3.12). OVR of the ring is read at each access. -/
def State.ringStat (s : State) (k result : Nat) : State :=
  wrReg s .glRingstat (place 62 60 result ||| bitIf 48 (s.ring k).en ||| place 47 32 k)

/-- The GL_RINGCMD value of a command. -/
def ringCmd (op k : Nat) : Word := place 63 60 op ||| place 15 0 k

/-- A command runs, so that a write of GL_RINGCMD is ignored (Table 3.12). -/
def State.ringBusy (s : State) : Bool := getB s .glRingstat 63

/-- ENABLE reads the descriptor of ring `k` at BASE of GL_RINGTAB + 64 * k and is busy until it has it (R93). -/
def State.ringEnable (s : State) (k : Nat) : State :=
  if getB s .glRingtab 0 = false then s.ringStat k 3
  else (wrReg s .glRingstat (bitIf 63 true ||| place 47 32 k)).readTable (.ringDesc k) (getF s .glRingtab 51 22 * 2 ^ 22 + 64 * k)

/-- The descriptor that an ENABLE waits for has been read (R95); one that the host cannot give counts as BADDESC (log entry 130). -/
def State.ringDescArrived (s : State) (k : Nat) (desc : List Word) : State :=
  if s.ringBusy = false ∨ getF s .glRingstat 47 32 ≠ k then s
  else if badDesc desc then s.ringStat k 1
  else if (s.ring k).en then s.ringStat k 2
  else (s.setRing k { en := true, desc := desc }).ringStat k 0

/-- A ledger entry that is not RETIRED names the ring as SRING or CRING. -/
def State.ringNamed (s : State) (k : Nat) : Bool :=
  (List.range 64).any (fun u => (s.ledRegions u).any (fun r => (s.region r).any (fun e =>
    e.2.st != .retired && (e.2.sring.toNat == k || e.2.cring.toNat == k))))

/-- DISABLE; of a ring that is not enabled it answers OK (log entry 130). -/
def State.ringDisable (s : State) (k : Nat) : State :=
  if s.ringNamed k then s.ringStat k 2 else (s.ringOff k).ringStat k 0

/-- FLUSH; of a SUBMIT ring that is not enabled it answers STATE (log entry 130). -/
def State.ringFlush (s : State) (k : Nat) : State :=
  let r := s.ring k
  if r.en = false ∨ r.ty ≠ 0 then s.ringStat k 2
  else (s.setRing k { r with c := r.p, fetched := r.p, runs := [] }).ringStat k 0

def State.ringQuery (s : State) (k : Nat) : State :=
  let r := s.ring k
  (wrReg s .glRingidx (place 63 32 r.p.toNat ||| place 31 0 r.c.toNat)).ringStat k 0

/-- A write of GL_RINGCMD (Table 3.11). -/
def State.writeRingcmd (s : State) (v : Word) : State :=
  let k := fld v 15 0
  if s.ringBusy then s
  else match fld v 63 60 with
    | 1 => s.ringEnable k
    | 2 => s.ringDisable k
    | 3 => s.ringFlush k
    | 4 => s.ringQuery k
    | _ => s

/-- A ring command of a party. -/
def effRingCmd (who : Party) (op k : Nat) (s : State) : State := s.gateWrite who .glRingcmd (ringCmd op k) (fun s => s.writeRingcmd (ringCmd op k))

/-- RING_ENABLE (R93, R95): `reserved` is bits 59:16 of the word written, which are ignored (Table 3.11). -/
def execRingEnable (who : Party) (r : Fin 65536) (reserved : BitVec 44) (s : State) : Host.Outcome State Fault Refusal :=
  .next (s.gateWrite who .glRingcmd (ringCmd 1 r ||| place 59 16 reserved.toNat) (fun s => s.writeRingcmd (ringCmd 1 r ||| place 59 16 reserved.toNat)))

/-- RING_DISABLE (R95). -/
def execRingDisable (who : Party) (r : Fin 65536) (s : State) : Host.Outcome State Fault Refusal := .next (effRingCmd who 2 r s)

/-- RING_FLUSH (R95). -/
def execRingFlush (who : Party) (r : Fin 65536) (s : State) : Host.Outcome State Fault Refusal := .next (effRingCmd who 3 r s)

/-- RING_QUERY (R94). -/
def execRingQuery (who : Party) (r : Fin 65536) (s : State) : Host.Outcome State Fault Refusal := .next (effRingCmd who 4 r s)

/-- Some ring is enabled. -/
def State.anyRing (s : State) : Bool := s.rings.any (fun e => e.2.en)

def State.writeRingtab (s : State) (v : Word) : State := if s.anyRing then s else s.plainWrite .glRingtab v

def effGlRingtabWrite (who : Party) (v : Word) (s : State) : State := s.gateWrite who .glRingtab v (fun s => s.writeRingtab v)

/-- GL_RINGTAB_WRITE (R94). -/
def execGlRingtabWrite (who : Party) (v : Word) (s : State) : Host.Outcome State Fault Refusal := .next (effGlRingtabWrite who v s)

/-! ## Queue registers (R100, R103) -/

def State.writeQflush (s : State) (n : Nat) (v : Word) (merged : Bool) : State :=
  let q := fld v 9 0
  if bitAt v 63 && !s.qAbsent n q then s.qFlush n q merged else s

def effShQflush (who : Party) (n : Nat) (v : Word) (merged : Bool) (s : State) : State :=
  s.gateWrite who (.shQflush n) v (fun s => s.writeQflush n v merged)

/-- SH_QFLUSH (R100); two flushes of a queue in the same ic count once (Table 3.17). -/
def execShQflush (who : Party) (n : Fin 64) (w : QflushWrite) (s : State) : Host.Outcome State Fault Refusal :=
  .next (effShQflush who n w.v w.merged s)

/-- The fields of a queue configuration hold values in their ranges and its buffer lies in the general region (R103). -/
def qcfgOk (w : Word) : Bool :=
  let d := fld w 62 52
  let m := fld w 51 43
  let g := fld w 42 38
  decide (2 ≤ d ∧ d ≤ 1024 ∧ 1 ≤ m ∧ m ≤ 258 ∧ 1 ≤ g ∧ g ≤ 16) && decide (0xC0000 ≤ fld w 15 0 * 32 ∧ (fld w 15 0 + (d + g) * m) * 32 ≤ 0x200000)

def State.writeQcfg (s : State) (n q : Nat) (v : Word) : State :=
  let r := Reg.shQcfg n q
  let old := rdReg s r
  let new := regWrite r.fields v (BitVec.allOnes 64) old
  if bitAt old 63 then
    if bitAt new 63 then s else (wrReg s r new).modQueue n q Queue.close
  else if bitAt new 63 && !qcfgOk new then wrReg s r (setFld new 63 63 0)
  else wrReg s r new

def effShQcfgWrite (who : Party) (n q : Nat) (v : Word) (s : State) : State := s.gateWrite who (.shQcfg n q) v (fun s => s.writeQcfg n q v)

/-- SH_QCFG_WRITE (R103). -/
def execShQcfgWrite (who : Party) (n : Fin 64) (q : Fin 1024) (v : Word) (s : State) : Host.Outcome State Fault Refusal :=
  .next (effShQcfgWrite who n q v s)

/-! ## Ledger registers (R70) -/

def State.writeLedfb (s : State) (n : Nat) (v : Word) : State :=
  let m := (s.shelf n).mode
  if m = .host ∨ m = .resync then s
  else
    let was := s.fbValid n
    let s := s.plainWrite (.shLedfb n) v
    if was = false ∧ s.fbValid n = true then
      let s := match (s.shelf n).adopt with | some r => if m = .none then s else (s.copyRegion n r).1 | none => s
      if m = .none then (s.relaunch n).startResync n false else s
    else s

def effShLedfbWrite (who : Party) (n : Nat) (v : Word) (s : State) : State := s.gateWrite who (.shLedfb n) v (fun s => s.writeLedfb n v)

/-- SH_LEDFB_WRITE (R59, R66, R70). -/
def execShLedfbWrite (who : Party) (n : Fin 64) (v : Word) (s : State) : Host.Outcome State Fault Refusal := .next (effShLedfbWrite who n v s)

def effShLedcfgWrite (who : Party) (n : Nat) (v : Word) (s : State) : State :=
  s.gateWrite who (.shLedcfg n) v (fun s => s.plainWrite (.shLedcfg n) v)

/-- SH_LEDCFG_WRITE (R70): timers that run keep their due times. -/
def execShLedcfgWrite (who : Party) (n : Fin 64) (v : Word) (s : State) : Host.Outcome State Fault Refusal := .next (effShLedcfgWrite who n v s)

end Sys2Proof.Machine
end

