-- ==== Sys2Proof/Machine/HostPorts.lean ====
section
/-! DEFINITION. Host ports: answers of the home, recalls, evictions, errors, the line map, grants, flushes (R317 to R335, R425). -/

namespace Sys2Proof.Machine

/-! ## Store errors (R178) -/

/-- Record a store that its target refused: CAUSE as in Table 6.14. -/
def State.storeError (s : State) (k cause : Nat) (e : StoreEnt) : State :=
  let s := if (s.ctx k e.store).ctx = e.ctx then s.modCtx k e.store (fun x => { x with storeErrs := x.storeErrs + 1 }) else s
  let c := s.core k
  match (List.range 4).find? (fun i => !(tget {} c.sel i).valid) with
  | some i => (s.setCore k { c with
      sel := tset {} c.sel i { valid := true, cause := BitVec.ofNat 4 cause, ctx := e.ctx, addr := e.va } }).sampleStoreErr k
  | none => s.setCore k { c with selOvf := true, selLost := BitVec.ofNat 16 (satAdd 65535 c.selLost.toNat 1) }

/-- The oldest entry of the store buffer leaves with an error. -/
def State.dropStore (s : State) (k cause : Nat) : State :=
  match (s.core k).sbuf with
  | e :: t => (s.modCore k (fun c => { c with sbuf := t })).storeError k cause e
  | [] => s

/-- The first entry of the store buffer whose bytes lie in the host line leaves with an error. -/
def State.dropLine (s : State) (k line cause : Nat) : State :=
  let hit := fun (e : StoreEnt) => match e.block with | .host a => a / 64 == line | _ => false
  match (s.core k).sbuf.find? hit with
  | some e => (s.modCore k (fun c => { c with sbuf := dropFirst hit c.sbuf })).storeError k cause e
  | none => s

/-! ## Tagged operations that reach host memory -/

/-- The value of a load: zero-extended or sign-extended (R167). -/
def loadVal (size : Nat) (signed : Bool) (b : List Byte) : Word :=
  let v := BitVec.ofNat 64 (leNat (b.take size))
  if signed then sext (8 * size) v else v

/-- The word that an atomic stores over `old`; none where it stores nothing (R215). -/
def TagOp.newWord (op : TagOp) (old : Word) : Option Word :=
  match op with
  | .cas e n => if old = e then some n else none
  | .aadd v => some (old + v)
  | .aor v => some (old ||| v)
  | .aand v => some (old &&& v)
  | _ => none

/-- The record of a tag reference that is still in use and has no result. -/
def State.openRec (s : State) (t : TagRef) : Option TagRec :=
  match alook t.tag (s.ctx t.core t.store).tags with
  | some d => if d.gen = t.gen ∧ d.res.isNone then some d else none
  | none => none

/-- Change the record of a tag. -/
def State.modTag (s : State) (t : TagRef) (f : TagRec → TagRec) : State :=
  s.modCtx t.core t.store (fun x => { x with tags := x.tags.map (fun (e : Nat × TagRec) => if e.1 = t.tag then (e.1, f e.2) else e) })

/-- First byte that a tag's operation reaches. -/
def TagRec.at_ (d : TagRec) : Nat := (d.parts.headD (0, 0)).1

/-- An atomic on a word of host memory: its line is owned first, and the write is checked with the issuer's VMID (R215, R321, R330). -/
def State.tagAtomic (s : State) (t : TagRef) (d : TagRec) : State :=
  let a := d.at_
  let p := s.servingPort (a / 64)
  if !s.ownedLine (a / 64) then s.askOwn (.tag t) (a / 64)
  else
    let old := bytesWord ((s.hostBytes a 8).getD [])
    match d.op.newWord old with
    | none => s.tagDone t (.value old 0)
    | some w =>
      match s.checkWrite p none (some d.vmid) a 8 with
      | .pass _ => ((s.clearHostTags a 8).writeOwned a (wordBytes w)).tagDone t (.value old 0)
      | .fail => (s.refuse p 3 a none).tagDone t (.poison 1)
      | .fetch i => s.fetchGrant p i

/-- A capability whose 16 bytes are at hand: it returns once its tag is. -/
def State.tagCap (s : State) (t : TagRef) (a : Nat) (w0 w1 : Word) : State :=
  match s.hostTag a with
  | some g => s.tagDone t (.cap (capOfWords w0 w1 g))
  | none => (s.modTag t (fun d => { d with op := .ldcData w0 w1 })).askHost (s.tagSpot a).1 1 (.tag t)

/-- Try to complete a tagged operation with the lines that the ports hold, and ask for what is missing. -/
def State.tagTry (s : State) (t : TagRef) : State :=
  match s.openRec t with
  | none => s
  | some d =>
    let ask := fun (s : State) => d.parts.foldl (fun s p => s.askHost p.1 p.2 (.tag t)) s
    match d.op with
    | .ldcData w0 w1 => s.tagCap t d.at_ w0 w1
    | .load n sg =>
      if d.se then s
      else match s.partsBytes d.parts with
        | some b => s.tagDone t (.value (loadVal n sg b) 0)
        | none => ask s
    | .ldc =>
      if d.se then s
      else match s.partsBytes d.parts with
        | some b => s.tagCap t d.at_ (wordIn b 0) (wordIn b 8)
        | none => ask s
    | .cas _ _ => if d.se then s else s.tagAtomic t d
    | .aadd _ => if d.se then s else s.tagAtomic t d
    | .aor _ => if d.se then s else s.tagAtomic t d
    | .aand _ => if d.se then s else s.tagAtomic t d
    | _ => s

/-- The data of a READ-THROUGH reaches a tag: an entry that a PROBE reads, or an access to an SE page. -/
def State.tagData (s : State) (t : TagRef) (data : List Byte) : State :=
  match s.openRec t with
  | none => s
  | some d =>
    let a := d.at_
    let b := data.drop (a % 64)
    match d.op with
    | .probe st lv =>
      let q := s.probeDone t.core t.store st lv a (bytesWord b)
      q.1.tagDone t q.2
    | .load n sg => s.tagDone t (.value (loadVal n sg b) 0)
    | .ldc => s.tagCap t a (wordIn b 0) (wordIn b 8)
    | op =>
      let old := bytesWord b
      match op.newWord old with
      | none => s.tagDone t (.value old 0)
      | some w =>
        ((s.modTag t (fun d => { d with op := .hold old })).clearHostTags a 8).request (s.servingPort (a / 64))
          { op := .putMasked, line := a / 64, se := true, who := .tag t,
            data := padTo 64 (List.replicate (a % 64) 0 ++ wordBytes w), be := beRange (a % 64) (a % 64 + 8) }

/-- Tags of every context whose operation reaches host memory. -/
def State.hostTags (s : State) : List TagRef :=
  s.ctxs.flatMap (fun e => (e.2.tags.filter (fun d => d.2.res.isNone && d.2.parts != [])).map (fun d =>
    { core := e.1 / 16, store := e.1 % 16, tag := d.1, gen := d.2.gen }))

/-- Try every such tag again. -/
def State.kickTags (s : State) : State := foldS s.hostTags (fun s t => s.tagTry t) s

/-! ## Completion of writes -/

/-- The host port has completed the oldest open write of slot `i` of ring `k`. -/
def State.slotAcked (s : State) (k i : Nat) : State :=
  { s with slotWrites := (s.slotWrites.foldl (fun (a : List SlotWrite × Bool) w =>
      if !a.2 && w.ring == k && w.index == i && !w.acked then (a.1 ++ [{ w with acked := true }], true) else (a.1 ++ [w], a.2)) ([], false)).1 }

/-- A write has completed on behalf of `who` (R51, R55, R87, R326). -/
def State.writeDone (s : State) (who : HostWho) : State :=
  match who with
  | .slot k i => (s.slotAcked k i).rxDone k i
  | .ledger u id => if id = resyncId then s else ledRun (s.answered u id 1000) [.pump u]
  | .tag t =>
    match s.openRec t with
    | some d => (match d.op with | .hold v => s.tagDone t (.value v 0) | _ => s.tagTry t)
    | none => s
  | .store k => s.modCore k (fun c => match c.sbuf with | e :: t => if e.sent then { c with sbuf := t } else c | [] => c)
  | _ => s

/-- A payload write of a move unit was refused: the packet failed an authority check, and its stream closes (R60, Table 13.8). -/
def State.payloadDenied (s : State) (u m : Nat) : State :=
  match (tget {} (s.shelf u).movers m).entry with
  | some (r, i) =>
    let e := s.ent r i
    (match s.findStream u false e.partner.toNat e.localEp.toNat e.stream.toNat with
      | some (rr, ri) => if e.role = .target ∧ e.st = .opened then ledRun s [.deny u rr ri] else s
      | none => s)
  | none => s

/-- A write has failed the grant check after it waited for its entry (Table 13.8). -/
def State.writeRefused (s : State) (who : HostWho) : State :=
  match who with
  | .slot k _ => s.ringOff k
  | .event k => s.ringOff k
  | .ledger u id => ledRun (s.answered u id 1000) [.fbFault u]
  | .payload u m => s.payloadDenied u m
  | .snapshot => s.modSys (fun y => { y with snapRefused := true })
  | .logMirror => (setB s .wdLogmir 63 false).logLocal (s.logOf 3 0 1 0 0)
  | _ => s

/-- The home has answered a write with ERR-DATA or ERR-ADDR (R327). -/
def State.writeFailed (s : State) (who : HostWho) (cause : Nat) : State :=
  match who with
  | .ledger u id => ledRun (s.answered u id 1000) [.fbFault u]
  | .snapshot => s.modSys (fun y => { y with snapRefused := true })
  | .tag t => s.tagDone t (.poison cause)
  | .store k => s.dropStore k cause
  | w => s.writeDone w

/-- CAUSE of a STATUS (R327). -/
def statusCause (st : BitVec 2) : Nat := if st = 2 then 3 else 5

/-! ## Acquired lines -/

/-- A line that a request needed is in the port: masks and data are merged, waiting readers go on. -/
def State.acquired (s : State) (p : Nat) (r : HostReq) : State :=
  if r.who = .tagTable then
    match alook r.line (s.port p).lines with
    | some l => s.putLine p r.line { st := .M, data := maskLine l.data r.data }
    | none => s
  else if r.be ≠ 0 then (s.mergeLine p r.line r.data r.be).writeDone r.who
  else match r.who with
    | .tag t => s.tagTry t
    | _ => s

/-- Room in the set is made for a line that is then asked for. -/
def State.requestLine (s : State) (p : Nat) (r : HostReq) : State := ((s.makeRoom p r.line).getD s).request p r

/-- A request that waited is tried again: the line may have come or gone. -/
def State.replay (s : State) (p : Nat) (r : HostReq) : State :=
  let st := (s.port p).lineSt r.line
  let owned := st == .M || st == .E
  match r.op with
  | .acqShare => if st = .I then s.requestLine p r else s.acquired p r
  | .acqOwn | .acqRaise =>
    if owned then s.acquired p r
    else if st = .I then s.requestLine p { r with op := .acqOwn }
    else s.request p { r with op := .acqRaise }
  | .putLine | .putMasked =>
    if r.se then s.request p r
    else if owned then s.acquired p r
    else if st = .I then s.request p r
    else s.request p { r with op := .acqRaise }
  | _ => s.request p r

/-- Try the requests of a port that wait. -/
def State.kickPort (s : State) (p : Nat) : State :=
  let ws := (s.port p).reqs.filter (fun e => rqWaiting ≤ e.1)
  foldS ws (fun s e => (s.modPort p (fun x => { x with reqs := x.reqs.filter (fun o => o.1 ≠ e.1) })).replay p e.2) s

/-- Forget an answered request. -/
def State.dropReq (s : State) (p t : Nat) : State := s.modPort p (fun x => { x with reqs := adel t x.reqs })

/-! ## Flushes (R320, Table 13.15) -/

/-- Write back what a flush still has to, as far as the write-back buffer has room. -/
def State.flushMore (s : State) (p : Nat) : State :=
  foldS (s.port p).flushLeft (fun s l =>
    let x := s.port p
    match alook l x.lines with
    | some y =>
      if !lineDirty y.st then s.setPort p { x with lines := adel l x.lines, flushLeft := x.flushLeft.erase l }
      else if x.wbuf.length < 32 ∧ (alook l x.wbuf).isNone then
        (s.setPort p { x with lines := adel l x.lines, wbuf := x.wbuf ++ [(l, y.data)] }).request p
          { op := .evictDirty, line := l, se := false, who := .evict, data := y.data, be := BitVec.allOnes 64 }
      else s
    | none => if (alook l x.wbuf).isSome then s else s.setPort p { x with flushLeft := x.flushLeft.erase l }) s

/-- Start a flush: clean lines go at once. -/
def State.startFlush (s : State) (p : Nat) : State :=
  (s.modPort p (fun x => { x with
    lines := x.lines.filter (fun e => lineDirty e.2.st)
    flushLeft := (x.lines.filter (fun e => lineDirty e.2.st)).map (·.1) ++ x.wbuf.map (·.1) })).flushMore p

/-- A write of HP_CTL. -/
def State.writeHpctl (s : State) (p : Nat) (v : Word) : State :=
  if bitAt v 63 && !getB s (.hpCtl p) 62 then (setB s (.hpCtl p) 62 true).startFlush p else s

def effPortCacheFlush (who : Party) (p : Nat) (v : Word) (s : State) : State := s.gateWrite who (.hpCtl p) v (fun s => s.writeHpctl p v)

/-- PORT_CACHE_FLUSH (R336). -/
def execPortCacheFlush (who : Party) (p : Fin 16) (v : Word) (s : State) : Host.Outcome State Fault Refusal :=
  .next (effPortCacheFlush who p.val v s)

def effPortCacheFlushDone (p : Nat) (s : State) : State :=
  if getB s (.hpCtl p) 62 && (s.port p).flushLeft.isEmpty then setB s (.hpCtl p) 62 false else s

/-- PORT_CACHE_FLUSH_DONE (R336). -/
def execPortCacheFlushDone (p : Fin 16) (s : State) : Host.Outcome State Fault Refusal := .next (effPortCacheFlushDone p.val s)

/-! ## Recalls (R322 to R324) -/

/-- Send the answer of a recall and leave the line as Table 13.4 says. -/
def State.answerRecall (s : State) (p line : Nat) (own : Bool) (rctag : BitVec 8) : State :=
  let x := s.port p
  match alook line x.lines with
  | some l =>
    let gone := s.setPort p { x with lines := adel line x.lines }
    if lineDirty l.st then
      if own then gone.sendMsg p (.datRecall rctag l.data true false false)
      else (s.setPort p { x with lines := x.lines.map (fun e => if e.1 = line then (line, { l with st := .O }) else e) }).sendMsg p
        (.datRecall rctag l.data true true false)
    else if own then gone.sendMsg p (.ansNone rctag)
    else (s.setPort p { x with lines := x.lines.map (fun e => if e.1 = line then (line, { l with st := .S }) else e) }).sendMsg p (.ansKept rctag)
  | none =>
    match alook line x.wbuf with
    | some d => (bumpF s (.hpCnt p) 31 16 1).sendMsg p (.datRecall rctag d true false true)
    | none => s.sendMsg p (.ansNone rctag)

/-- A fill of the line is outstanding, or an earlier recall of it is held (R323). -/
def Port.holdsRecall (p : Port) (line : Nat) : Bool :=
  p.reqs.any (fun e => decide (e.1 < rqWaiting) && e.2.line == line && (e.2.op == .acqShare || e.2.op == .acqOwn))
    || p.heldRecalls.any (fun h => h.line == line)

def effRecall (p : Nat) (addr : BitVec 46) (own : Bool) (rctag : BitVec 8) (s : State) : State :=
  if s.power.block = .hostReady then
    if (s.port p).holdsRecall addr.toNat then
      s.modPort p (fun x => { x with heldRecalls := x.heldRecalls ++ [{ line := addr.toNat, own := own, rctag := rctag }] })
    else s.answerRecall p addr.toNat own rctag
  else if s.power.block = .unpowered then s
  else s.emit (.host p (.ansNone rctag))

/-- RECALL_SHARE (R322). -/
def execRecallShare (p : Fin 16) (addr : BitVec 46) (rctag : BitVec 8) (s : State) : Host.Outcome State Fault Refusal :=
  .next (effRecall p.val addr false rctag s)

/-- RECALL_OWN (R322). -/
def execRecallOwn (p : Fin 16) (addr : BitVec 46) (rctag : BitVec 8) (s : State) : Host.Outcome State Fault Refusal :=
  .next (effRecall p.val addr true rctag s)

/-- Answer the recalls that a fill held, in arrival order. -/
def State.answerHeld (s : State) (p line : Nat) : State :=
  let hs := (s.port p).heldRecalls.filter (fun h => h.line == line)
  let s := s.modPort p (fun x => { x with heldRecalls := x.heldRecalls.filter (fun h => h.line ≠ line) })
  foldS hs (fun s h => s.answerRecall p line h.own h.rctag) s

/-! ## Fills -/

/-- The place of a slot that a spill engine reads back next is in the line of a failed read: the slot is poisoned (R173, R327). -/
def State.badFill (s : State) (k r line : Nat) : State :=
  let x := s.ctx k r
  if x.stacked = 0 then s
  else match s.stackPlace k x .fill (x.sp.toNat - 8) with
    | some (.host a, ea) =>
      if a / 64 = line then s.modCtx k r (fun y => { y with ring := y.ring ++ [badSlot x ea], sp := y.sp - 8 }) else s
    | _ => s

/-- A context move whose TSB cannot be read ends with BADTSB, and its store is free. -/
def State.badLoad (s : State) (k r line : Nat) : State :=
  match (s.cores.find? (fun e => match e.2.mov with
      | some m => m.core == k && m.store == r && m.src.any (fun q => match q.1 with | .host a => (hostLines a q.2).contains line | _ => false)
      | none => false)) with
  | some (j, c) =>
    if (s.ctx k r).st = .loading then (s.setCtx k r {}).cmdEnds j rBadTsb ((c.mov.map (fun m => m.ctx.toNat)).getD 0) else s
  | none => s

/-- An instruction that reads host memory without a tag, and waits for it, meets the error. -/
def State.badRead (s : State) (k r line cause : Nat) : State :=
  s.modCtx k r (fun x =>
    if x.wait = some .host then { x with readBad := some (line, cause), seRead := none } else x)

/-- Writes that waited for a grant entry are checked again. -/
def State.retryWaits (s : State) (p : Nat) : State :=
  let ws := (s.port p).grantWait
  foldS ws (fun s w =>
    if w.who = .tagTable then s.putTagMask w.addr w.data
    else
      let t := s.hostWrite w.who w.src w.ref w.vmid w.addr w.data (bitAt w.be 0)
      match t.2 with
      | .refused => t.1.writeRefused w.who
      | .done => t.1.writeDone w.who
      | .wait => t.1) (s.modPort p (fun x => { x with grantWait := [] }))

/-- A grant entry has been read. -/
def State.grantArrived (s : State) (p idx : Nat) (entry : List Word) : State :=
  if (s.port p).grantFetch.contains idx then
    ((((s.readEnds (.grant p idx)).modPort p (fun x => { x with grantFetch := x.grantFetch.erase idx, grants := aput idx entry x.grants })).retryWaits p)).kickTags
  else s

/-- The home could not read the line: what waits for it meets an uncorrectable error (R327). -/
def State.fillFailed (s : State) (r : HostReq) (cause : Nat) : State :=
  match r.who with
  | .tag t => s.tagDone t (.poison cause)
  | .store k => s.dropLine k r.line cause
  | .code k => s.modCore k (fun c => { c with fetchMiss := none, fetchBad := some (2 ^ 60 + r.line, cause) })
  | .pte k => s.modCore k (fun c => { c with tlb := (match c.adWait with | some w => adel w.1 c.tlb | none => c.tlb), adWait := none })
  | .spill k i => ((s.badFill k i r.line).badLoad k i r.line).badRead k i r.line cause
  | .debugger => (s.modVexek (fun v => { v with readData := if v.pendingRead.isSome then some s.free else none })).drawn
  | .restore n => s.restoreBad n
  | .partner n pid => effPartnerFetchDone n (BitVec.ofNat 20 pid) 0 s
  | .grant p i => s.grantArrived p i [0, 0, 0, 0]
  | .ringDesc k => s.ringDescArrived k (List.replicate 8 0)
  | .keyRecord _ => s.keyLineFailed
  | w => if r.be ≠ 0 then s.writeFailed w cause else s

/-- The data of a READ-THROUGH. -/
def State.readArrived (s : State) (r : HostReq) (data : List Byte) : State :=
  match r.who with
  | .tag t => s.tagData t data
  | .spill k i => s.modCtx k i (fun x =>
      match x.seRead with
      | some (a, none) => { x with seRead := some (a, some (data.drop (a % 64))) }
      | _ => x)
  | .debugger => s.modVexek (fun v => { v with readData := if v.pendingRead.isSome then some (wordIn data r.off) else none })
  | .restore n => s.restoreArrived n data
  | .partner n pid => effPartnerFetchDone n (BitVec.ofNat 20 pid) (wordIn data r.off) s
  | .grant p i => s.grantArrived p i ((List.range 4).map (fun k => wordIn data (r.off + 8 * k)))
  | .ringDesc k => s.ringDescArrived k ((List.range 8).map (fun i => wordIn data (8 * i)))
  | .keyRecord i => s.keyLineArrived i data
  | _ => s

/-- A request that a fill answers. -/
def HostOp.filled : HostOp → Bool
  | .acqShare | .acqOwn | .readThrough => true
  | _ => false

def effDatFill (p t : Nat) (st : LineState) (status : BitVec 2) (poison : Bool) (data : List Byte) (s : State) : State :=
  match alook t (s.port p).reqs with
  | none => s
  | some r =>
    if !r.op.filled then s
    else
      let s := s.dropReq p t
      let s := if status ≠ 0 then bumpF s (.hpCnt p) 47 32 1 else s
      let s := if status ≠ 0 ∨ poison = true then s.fillFailed r (statusCause status)
        else if r.op = .readThrough then s.readArrived r data
        else (s.putLine p r.line { st := st, data := data }).acquired p r
      let s := (s.answerHeld p r.line).kickPort p
      if s.hpmapNew.isSome then s.startFlush p else s.flushMore p

/-- DAT_FILL (R318, R327). Data that the home marks as poisoned is taken as ERR-DATA is, uncounted (log entry 35). -/
def execDatFill (p : Fin 16) (rqtag : BitVec 10) (state : LineState) (status : BitVec 2) (poison : Bool) (data : List Byte) (s : State) :
    Host.Outcome State Fault Refusal :=
  .next (effDatFill p.val rqtag.toNat state status poison (s.fit 64 data) (s.drawnFor 64 data))

/-! ## Completions -/

/-- The completion of an ACQ-RAISE: the state that the home gives, or ACQ-OWN in its place where the line has gone (R323). -/
def State.raised (s : State) (p : Nat) (r : HostReq) (st : LineState) : State :=
  match alook r.line (s.port p).lines with
  | some l =>
    if st = .I then (s.modPort p (fun x => { x with lines := adel r.line x.lines })).requestLine p { r with op := .acqOwn }
    else (s.putLine p r.line { l with st := st }).acquired p r
  | none => s.requestLine p { r with op := .acqOwn }

def effAnsDone (p t : Nat) (st : LineState) (status : BitVec 2) (s : State) : State :=
  match alook t (s.port p).reqs with
  | none => s
  | some r =>
    match r.op with
    | .acqRaise | .putLine | .putMasked =>
      let s := s.dropReq p t
      let s := if status ≠ 0 then bumpF s (.hpCnt p) 47 32 1 else s
      let s := if status ≠ 0 then (if r.be ≠ 0 then s.writeFailed r.who (statusCause status) else s.fillFailed r (statusCause status))
        else if r.op = .acqRaise then s.raised p r st
        else s.writeDone r.who
      s.kickPort p
    | _ => s

/-- ANS_DONE (R318). -/
def execAnsDone (p : Fin 16) (rqtag : BitVec 10) (state : LineState) (status : BitVec 2) (s : State) : Host.Outcome State Fault Refusal :=
  .next (effAnsDone p.val rqtag.toNat state status s)

def effAnsEvict (p t : Nat) (s : State) : State :=
  match alook t (s.port p).reqs with
  | none => s
  | some r =>
    if r.op = .evictDirty then
      (((s.dropReq p t).modPort p (fun x => { x with wbuf := adel r.line x.wbuf, flushLeft := x.flushLeft.erase r.line })).kickPort p).kickTags.flushMore p
    else s

/-- ANS_EVICT (R324). -/
def execAnsEvict (p : Fin 16) (rqtag : BitVec 10) (s : State) : Host.Outcome State Fault Refusal := .next (effAnsEvict p.val rqtag.toNat s)

/-- Opcodes that the home may send (Table 13.2). -/
def homeOpcode (op : BitVec 6) : Bool :=
  op == 0x21 || op == 0x22 || op == 0x28 || op == 0x29 || op == 0x36 || op == 0x37 || op == 0x3A

def effHomeReservedOpcode (p : Nat) (op : BitVec 6) (s : State) : State :=
  if s.power.block = .hostReady ∧ homeOpcode op = false then bumpF s (.hpCnt p) 15 0 1 else s

/-- HOME_RESERVED_OPCODE (R318). -/
def execHomeReservedOpcode (p : Fin 16) (op : BitVec 6) (s : State) : Host.Outcome State Fault Refusal :=
  .next (effHomeReservedOpcode p.val op s)

/-- A bridge has granted one credit (R425). -/
def Port.addCredit (p : Port) : CreditChan → Port
  | .req => { p with reqCr := p.reqCr + 1 }
  | .rspo => { p with rspCr := p.rspCr + 1 }
  | .dato => { p with datCr := p.datCr + 1 }

def effCreditGrant (p : Nat) (ch : CreditChan) (s : State) : State :=
  if s.power.block = .hostReady ∨ s.power.block = .mgmtReady then (s.modPort p (fun x => x.addCredit ch)).pump p else s

/-- CREDIT_GRANT (R425). -/
def execCreditGrant (p : Fin 16) (ch : CreditChan) (s : State) : Host.Outcome State Fault Refusal := .next (effCreditGrant p.val ch s)

/-! ## The line map (R320) -/

/-- A write of GL_HPMAP: new requests are held and every port cache is written back. -/
def State.writeHpmap (s : State) (v : Word) : State :=
  let new := regWrite (Reg.fields .glHpmap) v (BitVec.allOnes 64) (rdReg s .glHpmap)
  foldS (List.range 16) (fun s p => s.startFlush p) { s with hpmapNew := some new }

def effGlHpmapWrite (who : Party) (v : Word) (s : State) : State := s.gateWrite who .glHpmap v (fun s => s.writeHpmap v)

/-- GL_HPMAP_WRITE (R320). -/
def execGlHpmapWrite (who : Party) (v : Word) (s : State) : Host.Outcome State Fault Refusal := .next (effGlHpmapWrite who v s)

/-- Every port cache is empty and no request that was sent is outstanding. -/
def State.portsIdle (s : State) : Bool :=
  s.ports.all (fun e => e.2.lines.isEmpty && e.2.wbuf.isEmpty && e.2.reqs.all (fun r => decide (rqWaiting ≤ r.1)))

/-- Requests that waited go to the serving port of the new map. -/
def State.reroute (s : State) : State :=
  let ws := s.ports.flatMap (fun e => e.2.reqs)
  let s := foldS (s.ports.map (·.1)) (fun s p => s.modPort p (fun x => { x with reqs := [] })) s
  foldS ws (fun s r => s.replay (s.servingPort r.2.line) r.2) s

def effGlHpmapDone (s : State) : State :=
  match s.hpmapNew with
  | some v =>
    if s.portsIdle then
      let rs := s.hpmapReply
      let s := (wrReg { s with hpmapNew := none, hpmapReply := [] } .glHpmap v).reroute
      foldS rs (fun s r => s.sendMsg r.1 (.ctlAck r.2 0)) s
    else s
  | none => s

/-- GL_HPMAP_DONE (R320): the new map is in force and the control write that asked for it is answered. -/
def execGlHpmapDone (s : State) : Host.Outcome State Fault Refusal := .next (effGlHpmapDone s)

/-! ## Grants (R328 to R333) -/

/-- GRANT_FETCH_DONE (R328): the fill of a fetch that is outstanding, with the entry that it brings (log entry 45). -/
def execGrantFetchDone (p : Fin 16) (idx : Fin 16777216) (entry : List Word) (s : State) : Host.Outcome State Fault Refusal :=
  .next ((s.drawnFor 4 entry).grantArrived p.val idx.val (s.fitWords 4 entry))

/-- Load the window grants into every port, or drop every entry (R330, Table 13.13). -/
def State.loadWindows (s : State) : State :=
  foldS (List.range 16) (fun s p => foldS (List.range 64) (fun s i => s.fetchGrant p i) s) s
def State.dropGrants (s : State) : State :=
  foldS (List.range 16) (fun s p =>
    let s := foldS (s.port p).grantFetch (fun s i => s.forgetFetch p i) s
    (s.modPort p (fun x => { x with grants := [] })).retryWaits p) s

/-- A write of GL_GRANT: while VALID is 1 only one that clears VALID acts. -/
def State.writeGrant (s : State) (v : Word) : State :=
  let was := getB s .glGrant 63
  if was && bitAt v 63 then s
  else
    let s := s.plainWrite .glGrant v
    if was then s.dropGrants.kickTags else if getB s .glGrant 63 then s.loadWindows else s

def effGlGrantWrite (who : Party) (v : Word) (s : State) : State := s.gateWrite who .glGrant v (fun s => s.writeGrant v)

/-- GL_GRANT_WRITE (Table 13.13). -/
def execGlGrantWrite (who : Party) (v : Word) (s : State) : Host.Outcome State Fault Refusal := .next (effGlGrantWrite who v s)

/-- A write of GL_GRINV: every port drops the entry, one still on its way too; a window grant, and one that a write waits for, is read afresh.
The index stays in the register while BUSY is 1. -/
def State.writeGrinv (s : State) (v : Word) : State :=
  if getB s .glGrinv 62 ∨ bitAt v 63 = false then s
  else
    let i := fld v 23 0
    let s := wrReg s .glGrinv (bitIf 62 true ||| place 23 0 i)
    (foldS (List.range 16) (fun s p =>
      let s := (s.modPort p (fun x => { x with grants := adel i x.grants })).forgetFetch p i
      (if i < 64 ∧ getB s .glGrant 63 = true then s.fetchGrant p i else s).retryWaits p) s).kickTags

def effGlGrinv (who : Party) (v : Word) (s : State) : State := s.gateWrite who .glGrinv v (fun s => s.writeGrinv v)

/-- GL_GRINV (R333). -/
def execGlGrinv (who : Party) (v : Word) (s : State) : Host.Outcome State Fault Refusal := .next (effGlGrinv who v s)

/-- A write that was checked against the entry is outstanding. -/
def State.usesGrant (s : State) (i : Nat) : Bool :=
  s.ports.any (fun e => e.2.reqs.any (fun r => r.2.grant == some i))

def effGlGrinvDone (s : State) : State :=
  if getB s .glGrinv 62 && !s.usesGrant (getF s .glGrinv 23 0) then wrReg s .glGrinv 0 else s

/-- GL_GRINV_DONE (R333). -/
def execGlGrinvDone (s : State) : Host.Outcome State Fault Refusal := .next (effGlGrinvDone s)

end Sys2Proof.Machine
end

