-- ==== Sys2Proof/Machine/Shelves.lean ====
section
/-! DEFINITION. The flue between attachments (R23, R25), shelves declared in reset or retired (R25, R348), and the link-to-shelf switches
(R27 to R30), with their rows. -/

namespace Sys2Proof.Machine

/-! ## What a shelf's going takes with it -/

/-- The owner is a core or a glaze engine of shelf `n`; the other units commit to queues of their own shelf. -/
def QOwner.ofShelf (n : Nat) : QOwner → Bool
  | .ctx k _ => decide (k ≠ wardenKey ∧ keyShelf k = n)
  | .unit u => decide (4096 ≤ u ∧ (u - 4096) / 8 = n)

/-- A halt of a core of shelf `n` ends with the shelf's going (Table 17.7). -/
def State.haltsLost (s : State) (n : Nat) : State :=
  if (List.range 16).any (fun i => (s.core (16 * n + i)).halted || (s.core (16 * n + i)).haltReq) then setB s .vxStat 59 true else s

/-- A pairing hand-over in progress is abandoned with FAIL set (R354, Table 14.5); an SH_DETCFG COMMIT that waits for it ends with it. -/
def State.handoverLost (s : State) (n : Nat) : State :=
  if (s.shelf n).handover.isSome then setB (setB s (.shPaircfg n) 61 true) (.shPaircfg n) 60 false else s

/-- The packets of a link that an engine works on go back before the engines (R29). -/
def Link.outOfEngines (k : Link) : Link := { k with rxFifo := k.rxFifo.map (fun x => { x with eng := none }) }

/-- Shelf `n` is declared in reset or retired: its cores and contexts are lost (R65), its queues end and the staging slots that it held
on other shelves are void (R102), links rehomed to it go down (Table 1.7), and its buddy loses its mirror target (R58). DFCNT of each core
is cleared only by cold start (Table 11.18). -/
def State.shelfLeaves (s : State) (n : Nat) : State :=
  let s := foldS (s.shelf n).rehomed (fun s l => if (s.link l).st = .active then s.linkDown l .detect else s) s
  let s := (s.haltsLost n).handoverLost n
  let s := { s with
    cores := (List.range 16).foldl (fun t i => tset {} t (16 * n + i) (s.core (16 * n + i)).kept) s.cores
    ctxs := dropKeys s.ctxs (256 * n) (256 * n + 256)
    queues := dropKeys s.queues (1024 * n) (1024 * n + 1024)
    evsrcs := dropKeys s.evsrcs (256 * n) (256 * n + 256)
    holdoff := dropKeys s.holdoff (16 * n) (16 * n + 16)
    arrived := s.arrived.filter (fun m => m.dst != attShelf n) }
  let s := s.mapQueues (fun _ q => { q with
    staged := q.staged.filter (fun t => !t.owner.ofShelf n)
    bound := q.bound.filter (fun u => !(QOwner.unit u).ofShelf n)
    waiting := q.waiting.filter (fun u => !(QOwner.unit u).ofShelf n) })
  let s := s.modShelf n (fun h => { h with
    engines := []
    cryptoPool := []
    compPool := []
    blocked := none
    keyCache := []
    keyMiss := []
    partners := []
    fetching := []
    holdList := []
    idleAsked := false
    handover := none
    detWaiting := false
    wedge := none
    movers := [] })
  let s := foldS (s.servedOrder n) (fun s l => s.modLink l Link.outOfEngines) (s.absentHeld n)
  if s.shelfGone (buddy n) then s else s.mirrorLost (buddy n)

/-- The steward declares its shelf retired until cold start: GL_SHELFRET, STEWARD, a log record (R348, R367). -/
def State.retireShelf (s : State) (n : Nat) : State :=
  if s.isRetired n then s
  else
    let status := rdReg s (.shFtstat n)
    let s := { s with retired := s.retired ||| BitVec.ofNat 64 (2 ^ n) }
    (s.shelfLeaves n).reaction n 2 status

def effShelfRetire (n : Nat) (cause : RetireCause) (s : State) : State :=
  if cause = .router then { s with routerBad := s.routerBad ||| BitVec.ofNat 64 (2 ^ n) }.retireShelf n else s.retireShelf n

/-- SHELF_RETIRE (R348): an event of Table 14.4 that no other row holds. A fault of the flue router of shelf 27 also moves the warden's
traffic to its other port (R22). -/
def execShelfRetire (r : Retirement) (s : State) : Host.Outcome State Fault Refusal := .next (effShelfRetire r.shelf.val r.cause s)

/-! ## Flue messages (R23, R25) -/

def effFlueMessage (dst : Attach) (s : State) : State :=
  match s.flueNext dst with
  | none => s
  | some (t, m) =>
    match dst with
    | .shelf n =>
      if t.shelfGone n then
        let u := t.takeFlue m
        { u with returned := u.returned ++ [m] }
      else if (t.shelf n).phase = .gated then t.wakeShelf n
      else
        let u := t.takeFlue m
        { u with arrived := u.arrived ++ [m] }
    | _ =>
      let u := t.takeFlue m
      { u with arrived := u.arrived ++ [m] }

/-- FLUE_MESSAGE (R23, R25): a gated shelf holds the message at its router and wakes; one from a shelf that is gone goes back. -/
def execFlueMessage (dst : Attach) (s : State) : Host.Outcome State Fault Refusal := .next (effFlueMessage dst s)

/-- A unit of a shelf reports a NOT-PRESENT return to its own shelf's steward (R25). -/
def State.reportAbsent (s : State) (src : Attach) : State :=
  match src with
  | .shelf n => s.absentSeen n.val
  | _ => s

def effNotPresent (src : Attach) (s : State) : State :=
  match s.returned.find? (fun m => m.src == src) with
  | none => s
  | some m =>
    let s := ({ s with returned := dropFirst (fun x => x.src == src) s.returned }).reportAbsent src
    match src, m.body with
    | .shelf n, .prepare _ _ => if s.shelfGone n then s else s.mirrorLost n
    | _, _ => s

/-- NOT_PRESENT (R25, R58 step 1). -/
def execNotPresent (src : Attach) (s : State) : Host.Outcome State Fault Refusal := .next (effNotPresent src s)

/-! ## The link-to-shelf switch (R28 to R30) -/

/-- A packet has only partly entered the port. -/
def TxPkt.partly (x : TxPkt) : Bool := decide (0 < x.sent ∧ x.sent < x.bytes.length)

/-- End with the abort marker the packet of each channel that has only partly entered the port (R29, R112). -/
def Link.cutPartial (k : Link) : Link :=
  { k with
    txq := k.txq.filter (fun x => !x.partly)
    abortWanted := k.abortWanted ++ (k.txq.filter TxPkt.partly).map (·.vc) }

/-- Set the switch bit of a link (Table 1.17). -/
def State.setAlt (s : State) (l : Nat) (b : Bool) : State :=
  { s with linkAlt := if b then s.linkAlt ||| BitVec.ofNat 256 (2 ^ l) else s.linkAlt &&& ~~~ BitVec.ofNat 256 (2 ^ l) }

def effLinkRehome (l : Nat) (s : State) : State :=
  let home := l / 4
  let alt := altShelf l
  if s.shelfGone home = false ∨ (s.onAlt l = true ∧ s.shelfGone alt = false) then s
  else if s.shelfGone alt then (if (s.link l).st = .active then s.linkDown l .detect else s)
  else
    let s := ((s.settleServed alt).setAlt l true).modShelf alt (fun h => { h with rehomed := h.rehomed.filter (· ≠ l) ++ [l] })
    (s.modLink l (fun k => { k.cutPartial.outOfEngines with heldOut := [] })).groupReaction (groupOf home) 1 ((s.linkAlt >>> (64 * (l / 64))).setWidth 64)

/-- LINK_REHOME (R28 to R30): the home shelf is gone; with the alternate gone too the link is down. -/
def execLinkRehome (l : Fin 256) (s : State) : Host.Outcome State Fault Refusal := .next (effLinkRehome l s)

def effLinkReturn (l : Nat) (s : State) : State :=
  if s.onAlt l = true ∧ s.shelfActive (l / 4) = true then
    let s := (((s.settleServed (altShelf l)).settleServed (l / 4)).setAlt l false).modShelf (altShelf l) (fun h => { h with rehomed := h.rehomed.filter (· ≠ l) })
    s.modLink l (fun k => k.cutPartial.outOfEngines)
  else s

/-- LINK_RETURN (R30). -/
def execLinkReturn (l : Fin 256) (s : State) : Host.Outcome State Fault Refusal := .next (effLinkReturn l s)

end Sys2Proof.Machine
end

