-- ==== Sys2Proof/Machine/Deflate.lean ====
section
/-! DEFINITION. The decoder of DEFLATE streams as RFC 1951 gives it, with the bounds of R151 (log entry 131). A stream is a list of bits, the
lowest bit of each byte first. -/

namespace Sys2Proof.Machine

/-! ## Bits -/

/-- The bits of a byte string in stream order. -/
def streamBits (l : List Byte) : List Bool := l.flatMap (fun b => (List.range 8).map b.getLsbD)

/-- The number whose lowest bit comes first. -/
def bitsNat : List Bool → Nat
  | [] => 0
  | b :: t => b2n b + 2 * bitsNat t

/-- Take `n` bits as a number. -/
def takeNum (n : Nat) (l : List Bool) : Option (Nat × List Bool) :=
  let h := l.take n
  if h.length = n then some (bitsNat h, l.drop n) else none

/-- Take a list of numbers of `n` bits each. -/
def takeNums (n : Nat) : Nat → List Bool → Option (List Nat × List Bool)
  | 0, l => some ([], l)
  | k + 1, l => do
    let (x, l) ← takeNum n l
    let (t, l) ← takeNums n k l
    return (x :: t, l)

/-- What a decoder has put out, newest byte first, with its length. -/
structure Decoded where
  out : List Byte := []
  len : Nat := 0
  deriving DecidableEq, Repr

/-- The most that a payload may decode to (R151). -/
def plainMax : Nat := 8192

/-- Put a byte out; none beyond the bound. -/
def Decoded.put (d : Decoded) (b : Byte) : Option Decoded := if d.len < plainMax then some { out := b :: d.out, len := d.len + 1 } else none

/-- Put bytes out in order. -/
def Decoded.puts (d : Decoded) : List Byte → Option Decoded
  | [] => some d
  | b :: t => (d.put b).bind (fun d => d.puts t)

/-- Put out `k` bytes that stand `dist` bytes back. -/
def Decoded.copy (d : Decoded) (dist : Nat) : Nat → Option Decoded
  | 0 => some d
  | k + 1 => if dist = 0 ∨ d.len < dist then none else (d.put (d.out.getD (dist - 1) 0)).bind (fun d => d.copy dist k)

/-- The bytes in order. -/
def Decoded.bytes (d : Decoded) : List Byte := d.out.reverse

/-! ## Prefix codes (RFC 1951, 3.2.2) -/

/-- A canonical code: how many codes each length 1, 2, … has, and the symbols in the order of their codes. -/
structure PrefixCode where
  counts : List Nat
  symbols : List Nat
  deriving DecidableEq, Repr

/-- The code of a list of code lengths, symbol 0 first. -/
def codeOf (lengths : List Nat) : PrefixCode :=
  let num := lengths.zipIdx
  { counts := (List.range 15).map (fun n => lengths.count (n + 1))
    symbols := (List.range 15).flatMap (fun n => (num.filter (fun p => p.1 == n + 1)).map (·.2)) }

/-- Codes of the longest length left over; none where the lengths claim too many. -/
def codeSpare : List Nat → Nat → Option Nat
  | [], left => some left
  | n :: t, left => if 2 * left < n then none else codeSpare t (2 * left - n)

/-- The code is complete, or has at most one code, of one bit. -/
def PrefixCode.ok (c : PrefixCode) (single : Bool) : Bool :=
  match codeSpare c.counts 1 with
  | none => false
  | some left => left == 0 || (single && (c.symbols.length == 0 || (c.symbols.length == 1 && c.counts.getD 0 0 == 1)))

/-- Read a symbol: `code`, `first` and `idx` are the bits so far, the first code of this length and the symbols of shorter codes. -/
def readSym (symbols : List Nat) : List Nat → Nat → Nat → Nat → List Bool → Option (Nat × List Bool)
  | [], _, _, _, _ => none
  | _, _, _, _, [] => none
  | n :: t, code, first, idx, b :: l =>
    let code := code + b2n b
    if code < first + n then some (symbols.getD (idx + (code - first)) 0, l)
    else readSym symbols t (2 * code) (2 * (first + n)) (idx + n) l

def PrefixCode.read (c : PrefixCode) (l : List Bool) : Option (Nat × List Bool) := readSym c.symbols c.counts 0 0 0 l

/-! ## Blocks -/

/-- Base and extra bits of the length symbols 257 to 285. -/
def lengthBase : List (Nat × Nat) :=
  [(3, 0), (4, 0), (5, 0), (6, 0), (7, 0), (8, 0), (9, 0), (10, 0), (11, 1), (13, 1), (15, 1), (17, 1), (19, 2), (23, 2), (27, 2), (31, 2),
   (35, 3), (43, 3), (51, 3), (59, 3), (67, 4), (83, 4), (99, 4), (115, 4), (131, 5), (163, 5), (195, 5), (227, 5), (258, 0)]

/-- Base and extra bits of the distance symbols 0 to 29. -/
def distBase : List (Nat × Nat) :=
  [(1, 0), (2, 0), (3, 0), (4, 0), (5, 1), (7, 1), (9, 2), (13, 2), (17, 3), (25, 3), (33, 4), (49, 4), (65, 5), (97, 5), (129, 6), (193, 6),
   (257, 7), (385, 7), (513, 8), (769, 8), (1025, 9), (1537, 9), (2049, 10), (3073, 10), (4097, 11), (6145, 11), (8193, 12), (12289, 12),
   (16385, 13), (24577, 13)]

/-- The symbols of a block up to its end, under a literal code and a distance code; each takes a bit at least. -/
def inflateSyms (lit dist : PrefixCode) : Nat → List Bool → Decoded → Option (List Bool × Decoded)
  | 0, _, _ => none
  | k + 1, l, d => do
    let (y, l) ← lit.read l
    if y = 256 then return (l, d)
    else if y < 256 then inflateSyms lit dist k l (← d.put (byteOf y))
    else
      let (base, extra) ← lengthBase[y - 257]?
      let (x, l) ← takeNum extra l
      let (z, l) ← dist.read l
      let (dbase, dextra) ← distBase[z]?
      let (w, l) ← takeNum dextra l
      inflateSyms lit dist k l (← d.copy (dbase + w) (base + x))

/-- The code lengths of a dynamic block: `todo` are still to come, `acc` holds those read, newest first. -/
def readLengths (c : PrefixCode) : Nat → Nat → List Nat → List Bool → Option (List Nat × List Bool)
  | 0, _, _, _ => none
  | k + 1, todo, acc, l =>
    if todo = 0 then some (acc.reverse, l)
    else do
      let (y, l) ← c.read l
      if y < 16 then readLengths c k (todo - 1) (y :: acc) l
      else
        let prev ← if y = 16 then acc.head? else some 0
        let (x, l) ← takeNum (if y = 16 then 2 else if y = 17 then 3 else 7) l
        let n := x + (if y = 18 then 11 else 3)
        if todo < n then none else readLengths c k (todo - n) (List.replicate n prev ++ acc) l

/-- The order in which the lengths of the code length code come. -/
def lengthOrder : List Nat := [16, 17, 18, 0, 8, 7, 9, 6, 10, 5, 11, 4, 12, 3, 13, 2, 14, 1, 15]

/-- The two codes of a dynamic block. -/
def dynamicCodes (l : List Bool) : Option (PrefixCode × PrefixCode × List Bool) := do
  let (hlit, l) ← takeNum 5 l
  let (hdist, l) ← takeNum 5 l
  let (hclen, l) ← takeNum 4 l
  let (cl, l) ← takeNums 3 (hclen + 4) l
  let given := lengthOrder.zip cl
  let c := codeOf ((List.range 19).map (fun y => (given.lookup y).getD 0))
  if 29 < hlit ∨ 29 < hdist ∨ c.ok false = false then none
  else
    let (ls, l) ← readLengths c (hlit + hdist + 259) (hlit + hdist + 258) [] l
    let lit := codeOf (ls.take (hlit + 257))
    let dist := codeOf (ls.drop (hlit + 257))
    if ls.getD 256 0 = 0 ∨ lit.ok true = false ∨ dist.ok true = false then none else return (lit, dist, l)

/-- The codes of a fixed block. -/
def fixedLit : PrefixCode := codeOf (List.replicate 144 8 ++ List.replicate 112 9 ++ List.replicate 24 7 ++ List.replicate 8 8)
def fixedDist : PrefixCode := codeOf (List.replicate 32 5)

/-- A stored block: to the next byte, LEN, its complement, and the bytes. -/
def inflateStored (l : List Bool) (d : Decoded) : Option (List Bool × Decoded) := do
  let (n, l) ← takeNum 16 (l.drop (l.length % 8))
  let (c, l) ← takeNum 16 l
  if n + c ≠ 65535 then none
  else
    let (bs, l) ← takeNums 8 n l
    return (l, ← d.puts (bs.map byteOf))

/-- The blocks of a stream; after the final one fewer than eight bits may be left. -/
def inflateBlocks : Nat → List Bool → Decoded → Option Decoded
  | 0, _, _ => none
  | k + 1, l, d => do
    let (final, l) ← takeNum 1 l
    let (type, l) ← takeNum 2 l
    let (l, d) ← match type with
      | 0 => inflateStored l d
      | 1 => inflateSyms fixedLit fixedDist (l.length + 1) l d
      | 2 => do
        let (lit, dist, l) ← dynamicCodes l
        inflateSyms lit dist (l.length + 1) l d
      | _ => none
    if final = 0 then inflateBlocks k l d else if l.length < 8 then return d else none

/-- The payload of a raw DEFLATE stream; none where it fails a condition of R151. -/
def inflate (s : List Byte) : Option (List Byte) :=
  let l := streamBits s
  (inflateBlocks (l.length + 1) l {}).map Decoded.bytes

/-- A payload as one stored block. -/
def deflateStored (p : List Byte) : List Byte := 1 :: leBytes 2 p.length ++ leBytes 2 (65535 - p.length) ++ p

end Sys2Proof.Machine
end

