-- ==== Sys2Proof/Machine/Zstd.lean ====
section
/-! DEFINITION. The decoder of Zstandard frames as RFC 8878 gives it, with the bounds of R151 (log entry 131). Forward fields come lowest bit
first; the bit streams of Huffman and FSE codes are read from their end, highest bit first. -/

namespace Sys2Proof.Machine

/-! ## Streams read from their end -/

/-- The number whose highest bit comes first. -/
def bitsNatHigh (l : List Bool) : Nat := l.foldl (fun a b => 2 * a + b2n b) 0

/-- The bits of a stream after the marker, the highest set bit of its last byte; none where that byte is zero or missing. -/
def backBits (s : List Byte) : Option (List Bool) :=
  match s.reverse with
  | [] => none
  | b :: t =>
    match ((List.range 8).map (fun i => b.getLsbD (7 - i))).dropWhile (! ·) with
    | [] => none
    | _ :: m => some (m ++ t.flatMap (fun c => (List.range 8).map (fun i => c.getLsbD (7 - i))))

/-- Take `n` bits of such a stream. -/
def takeHigh (n : Nat) (l : List Bool) : Option (Nat × List Bool) :=
  let h := l.take n
  if h.length = n then some (bitsNatHigh h, l.drop n) else none

/-! ## FSE tables (RFC 8878, 4.1) -/

/-- One state of an FSE table: its symbol, the bits to read and the base that they add to. -/
structure FseRow where
  sym : Nat
  nb : Nat
  base : Nat
  deriving DecidableEq, Repr

/-- An FSE table with its accuracy log. -/
structure FseTable where
  log : Nat
  rows : List FseRow
  deriving DecidableEq, Repr

/-- Zero probabilities that a repeat flag of 3 continues. -/
def fseZeros : Nat → List Bool → Option (Nat × List Bool)
  | 0, _ => none
  | k + 1, l => do
    let (n, l) ← takeNum 2 l
    if n = 3 then
      let (m, l) ← fseZeros k l
      return (3 + m, l)
    else return (n, l)

/-- The probabilities of a table description, newest first; -1 stands for "less than 1". -/
def fseProbs : Nat → Int → List Int → List Bool → Option (List Int × List Bool)
  | 0, _, _, _ => none
  | k + 1, left, acc, l =>
    if left < 0 then none
    else if left = 0 then some (acc, l)
    else do
      let m := left.toNat + 1
      let b := Nat.log2 m + 1
      let half := 2 ^ (b - 1)
      let cut := 2 ^ b - 1 - m
      let (lo, r) ← takeNum (b - 1) l
      let (v, l) ← if lo < cut then some (lo, r) else do
        let (hi, r) ← takeNum 1 r
        pure (if hi = 1 then lo + half - cut else lo, r)
      let p : Int := (v : Int) - 1
      let (z, l) ← if p = 0 then fseZeros 256 l else some (0, l)
      fseProbs k (left - p.natAbs) (List.replicate z 0 ++ p :: acc) l

/-- The table of a list of probabilities. -/
def fseTable (log : Nat) (probs : List Int) : FseTable :=
  let size := 2 ^ log
  let num := probs.zipIdx
  let low := (num.filter (fun p => p.1 == -1)).map (·.2)
  let order := ((List.range size).map (fun i => i * (size / 2 + size / 8 + 3) % size)).filter (· < size - low.length)
  let spread := order.zip (num.flatMap (fun p => List.replicate p.1.toNat p.2))
  let at_ := fun p => if p < size - low.length then (spread.lookup p).getD 0 else low.getD (size - 1 - p) 0
  let step := fun (a : List Nat × List FseRow) p =>
    let y := at_ p
    let x := a.1.getD y 0
    let nb := log - Nat.log2 x
    (a.1.set y (x + 1), { sym := y, nb := nb, base := x * 2 ^ nb - size } :: a.2)
  { log := log, rows := ((List.range size).foldl step (probs.map Int.natAbs, [])).2.reverse }

/-- A table description at the start of `s`, of accuracy at most `maxLog` and with symbols up to `maxSym`; the bytes after it. -/
def readFse (maxLog maxSym : Nat) (s : List Byte) : Option (FseTable × List Byte) := do
  let (a, l) ← takeNum 4 (streamBits (s.take 512))
  let log := a + 5
  if maxLog < log then none
  else
    let (ps, r) ← fseProbs 512 (2 ^ log) [] l
    if maxSym + 1 < ps.length then none
    else return (fseTable log ps.reverse, s.drop ((s.take 512).length - r.length / 8))

/-! ## Huffman codes (RFC 8878, 4.2) -/

/-- The weights that two interleaved FSE states give; `x` is the state whose turn it is. -/
def fseWeights (t : FseTable) : Nat → Nat → Nat → List Bool → List Nat → Option (List Nat)
  | 0, _, _, _, _ => none
  | k + 1, x, y, l, acc =>
    match t.rows[x]? with
    | none => none
    | some r =>
      match takeHigh r.nb l with
      | none => (t.rows[y]?).map (fun q => (q.sym :: r.sym :: acc).reverse)
      | some (v, l) => fseWeights t k y (r.base + v) l (r.sym :: acc)

/-- The rows of a Huffman code: for each value of its longest code, the symbol and the length of its code. -/
structure HufTable where
  bits : Nat
  rows : List (Nat × Nat)
  deriving DecidableEq, Repr

/-- The code of a list of weights; the last weight is not listed and makes the code complete. -/
def hufTable (ws : List Nat) : Option HufTable :=
  let total := (ws.map (fun w => if w = 0 then 0 else 2 ^ (w - 1))).sum
  if total = 0 ∨ ws.any (fun w => decide (11 < w)) then none
  else
    let bits := Nat.log2 total + 1
    let rest := 2 ^ bits - total
    let all := (ws ++ [Nat.log2 rest + 1]).zipIdx
    if 11 < bits ∨ 2 ^ Nat.log2 rest ≠ rest ∨ 256 < all.length then none
    else some {
      bits := bits
      rows := (List.range bits).flatMap (fun w => (all.filter (fun p => p.1 == w + 1)).flatMap (fun p => List.replicate (2 ^ w) (p.2, bits - w))) }

/-- A Huffman tree description; the bytes after it. -/
def readHuf (s : List Byte) : Option (HufTable × List Byte) := do
  let h ← s.head?
  let s := s.tail
  if 128 ≤ h.toNat then
    let n := h.toNat - 127
    let m := (n + 1) / 2
    if s.length < m then none
    else
      let ws := ((s.take m).flatMap (fun b => [b.toNat / 16, b.toNat % 16])).take n
      return (← hufTable ws, s.drop m)
  else if s.length < h.toNat then none
  else
    let (t, r) ← readFse 6 255 (s.take h.toNat)
    let l ← backBits r
    let (x, l) ← takeHigh t.log l
    let (y, l) ← takeHigh t.log l
    let ws ← fseWeights t 256 x y l []
    return (← hufTable ws, s.drop h.toNat)

/-- Decode `n` literals of one stream, which they use up. -/
def hufStream (t : HufTable) : Nat → List Bool → List Byte → Option (List Byte)
  | 0, l, acc => if l = [] then some acc.reverse else none
  | k + 1, l, acc =>
    let h := l.take t.bits
    match t.rows[bitsNatHigh h * 2 ^ (t.bits - h.length)]? with
    | none => none
    | some (y, n) => if h.length < n then none else hufStream t k (l.drop n) (byteOf y :: acc)

def hufBytes (t : HufTable) (n : Nat) (s : List Byte) : Option (List Byte) := do hufStream t n (← backBits s) []

/-- Four streams behind a table of the lengths of the first three. -/
def hufFour (t : HufTable) (n : Nat) (s : List Byte) : Option (List Byte) :=
  let a := natIn s 0 2
  let b := natIn s 2 2
  let c := natIn s 4 2
  let q := (n + 3) / 4
  if s.length < 6 + a + b + c ∨ n < 3 * q then none
  else do
    let w ← hufBytes t q (slice s 6 a)
    let x ← hufBytes t q (slice s (6 + a) b)
    let y ← hufBytes t q (slice s (6 + a + b) c)
    let z ← hufBytes t (n - 3 * q) (s.drop (6 + a + b + c))
    return w ++ x ++ y ++ z

/-! ## Frame state -/

/-- What a frame keeps from block to block: the Huffman code, the three sequence tables, the repeated offsets, and the output. -/
structure ZState where
  huf : Option HufTable := none
  ll : Option FseTable := none
  of : Option FseTable := none
  ml : Option FseTable := none
  rep : Nat × Nat × Nat := (1, 4, 8)
  out : Decoded := {}
  deriving DecidableEq, Repr

/-! ## Literals (RFC 8878, 3.1.1.3.1) -/

/-- The literals section: its literals, the Huffman code that holds after it, and the bytes after it. -/
def readLiterals (z : ZState) (s : List Byte) : Option (List Byte × Option HufTable × List Byte) := do
  let h ← s.head?
  let sf := h.toNat / 4 % 4
  if h.toNat % 4 < 2 then
    let (hl, n) := if sf % 2 = 0 then (1, h.toNat / 8) else if sf = 1 then (2, natIn s 0 2 / 16) else (3, natIn s 0 3 / 16)
    let used := if h.toNat % 4 = 0 then n else 1
    if s.length < hl + used ∨ plainMax < n then none
    else return (if h.toNat % 4 = 0 then slice s hl n else List.replicate n (s.getD hl 0), z.huf, s.drop (hl + used))
  else
    let (hl, w) := if sf < 2 then (3, 10) else if sf = 2 then (4, 14) else (5, 18)
    let v := natIn s 0 hl / 16
    let n := v % 2 ^ w
    let c := v / 2 ^ w
    if s.length < hl + c ∨ plainMax < n then none
    else
      let body := slice s hl c
      let (t, r) ← if h.toNat % 4 = 2 then readHuf body else z.huf.map (fun t => (t, body))
      let ls ← if sf = 0 then hufBytes t n r else hufFour t n r
      return (ls, some t, s.drop (hl + c))

/-! ## Sequences (RFC 8878, 3.1.1.3.2) -/

/-- Base and extra bits of the literal length codes and of the match length codes. -/
def llBase : List (Nat × Nat) :=
  (List.range 16).map (fun i => (i, 0)) ++ [(16, 1), (18, 1), (20, 1), (22, 1), (24, 2), (28, 2), (32, 3), (40, 3), (48, 4), (64, 6), (128, 7),
    (256, 8), (512, 9), (1024, 10), (2048, 11), (4096, 12), (8192, 13), (16384, 14), (32768, 15), (65536, 16)]
def mlBase : List (Nat × Nat) :=
  (List.range 32).map (fun i => (i + 3, 0)) ++ [(35, 1), (37, 1), (39, 1), (41, 1), (43, 2), (47, 2), (51, 3), (59, 3), (67, 4), (83, 4), (99, 5),
    (131, 7), (259, 8), (515, 9), (1027, 10), (2051, 11), (4099, 12), (8195, 13), (16387, 14), (32771, 15), (65539, 16)]

/-- The predefined distributions. -/
def llDefault : List Int :=
  [4, 3, 2, 2, 2, 2, 2, 2, 2, 2, 2, 2, 2, 1, 1, 1, 2, 2, 2, 2, 2, 2, 2, 2, 2, 3, 2, 1, 1, 1, 1, 1, -1, -1, -1, -1]
def mlDefault : List Int :=
  [1, 4, 3, 2, 2, 2, 2, 2, 2, 1, 1, 1, 1, 1, 1, 1, 1, 1, 1, 1, 1, 1, 1, 1, 1, 1, 1, 1, 1, 1, 1, 1, 1, 1, 1, 1, 1, 1, 1, 1, 1, 1, 1, 1, 1, 1,
   -1, -1, -1, -1, -1, -1, -1]
def ofDefault : List Int := [1, 1, 1, 1, 1, 1, 2, 2, 2, 1, 1, 1, 1, 1, 1, 1, 1, 1, 1, 1, 1, 1, 1, 1, -1, -1, -1, -1, -1]

/-- The table of one symbol type in a mode: predefined, one symbol, described, or that of the block before. -/
def seqTable (mode : Nat) (dlog : Nat) (dflt : List Int) (maxLog maxSym : Nat) (prev : Option FseTable) (s : List Byte) :
    Option (FseTable × List Byte) :=
  match mode with
  | 0 => some (fseTable dlog dflt, s)
  | 1 => match s with
    | b :: t => if b.toNat ≤ maxSym then some ({ log := 0, rows := [{ sym := b.toNat, nb := 0, base := 0 }] }, t) else none
    | [] => none
  | 2 => readFse maxLog maxSym s
  | _ => prev.map (fun t => (t, s))

/-- The offset that an offset value stands for, and the repeated offsets after it. -/
def repeatOffset (rep : Nat × Nat × Nat) (v ll : Nat) : Nat × (Nat × Nat × Nat) :=
  let (a, b, c) := rep
  if 3 < v then (v - 3, (v - 3, a, b))
  else match v + (if ll = 0 then 1 else 0) with
    | 1 => (a, (a, b, c))
    | 2 => (b, (b, a, c))
    | 3 => (c, (c, a, b))
    | _ => (a - 1, (a - 1, a, b))

/-- Run `n` sequences over the literals; the last one reads no further states and the stream is then used up. -/
def runSeqs (tl tm tf : FseTable) : Nat → (Nat × Nat × Nat) → List Bool → List Byte → (Nat × Nat × Nat) × Decoded →
    Option (List Byte × (Nat × Nat × Nat) × Decoded)
  | 0, _, l, lits, z => if l = [] then some (lits, z) else none
  | n + 1, (xl, xf, xm), l, lits, (rep, d) => do
    let rl ← tl.rows[xl]?
    let rf ← tf.rows[xf]?
    let rm ← tm.rows[xm]?
    let (ov, l) ← takeHigh rf.sym l
    let (mbase, mbits) ← mlBase[rm.sym]?
    let (mx, l) ← takeHigh mbits l
    let (lbase, lbits) ← llBase[rl.sym]?
    let (lx, l) ← takeHigh lbits l
    let ll := lbase + lx
    let (off, rep) := repeatOffset rep (2 ^ rf.sym + ov) ll
    if lits.length < ll then none
    else
      let d ← d.puts (lits.take ll)
      let d ← d.copy off (mbase + mx)
      let (st, l) ← if n = 0 then some ((0, 0, 0), l) else do
        let (vl, l) ← takeHigh rl.nb l
        let (vm, l) ← takeHigh rm.nb l
        let (vf, l) ← takeHigh rf.nb l
        pure ((rl.base + vl, rf.base + vf, rm.base + vm), l)
      runSeqs tl tm tf n st l (lits.drop ll) (rep, d)

/-- The number of sequences; the bytes after it. -/
def seqCount (s : List Byte) : Option (Nat × List Byte) :=
  match s with
  | [] => none
  | a :: t =>
    if a.toNat < 128 then some (a.toNat, t)
    else match t with
      | [] => none
      | b :: u => if a.toNat < 255 then some ((a.toNat - 128) * 256 + b.toNat, u) else u.head?.map (fun c => (b.toNat + c.toNat * 256 + 0x7F00, u.tail))

/-- A compressed block. -/
def zBlock (z : ZState) (s : List Byte) : Option ZState := do
  let (lits, huf, s) ← readLiterals z s
  let (n, s) ← seqCount s
  if n = 0 then (if s = [] then (z.out.puts lits).map (fun d => { z with huf := huf, out := d }) else none)
  else
    let m ← s.head?
    if m.toNat % 4 ≠ 0 then none
    else
      let (tl, s) ← seqTable (m.toNat / 64) 6 llDefault 9 35 z.ll s.tail
      let (tf, s) ← seqTable (m.toNat / 16 % 4) 5 ofDefault 8 31 z.of s
      let (tm, s) ← seqTable (m.toNat / 4 % 4) 6 mlDefault 9 52 z.ml s
      let l ← backBits s
      let (xl, l) ← takeHigh tl.log l
      let (xf, l) ← takeHigh tf.log l
      let (xm, l) ← takeHigh tm.log l
      let (lits, rep, d) ← runSeqs tl tm tf n (xl, xf, xm) l lits (z.rep, z.out)
      return { huf := huf, ll := some tl, of := some tf, ml := some tm, rep := rep, out := ← d.puts lits }

/-! ## Frames (RFC 8878, 3.1.1, Table 5.4) -/

/-- The blocks of a frame of window `win`; nothing follows the last one. -/
def zBlocks (win : Nat) : Nat → ZState → List Byte → Option ZState
  | 0, _, _ => none
  | k + 1, z, s =>
    if s.length < 3 then none
    else
      let h := natIn s 0 3
      let n := h / 8
      let kind := h / 2 % 4
      let used := if kind = 1 then 1 else n
      let body := slice s 3 used
      if win < n ∨ s.length < 3 + used ∨ kind = 3 then none
      else do
        let z ← if kind = 0 then (z.out.puts body).map (fun d => { z with out := d })
          else if kind = 1 then (z.out.puts (List.replicate n (body.getD 0 0))).map (fun d => { z with out := d })
          else zBlock z body
        let r := s.drop (3 + used)
        if h % 2 = 0 then zBlocks win k z r else if r = [] then return z else none

/-- The payload of a frame of Table 5.4; none where it fails a condition of R151. The window of such a frame is its content size. -/
def zstdDecode (s : List Byte) : Option (List Byte) :=
  let d := (s.getD 4 0).toNat
  let dl := [0, 1, 2, 4].getD (d % 4) 0
  let fl := [1, 2, 4, 8].getD (d / 64) 0
  let size := natIn s (5 + dl) fl + (if d / 64 = 1 then 256 else 0)
  let r := s.drop (5 + dl + fl)
  if natIn s 0 4 ≠ 0xFD2FB528 ∨ s.length < 5 + dl + fl ∨ d / 32 % 2 = 0 ∨ d / 8 % 2 = 1 ∨ d / 4 % 2 = 1 ∨ natIn s 5 dl ≠ 0 ∨ plainMax < size then none
  else (zBlocks size (r.length + 1) {} r).bind (fun z => if z.out.len = size then some z.out.bytes else none)

/-- A payload as a frame of one raw block. -/
def zstdStored (p : List Byte) : List Byte :=
  leBytes 4 0xFD2FB528 ++ (if p.length < 256 then 0x20 :: leBytes 1 p.length else 0x60 :: leBytes 2 (p.length - 256))
    ++ leBytes 3 (8 * p.length + 1) ++ p

end Sys2Proof.Machine
end

