-- ==== Sys2Proof/Machine/Glaze.lean ====
section
/-! DEFINITION. Glaze engines (R136 to R162): dispatch, LINKOUT, the XTS transform, inbound work, self-tests, and their rows. -/

namespace Sys2Proof.Machine

/-! ## The command word (Table 5.6) -/

def GlazeReq.w (r : GlazeReq) (i : Nat) : Word := wordIn r.bytes (8 * i)
def GlazeReq.op (r : GlazeReq) : Nat := fld (r.w 0) 7 0
def GlazeReq.statq (r : GlazeReq) : Nat := fld (r.w 0) 63 48
def GlazeReq.outq (r : GlazeReq) : Nat := fld (r.w 0) 47 32
def GlazeReq.waitUs (r : GlazeReq) : Nat := fld (r.w 0) 23 20
def GlazeReq.fixForm (r : GlazeReq) : Bool := bitAt (r.w 0) 19
def GlazeReq.form (r : GlazeReq) : Nat := fld (r.w 0) 18 16
def GlazeReq.tagv (r : GlazeReq) : Nat := fld (r.w 2) 31 0
/-- Length of the item in 32-byte words. -/
def GlazeReq.len (r : GlazeReq) : Nat := r.bytes.length / 32
/-- The header that follows the command word of a LINKOUT, with its plaintext payload. -/
def GlazeReq.packet (r : GlazeReq) : Packet := packetOf (r.bytes.drop 32)
/-- The payload of an XTS command. -/
def GlazeReq.data (r : GlazeReq) : List Byte := r.bytes.drop 32

/-- Result codes of a status item (Table 5.7). -/
def glOk : Nat := 0
def glBusy : Nat := 1
def glIncomp : Nat := 2
def glCt : Nat := 3
def glNoKey : Nat := 4
def glNonce : Nat := 5
def glBadLen : Nat := 6
def glBadCmd : Nat := 7
def glKeyBind : Nat := 8

/-- A reserved OP, a reserved encoding or a reserved field (R156). -/
def GlazeReq.badCmd (r : GlazeReq) : Bool :=
  let w := r.w 0
  !(r.op == 1 || r.op == 2 || r.op == 3) || fld w 31 24 != 0 || fld w 11 8 != 0 || fld w 13 12 == 3
    || (!r.fixForm && r.form != 0) || r.form == 7 || fld (r.w 2) 63 48 != 0 || r.w 3 != 0
    || (r.op == 1 && (r.w 1 != 0 || fld (r.w 2) 47 32 != 0))

/-- The item is not as long as its header says, or its data are no whole number of data units under any slot (R155, R156). -/
def GlazeReq.badLen (r : GlazeReq) : Bool :=
  if r.op == 1 then decide (8192 < r.packet.len) || r.len != 2 + ceilDiv r.packet.len 32
  else r.data.length == 0 || decide (8192 < r.data.length) || r.data.length % 512 != 0

/-- FORM of the request: as given with FIXFORM, else that of algorithm and effort (Table 5.4). -/
def GlazeReq.wanted (r : GlazeReq) : Nat := if r.fixForm then r.form else 1 + fld (r.w 0) 13 12 + 3 * fld (r.w 0) 14 14

/-- The request needs a compression engine (Table 5.5). -/
def GlazeReq.compresses (r : GlazeReq) : Bool := r.op == 1 && r.packet.cmp && !r.ct && r.wanted != 0 && r.packed.isNone

/-! ## Engines -/

/-- Engine `e` of shelf `n`: 0 to 3 crypto, 4 and 5 compression. -/
def State.engine (s : State) (n e : Nat) : Engine := tget {} (s.shelf n).engines e
def State.setEngine (s : State) (n e : Nat) (x : Engine) : State :=
  s.modShelf n (fun h => { h with engines := tset {} h.engines e x })

/-- The PASS bit of an engine in SH_GLSTAT (Table 5.17). -/
def passBit (e : Nat) : Nat := if e < 4 then 60 + e else 54 + e

/-- An engine has no work and no test; inbound work of a link that the shelf serves is work too (R137). -/
def State.engineIdle (s : State) (n e : Nat) : Bool :=
  let x := s.engine n e
  s.shelfActive n && x.req.isNone && x.out.isNone && x.testAt.isNone
    && (s.servedOrder n).all (fun l => (s.link l).rxFifo.all (fun p => p.eng != some e))

/-- An engine that takes a request: one that has failed a test takes none (R161). -/
def State.engineFree (s : State) (n e : Nat) : Bool := s.engineIdle n e && !(s.engine n e).failed

/-- The lowest-numbered free engine of a kind (R138). -/
def State.freeEngine (s : State) (n : Nat) (comp : Bool) : Option Nat :=
  (if comp then [4, 5] else [0, 1, 2, 3]).find? (fun e => s.engineFree n e)

/-- Start a request in an engine. -/
def State.startReq (s : State) (n e : Nat) (r : GlazeReq) : State := s.setEngine n e { s.engine n e with req := some r, out := none, outDone := false }

/-- Hand a request to the crypto engines: behind those that wait, the first of them all starts on a free engine, and the rest wait in the pool
of four (R138); none where the pool is full. -/
def State.toCrypto (s : State) (n : Nat) (r : GlazeReq) : Option State :=
  let pool := (s.shelf n).cryptoPool
  match s.freeEngine n false with
  | some e => some ((s.modShelf n (fun h => { h with cryptoPool := (pool ++ [r]).tail })).startReq n e (pool.headD r))
  | none => if pool.length < 4 then some (s.modShelf n (fun h => { h with cryptoPool := pool ++ [r] })) else none

/-! ## Compressed data (Table 5.4, R149 to R151) -/

/-- The payload of the compressed data of a form; none for a form that is 0 or reserved and for a stream that fails (R151). -/
def unpackForm (form : Nat) (data : List Byte) : Option (List Byte) :=
  if form = 0 ∨ 6 < form then none else if form ≤ 3 then inflate data else zstdDecode data

/-- The compressed data of a payload: those of the compressor, which decode to the payload, or else the payload stored in the form's format. -/
def packForm (form : Nat) (plain : List Byte) : List Byte :=
  let c := Config.compress (BitVec.ofNat 3 form) plain
  if unpackForm form c = some plain then c else if form ≤ 3 then deflateStored plain else zstdStored plain

/-- The request sent without compression, with a result of Table 5.5. -/
def GlazeReq.bypass (r : GlazeReq) (res : Nat) : GlazeReq := { r with packed := some (0, res, r.packet.payload) }

/-! ## Counters (Table 5.18) -/

def State.bypassCnt (s : State) (n : Nat) : State := bumpF s (.shGlcnt n) 63 48 1
def State.incompCnt (s : State) (n : Nat) : State := bumpF s (.shGlcnt n) 47 32 1
def State.ctrefCnt (s : State) (n : Nat) : State := bumpF s (.shGlcnt n) 31 16 1
def State.nonceCnt (s : State) (n : Nat) : State := bumpF s (.shGlcnt n) 15 0 1

/-! ## Dispatch (R138, R139, R152) -/

/-- The share link whose port queue `outq` is. -/
def State.shareOut (s : State) (n outq : Nat) : Option Nat := (s.shareClass n).find? (fun l => n * 1024 + s.feedQueue l == outq)

/-- What the bucket of a share link holds after an item of `len` bytes; none while it cannot hold it. -/
def State.glCharge (s : State) (l len : Nat) : Option Nat :=
  charge ((s.shareCap l).getD 0) (getF s (.lkDamp l) 55 48) (s.link l).glBucket (s.link l).glBucketAt s.now len

/-- The bytes that an item counts toward the bucket of its OUTQ: the packet of a LINKOUT, the data of an XTS command (log entry 132). -/
def GlazeReq.charged (r : GlazeReq) : Nat := if r.op = 1 then r.packet.size else r.data.length

/-- Index of the item that the dispatcher takes, at most 16 deep: items toward a share link whose bucket is short are passed over, and
items for one OUTQ keep their order (R139). -/
def State.pickFrom (s : State) (n : Nat) : List QItem → Nat → List Nat → Option Nat
  | [], _, _ => none
  | x :: t, i, blocked =>
    let r : GlazeReq := { bytes := s.itemBytes n x, ct := x.ct, since := 0 }
    if blocked.contains r.outq then s.pickFrom n t (i + 1) blocked
    else match s.shareOut n r.outq with
      | none => some i
      | some l => if (s.glCharge l r.charged).isSome then some i else s.pickFrom n t (i + 1) (r.outq :: blocked)

/-- Take item `i` from the glaze queue and charge the bucket of its share link. -/
def State.takeItem (s : State) (n q i : Nat) (r : GlazeReq) : State :=
  let x := s.queue n q
  let s' := ((x.items[i]?).elim s (fun y => s.itemRead n y)).setQueue n q { x with items := x.items.eraseIdx i }
  let s' := if x.items.length = s.qDepth n q then s'.qEventSrcs n q 3 else s'
  match s.shareOut n r.outq with
  | none => s'
  | some l =>
    match s.glCharge l r.charged with
    | some b => s'.modLink l (fun k => { k with glBucket := b, glBucketAt := s.now })
    | none => s'

/-- A request completes without work: nothing is carried, so FORM and LEN of its status item are 0 (log entry 132). -/
def GlazeReq.fails (r : GlazeReq) (res : Nat) : GlazeOut :=
  { outq := BitVec.ofNat 16 r.outq, statq := BitVec.ofNat 16 r.statq, tagv := BitVec.ofNat 32 r.tagv, form := 0, result := res, len := 0, data := [],
    bad := r.bad }

/-- Place a taken request; none while no engine or pool can take it, so that it stays in the queue. A command that is both BADCMD and BADLEN is
BADCMD, and BYPASS counts whatever its crypto step then gives (log entry 132). -/
def State.placeReq (s : State) (n : Nat) (r : GlazeReq) : Option State :=
  if r.badCmd || r.badLen then
    (s.freeEngine n false <|> s.freeEngine n true).map (fun e =>
      s.setEngine n e { s.engine n e with req := some r, out := some (r.fails (if r.badCmd then glBadCmd else glBadLen)), outDone := false })
  else if r.compresses then
    match s.freeEngine n true with
    | some e => some (s.startReq n e r)
    | none =>
      if !r.fixForm && decide (r.since + r.waitUs * 1000 ≤ s.now) then (s.toCrypto n (r.bypass glBusy)).map (fun t => t.bypassCnt n)
      else if (s.shelf n).compPool.length < 2 then some (s.modShelf n (fun h => { h with compPool := h.compPool ++ [r] }))
      else none
  else s.toCrypto n r

/-- When the item at the dispatcher's turn began to wait: it has waited since it was first turned away. -/
def State.waitsSince (s : State) (n : Nat) (x : QItem) : Nat :=
  match (s.shelf n).blocked with
  | some (t, y) => if y = x then t else s.now
  | none => s.now

/-- Take the next item of the glaze queue; the flag tells that one was taken. -/
def State.dispatchItem (s : State) (n : Nat) : State × Bool :=
  let q := getF s (.shGlcfg n) 9 0
  if !getB s (.shGlcfg n) 63 || s.qAbsent n q || !s.shelfActive n then (s, false)
  else
    let items := (s.queue n q).items
    match s.pickFrom n (items.take 16) 0 [] with
    | none => (s, false)
    | some i =>
      let x := items.getD i { off := 0, len := 0 }
      let since := s.waitsSince n x
      let r : GlazeReq := { bytes := s.itemBytes n x, ct := x.ct, since := since, bad := (s.itemBad n x).isSome }
      match (s.takeItem n q i r).placeReq n r with
      | some t => (t.modShelf n (fun h => { h with blocked := none }), true)
      | none => (s.modShelf n (fun h => { h with blocked := some (since, x) }), false)

/-- Start the work that waits in the pools: a crypto request, a request that has left the compression step, or one that needs it. -/
def State.startWaiting (s : State) (n : Nat) : Option State :=
  let h := s.shelf n
  match h.cryptoPool, s.freeEngine n false with
  | r :: t, some e => some ((s.setShelf n { h with cryptoPool := t }).startReq n e r)
  | _, _ =>
    match (h.compPool.find? (fun r => r.packed.isSome)).bind (fun r => (s.setShelf n { h with compPool := h.compPool.erase r }).toCrypto n r) with
    | some t => some t
    | none =>
      match h.compPool.find? (fun r => r.packed.isNone), s.freeEngine n true with
      | some r, some e => some ((s.setShelf n { h with compPool := h.compPool.erase r }).startReq n e r)
      | _, _ => none

/-! ## Inbound work waits for an engine (R137, R138, R139) -/

/-- A packet of the command channel for this device that inbound work has not reached. -/
def State.wantsGlaze (s : State) (x : RxPkt) : Bool :=
  x.vc == 0 && x.glazed.isNone && x.eng.isNone && s.forMe x.pkt && cmdClass x.pkt.cmd == some .ledger

/-- The packet needs a compression engine next: it is compressed, and its seal is open or it has none. -/
def RxPkt.needsComp (x : RxPkt) : Bool := x.pkt.cmp && (x.opened.isSome || !x.pkt.enc)

/-- Change the first packet that satisfies `f`. -/
def modRx (f : RxPkt → Bool) (g : RxPkt → RxPkt) : List RxPkt → List RxPkt
  | [] => []
  | x :: t => if f x then g x :: t else x :: modRx f g t

/-- The links after the one that was served last, in turn. -/
def inTurnAfter (last : Nat) (ls : List Nat) : List Nat :=
  if ls.contains last then (ls.dropWhile (· != last)).drop 1 ++ ls.takeWhile (· != last) ++ [last] else ls

/-- Start inbound work of the guaranteed links or of the share links, in turn. -/
def State.startInbound (s : State) (n : Nat) (share : Bool) : Option State :=
  let c := s.shareClass n
  let ls := if share then inTurnAfter (s.shelf n).lastShare c else inTurnAfter (s.shelf n).lastGuar ((s.servedOrder n).filter (fun l => !c.contains l))
  let ready := fun (x : RxPkt) => s.wantsGlaze x && (s.freeEngine n x.needsComp).isSome
  match ls.find? (fun l => (s.link l).rxFifo.any ready) with
  | none => none
  | some l =>
    let s' := s.modLink l (fun k => { k with rxFifo := modRx ready (fun x => { x with eng := s.freeEngine n x.needsComp }) k.rxFifo })
    some (s'.modShelf n (fun h => if share then { h with lastShare := l } else { h with lastGuar := l }))

def effGlazeDispatch (n : Nat) (s : State) : State :=
  match s.startWaiting n <|> s.startInbound n false with
  | some t => t
  | none =>
    let a := s.dispatchItem n
    if a.2 then a.1 else (a.1.startInbound n true).getD a.1

/-- GLAZE_DISPATCH (R137 to R139, R152, R156): work that waits starts on the lowest free engine of its kind, then inbound work of the guaranteed
links, an item of the glaze queue, and inbound work of the share links (log entry 133). -/
def execGlazeDispatch (n : Fin 64) (s : State) : Host.Outcome State Fault Refusal := .next (effGlazeDispatch n s)

/-- A request in the pool whose WAIT is over and that no engine takes is sent uncompressed: to the crypto engines, or from its place in the pool
once they have room. An item that no pool could take is bound by its WAIT as well. -/
def effCompressWaitExpiry (n : Nat) (s : State) : State :=
  let h := s.shelf n
  if (s.freeEngine n true).isSome then s
  else match h.compPool.find? (fun r => r.packed.isNone && !r.fixForm && decide (r.since + r.waitUs * 1000 ≤ s.now)) with
    | some r =>
      match (s.setShelf n { h with compPool := h.compPool.erase r }).toCrypto n (r.bypass glBusy) with
      | some t => t.bypassCnt n
      | none => (s.setShelf n { h with compPool := h.compPool.replace r (r.bypass glBusy) }).bypassCnt n
    | none => (s.dispatchItem n).1

/-- COMPRESS_WAIT_EXPIRY (R152, Tables 5.5 and 5.10). -/
def execCompressWaitExpiry (n : Fin 64) (s : State) : Host.Outcome State Fault Refusal := .next (effCompressWaitExpiry n s)

/-! ## Sealing (R145 to R148) -/

/-- Header of the additional authenticated data: HOPS, RETX and HCHK zero (R146). -/
def aadOf (p : Packet) : List Byte :=
  fromWords [setFld (setFld p.w0 63 56 0) 12 12 0, p.w1, p.w2, setFld p.w3 63 48 0] ++ (if p.cmp then p.payload.take 1 else [])

/-- The nonce (Table 5.3). -/
def nonceOf (p : Packet) (form : Nat) : List Byte := beBytes 12 (p.src * 2 ^ 76 + form * 2 ^ 64 + p.stream * 2 ^ 48 + p.seq)

/-- The packet sealed under a key: the frame byte stays clear. -/
def sealPacket (x : KeySlot) (form : Nat) (p : Packet) : Packet :=
  let k := if p.cmp then 1 else 0
  let r := gcmSeal (keyBytes x.key1) (nonceOf p form) (aadOf p) (p.payload.drop k)
  { p with payload := p.payload.take k ++ r.1, tag := BitVec.ofNat 128 (leNat r.2) }

/-- Whether a slot may seal an outbound packet: the result, 0 where it may (R145, R148). KEYBIND ranks before NONCE (log entry 132). -/
def sealCheck (x : KeySlot) (p : Packet) : Nat :=
  if x.valid = false ∨ x.mode ≠ 0 then glNoKey
  else if x.localId.toNat ≠ p.src ∨ x.peer.toNat ≠ p.dst then glKeyBind
  else if p.seq < x.floor.toNat then glNonce
  else glOk

/-! ## LINKOUT (R157) -/

/-- The packet of a request before sealing: SRC, PCRC, CMP, LEN, HCHK; `form` and `carried` are what it carries. -/
def linkPacket (devId : Nat) (r : GlazeReq) (form : Nat) (carried : List Byte) : Packet :=
  let h := r.packet
  let p : Packet := { h with w0 := setFld h.w0 55 44 devId, tag := 0 }
  ({ p with
    pcrc := pcrcOf p h.payload
    w0 := setFld p.w0 9 9 (if form = 0 then 0 else 1)
    w2 := setFld p.w2 13 0 carried.length
    payload := carried } : Packet).fixHchk

/-- An engine finishes with an output. -/
def State.engineOut (s : State) (n e : Nat) (o : GlazeOut) : State := s.setEngine n e { s.engine n e with out := some o, outDone := false }

/-- The crypto step of a LINKOUT. CTREF counts the outcome BYPASS-CT, so only where no other result replaces it (log entry 132). -/
def State.linkoutCrypto (s : State) (n e : Nat) (r : GlazeReq) : State :=
  let ctRef := r.packed.isNone && r.packet.cmp && r.ct
  let c := r.packed.getD (0, if ctRef then glCt else glOk, r.packet.payload)
  let p := linkPacket s.sys.devId.toNat r c.1 c.2.2
  let done := fun (s : State) (q : Packet) =>
    (if ctRef then s.ctrefCnt n else s).engineOut n e { (r.fails c.2.1) with form := c.1, len := c.2.2.length, data := q.bytes }
  if !p.enc then done s p
  else match s.keyFor n p.keySlot with
    | (s, .wait) => s
    | (s, .fails) => s.engineOut n e (r.fails glNoKey)
    | (s, .key x) =>
      let k := sealCheck x p
      if k = glOk then done s (sealPacket x c.1 p)
      else (if k = glNonce then s.nonceCnt n else s).engineOut n e (r.fails k)

/-- The compression step of a LINKOUT: the plaintext goes on where compression does not make it shorter; INCOMP counts whatever its crypto step
then gives (log entry 132). -/
def State.linkoutComp (s : State) (n e : Nat) (r : GlazeReq) : State :=
  let plain := r.packet.payload
  let data := byteOf r.wanted :: packForm r.wanted plain
  let incomp := decide (plain.length ≤ data.length)
  let q := if incomp then r.bypass glIncomp else { r with packed := some (r.wanted, glOk, data) }
  match (s.setEngine n e { s.engine n e with req := none }).toCrypto n q with
  | some t => if incomp then t.incompCnt n else t
  | none => s

def effLinkout (n e : Nat) (s : State) : State :=
  let x := s.engine n e
  match x.req, x.out with
  | some r, none => if r.op = 1 ∧ s.shelfActive n then (if e < 4 then s.linkoutCrypto n e r else s.linkoutComp n e r) else s
  | _, _ => s

/-- LINKOUT (R145 to R149, R152, R157): the compression step in engine 4 or 5, the crypto step in engines 0 to 3. -/
def execLinkout (n : Fin 64) (e : Fin 6) (s : State) : Host.Outcome State Fault Refusal := .next (effLinkout n e s)

/-! ## XTS (R155) -/

/-- Transform data unit after data unit; the tweak of unit j is DUN + j. -/
def xtsUnits (enc : Bool) (k1 k2 : List Byte) (size : Nat) : Nat → Nat → List Byte → List Byte
  | 0, _, _ => []
  | k + 1, dun, l => if l = [] then [] else xtsUnit enc k1 k2 (dun % 2 ^ 128) (l.take size) ++ xtsUnits enc k1 k2 size k (dun + 1) (l.drop size)

/-- The output of an XTS request under a slot: its result and the data. A slot that is not VALID or of no XTS mode gives NOKEY (log entry 132). -/
def xtsResult (enc : Bool) (x : KeySlot) (r : GlazeReq) : Nat × List Byte :=
  if x.valid = false ∨ ¬(x.mode = 1 ∨ x.mode = 2) then (glNoKey, [])
  else
    let size := if x.mode = 1 then 512 else 4096
    if r.data.length = 0 ∨ r.data.length % size ≠ 0 ∨ 8192 < r.data.length then (glBadLen, [])
    else (glOk, xtsUnits enc (keyBytes x.key1) (keyBytes x.key2) size (r.data.length / size) (r.w 1).toNat r.data)

def effXts (enc : Bool) (n e : Nat) (s : State) : State :=
  let x := s.engine n e
  match x.req, x.out with
  | some r, none =>
    if r.op = (if enc then 2 else 3) ∧ e < 4 ∧ s.shelfActive n then
      match s.keyFor n (fld (r.w 2) 47 32) with
      | (s, .wait) => s
      | (s, .fails) => s.engineOut n e (r.fails glNoKey)
      | (s, .key k) =>
        let t := xtsResult enc k r
        s.engineOut n e { (r.fails t.1) with len := t.2.length, data := t.2 }
    else s
  | _, _ => s

/-- XTSENC (R155). -/
def execXtsenc (n : Fin 64) (e : Fin 6) (s : State) : Host.Outcome State Fault Refusal := .next (effXts true n e s)

/-- XTSDEC (R155). -/
def execXtsdec (n : Fin 64) (e : Fin 6) (s : State) : Host.Outcome State Fault Refusal := .next (effXts false n e s)

/-! ## Completion (R157) -/

/-- The status word (Table 5.7). -/
def statusWord (o : GlazeOut) : Word :=
  place 63 32 o.tagv.toNat ||| place 23 20 o.form ||| place 19 16 o.result ||| place 13 0 o.len

/-- Commit the output, where there is one, with the poison mark of its data (Table 12.3); the flag tells that the engine is through with OUTQ. -/
def State.commitOut (s : State) (n e : Nat) (o : GlazeOut) : State × Bool :=
  if (s.engine n e).outDone || decide (4 ≤ o.result) then (s, true)
  else
    let q := o.outq.toNat % 1024
    let t := s.unitCommit (o.outq.toNat / 1024) q (unitGlaze n e) o.data false
    (if o.bad && t.2 == .landed then t.1.spoilNewest (o.outq.toNat / 1024) q else t.1, t.2 != .waits)

/-- Commit the status item; the flag tells that the engine is through with STATQ. -/
def State.commitStat (s : State) (n e : Nat) (o : GlazeOut) : State × Bool :=
  if o.statq = 0xFFFF then (s, true)
  else
    let t := s.unitCommit (o.statq.toNat / 1024) (o.statq.toNat % 1024) (unitGlaze n e) (wordBytes (statusWord o)) false
    (t.1, t.2 != .waits)

def effGlazeOpComplete (n e : Nat) (s : State) : State :=
  match (s.engine n e).out with
  | none => s
  | some o =>
    let a := s.commitOut n e o
    if !a.2 then a.1
    else
      let b := (a.1.setEngine n e { a.1.engine n e with outDone := true }).commitStat n e o
      if !b.2 then b.1 else b.1.setEngine n e { b.1.engine n e with req := none, out := none, outDone := false }

/-- GLAZE_OP_COMPLETE (R101, R102, R157): the output before the status item; a full queue makes the engine wait. -/
def execGlazeOpComplete (n : Fin 64) (e : Fin 6) (s : State) : Host.Outcome State Fault Refusal := .next (effGlazeOpComplete n e s)

/-! ## Inbound work (R137, R145 to R147, R151) -/

/-- Decompression and PCRC of an opened payload. -/
def openPlain (p : Packet) (carried : List Byte) : GlazeOutcome :=
  let plain := if p.cmp then unpackForm (carried.headD 0).toNat (carried.drop 1) else some carried
  match plain with
  | none => .crcFail
  | some b => if b.length ≤ 8192 ∧ pcrcOf p b = p.pcrc then .ok b else .crcFail

/-- Open the seal of a packet under a key: the carried payload, or the outcome where it fails (R145 to R147). -/
def openSeal (x : KeySlot) (p : Packet) : GlazeOutcome ⊕ List Byte :=
  if x.valid = false ∨ x.mode ≠ 0 ∨ x.peer.toNat ≠ p.src ∨ x.localId.toNat ≠ p.dst then .inl .keyBind
  else
    let k := if p.cmp then 1 else 0
    let form := if p.cmp then (p.payload.headD 0).toNat else 0
    match gcmOpen (keyBytes x.key1) (nonceOf p form) (aadOf p) (p.payload.drop k) (leBytes 16 p.tag.toNat) with
    | none => .inl .tagFail
    | some b => .inr (p.payload.take k ++ b)

/-- Note the outcome of the packet that satisfies `f`; the engine is free again. -/
def State.noteGlazed (s : State) (l : Nat) (f : RxPkt → Bool) (o : GlazeOutcome) : State :=
  s.modLink l (fun k => { k with rxFifo := modRx f (fun x => { x with glazed := some o, eng := none, opened := none }) k.rxFifo })

/-- The engine of packet `x` of link `l` finishes; none where it waits for a key. -/
def State.inboundDone (s : State) (n l : Nat) (x : RxPkt) : State × Bool :=
  let f := fun (y : RxPkt) => y.eng == x.eng
  if x.needsComp || !x.pkt.enc then (s.noteGlazed l f (openPlain x.pkt (x.opened.getD x.pkt.payload)), true)
  else match s.keyFor n x.pkt.keySlot with
    | (s, .wait) => (s, false)
    | (s, .fails) => (s.noteGlazed l f .noKey, true)
    | (s, .key k) =>
      match openSeal k x.pkt with
      | .inl o => (s.noteGlazed l f o, true)
      | .inr b =>
        if x.pkt.cmp then (s.modLink l (fun k => { k with rxFifo := modRx f (fun y => { y with opened := some b, eng := none }) k.rxFifo }), true)
        else (s.noteGlazed l f (openPlain x.pkt b), true)

/-- The first of the packets whose engine can finish. -/
def State.inboundFirst (n l : Nat) : List RxPkt → State → State
  | [], s => s
  | x :: t, s =>
    let a := s.inboundDone n l x
    if a.2 then a.1 else a.1.inboundFirst n l t

def effInboundGlaze (l : Nat) (s : State) : State :=
  let n := s.servingShelf l
  if s.shelfActive n then State.inboundFirst n l ((s.link l).rxFifo.filter (fun x => x.eng.isSome)) s else s

/-- INBOUND_GLAZE (R137): an engine of the serving shelf finishes its work on a ledger-class packet of the link. An encrypted packet passes a
crypto engine, a compressed one then a compression engine; its outcome travels with it (log entry 133). -/
def execInboundGlaze (l : Fin 256) (s : State) : Host.Outcome State Fault Refusal := .next (effInboundGlaze l s)

/-! ## Self-tests (R159 to R161) -/

/-- Offset of an engine's test within each period of 60 s, in ns. -/
def testOffset (e : Nat) : Nat := if e < 4 then e * 15000000000 else 7500000000 + (e - 4) * 30000000000

/-- The latest time at which a test of the engine fell due; none before the first. -/
def lastDue (now e : Nat) : Option Nat :=
  if now < testOffset e then none else some ((now - testOffset e) / 60000000000 * 60000000000 + testOffset e)

/-- No engine of the shelf is under test. -/
def State.noTest (s : State) (n : Nat) : Bool := (List.range 6).all (fun e => (s.engine n e).testAt.isNone)

def effGlazeSelfTest (n e : Nat) (s : State) : State :=
  match lastDue s.now e with
  | none => s
  | some d =>
    let x := s.engine n e
    if s.engineIdle n e && s.noTest n && decide (x.lastTest ≤ d) then
      s.setEngine n e { x with testAt := some s.now, lastTest := s.now + 1 }
    else s

/-- GLAZE_SELF_TEST (R159, R395): a busy engine finishes its request first; an engine that has failed is tested as before (log entry 65). -/
def execGlazeSelfTest (n : Fin 64) (e : Fin 6) (s : State) : Host.Outcome State Fault Refusal := .next (effGlazeSelfTest n e s)

/-- Every engine of a kind has failed a test. -/
def State.allFailed (s : State) (n : Nat) (es : List Nat) : Bool := es.all (fun e => (s.engine n e).failed)

def effGlazeTestDone (n e : Nat) (pass : Bool) (s : State) : State :=
  let x := s.engine n e
  match x.testAt with
  | none => s
  | some t =>
    if s.now < t + 4000 then s
    else
      let s := s.setEngine n e { x with testAt := none }
      let r := Reg.shGlstat n
      let s := setF s r 31 0 (getF s r 31 0 + 1)
      let s := setB s r (passBit e) pass
      if pass then s
      else
        let s := s.setEngine n e { s.engine n e with failed := true }
        let s := (s.raise n 21).log 1 n 2 21 (rdReg s r)
        if s.allFailed n [0, 1, 2, 3] || s.allFailed n [4, 5] then s.retireShelf n else s

/-- GLAZE_TEST_DONE (R161): the PASS bit shows the last test (Table 5.17). -/
def execGlazeTestDone (n : Fin 64) (e : Fin 6) (pass : Bool) (s : State) : Host.Outcome State Fault Refusal := .next (effGlazeTestDone n e pass s)

/-! ## SH_GLCFG (Table 5.16) -/

def State.writeGlcfg (s : State) (n : Nat) (v : Word) : State :=
  let r := Reg.shGlcfg n
  let old := rdReg s r
  let new := regWrite r.fields v (BitVec.allOnes 64) old
  wrReg s r (if bitAt old 63 then setFld new 9 0 (fld old 9 0) else new)

/-- SH_GLCFG_WRITE (R136, Table 5.16). -/
def execShGlcfgWrite (who : Party) (n : Fin 64) (v : Word) (s : State) : Host.Outcome State Fault Refusal :=
  .next (s.gateWrite who (.shGlcfg n) v (fun s => s.writeGlcfg n v))

end Sys2Proof.Machine
end

