-- ==== Sys2Proof/Machine/RunControl.lean ====
section
/-! DEFINITION. Run control: what a halted core shows and takes, its release, quarantine, and the end of a debug session (R410 to R417). -/

namespace Sys2Proof.Machine

/-! ## The state view (R413, log entry 37) -/

/-- Core and resident store that VX_CORESEL selects; a pair answers through its lead core. -/
def State.selCore (s : State) : Nat :=
  let n := getF s .vxCoresel 63 58
  let i := getF s .vxCoresel 57 54
  16 * n + (if s.paired n then i / 2 * 2 else i)

def State.selStore (s : State) : Nat := getF s .vxCoresel 53 50

/-- The context as PARK would leave it: every ring slot in memory. -/
def Ctx.parkedView (x : Ctx) : Ctx :=
  { x.settle with
    ring := []
    sp := x.sp + BitVec.ofNat 56 (8 * x.ring.length)
    st := if x.st = .free then .free else .parked }

/-- A word of the TSB that the context's TSBP names; open where TSBP names none. -/
def State.tsbWord (s : State) (k : Nat) (x : Ctx) (i : Nat) : Word :=
  match tsbAddr k x.tsbp with
  | some a => s.word (a + i)
  | none => s.free

/-- The word at state index `i` of a store: a field of Table 11.1 as parked, a ring slot from the oldest, or a return-stack entry. -/
def State.stView (s : State) (k r i : Nat) : Word :=
  let x := s.ctx k r
  let z := x.parkedView
  let c := s.core k
  if i < 0x70 then (if 0x10 ≤ i ∧ i < 0x28 then s.tsbWord k x i else (z.latch r 0 0 0 s.free).getD (i / 8) 0)
  else if i < 0x80 then z.etsb.words.getD ((i - 0x70) / 8) 0
  else if i < 0x100 then (z.seg ((i - 0x80) / 16)).words.getD (i / 8 % 2) 0
  else if i < 0x180 then (if c.fpOwn = some r then tget 0 c.fpr ((i - 0x100) / 8) else s.tsbWord k x i)
  else if i = 0x180 then 0
  else if i < 0x200 then (if x.mprog = 0 then s.tsbWord k x i else x.mbuf.getD ((i - 0x188) / 8) 0)
  else if i < 0x400 then
    match x.ring.reverse[(i - 0x200) / 8]? with
    | some (.val w) => w
    | some (.poison _) => s.free
    | _ => 0
  else match x.rstack.reverse[(i - 0x400) / 8]? with
    | some e => place 55 0 e.1.toNat
    | none => 0

/-- The index names a ring slot that is pending, so that PEND is set. -/
def State.stPending (s : State) (k r i : Nat) : Bool :=
  decide (0x200 ≤ i ∧ i < 0x400) && (match (s.ctx k r).ring.reverse[(i - 0x200) / 8]? with | some (.tag _) => true | _ => false)

/-- Replace one word of a capability; its tag clears, as for any data write. -/
def Cap.putWord (c : Cap) (hi : Bool) (w : Word) : Cap :=
  capOfWords (if hi then c.words.getD 0 0 else w) (if hi then w else c.words.getD 1 0) false

/-- A written CCW: every field, whatever its access code; the state written as RUNNING becomes READY, and LOADING, PARKED and WAITING
leave the state as it is. -/
def Ctx.debugCcw (x : Ctx) (w : Word) : Ctx :=
  let y := { x.writeCcw w true with ctx := BitVec.ofNat 20 (fld w 19 0) }
  match fld w 61 59 with
  | 0 => {}
  | 1 => { y with st := .ready, wait := none }
  | 2 => { y with st := .ready, wait := none }
  | 4 => { y with st := .sleeping, wait := none }
  | _ => y

/-- A written RING word: O is not written, since the ring stays where it is. -/
def Ctx.debugRing (x : Ctx) (w : Word) : Ctx :=
  { x with
    wb := x.stacked + x.ring.length - fld w 57 52
    rstack := x.rstack.take (fld w 51 46)
    rsFloor := fld w 45 40
    mprog := BitVec.ofNat 16 (fld w 15 0) }

/-- Write a word of the TSB that TSBP names. -/
def State.putTsbWord (s : State) (k : Nat) (x : Ctx) (i : Nat) (w : Word) : State :=
  match tsbAddr k x.tsbp with
  | some a => s.storeWords (a + i) [w]
  | none => s

/-- Apply one debugger write at state index `i` (R413). -/
def State.stApply (s : State) (k r i : Nat) (w : Word) : State :=
  let x := s.ctx k r
  let put := fun (y : Ctx) => s.setCtx k r y
  if i = 0 then put (x.debugCcw w)
  else if i = 0x08 then put { x with pc := BitVec.ofNat 56 (fld w 55 0) }
  else if i < 0x28 then s.putTsbWord k x i w
  else if i = 0x28 then put { x with asr := w &&& 0x37F }
  else if i = 0x30 then put { x with pkeys := w &&& 0x7777777777777777 }
  else if i = 0x38 then put { x with xlat := w &&& 0xCFFFFFFF00000000 }
  else if i = 0x40 then put { x with s1root := w &&& 0x7FFFFFFFFF000 }
  else if i = 0x48 then put { x with s2root := w &&& 0x7FFFFFFFFF000 }
  else if i = 0x50 then put { x with mph := w }
  else if i = 0x58 then put { x with mpl := w }
  else if i = 0x60 then put (x.debugRing w)
  else if i = 0x68 then put { x with sp := BitVec.ofNat 56 (fld w 55 0) - BitVec.ofNat 56 (8 * x.ring.length) }
  else if i < 0x80 then put { x with etsb := x.etsb.putWord (i / 8 % 2 == 1) w }
  else if i < 0x100 then put (x.setSeg ((i - 0x80) / 16) ((x.seg ((i - 0x80) / 16)).putWord (i / 8 % 2 == 1) w))
  else if i < 0x180 then
    (if (s.core k).fpOwn = some r then s.modCore k (fun c => { c with fpr := tset 0 c.fpr ((i - 0x100) / 8) w }) else s.putTsbWord k x i w)
  else if i = 0x180 then s
  else if i < 0x200 then (if x.mprog = 0 then s.putTsbWord k x i w else put { x with mbuf := x.mbuf.set ((i - 0x188) / 8) w })
  else if i < 0x400 then put { x with ring := (x.ring.reverse.set ((i - 0x200) / 8) (.val w)).reverse }
  else put { x with rstack := (x.rstack.reverse.mapIdx (fun j e => if j = (i - 0x400) / 8 then ((w.setWidth 56 : BitVec 56), e.2) else e)).reverse }

/-! ## Release (R414, R417) -/

/-- The context that a trace packet of a halt or a release names. -/
def State.traceCtx (s : State) (k : Nat) : BitVec 20 :=
  match (s.core k).run with
  | some r => (s.ctx k r).ctx
  | none => 0

/-- A packet of KIND HALT (1) or RUN (2), in the core's order with its stimulus packets (R420, log entry 38). -/
def State.traceKind (s : State) (k kind : Nat) : State :=
  if getB s .vxTrcfg 63 then s.stimulus k 0 kind (s.traceCtx k) 0 else s

/-- Debugger writes take effect at release. -/
def State.applyWrites (s : State) (k : Nat) : State :=
  let s := foldS (s.vexek.stWrites.filter (fun w => w.1 == k)) (fun s w => s.stApply k w.2.1 w.2.2.1 w.2.2.2) s
  s.modVexek (fun v => { v with stWrites := v.stWrites.filter (fun w => w.1 != k) })

/-- The core resumes issue: its watchdog counts from at least 4,096 ic, and its EVTMR compare is evaluated again (R417, Table 17.6). -/
def State.releaseCore (s : State) (k : Nat) : State :=
  if (s.core k).halted then
    let s := s.applyWrites k
    let s := s.modCore k (fun c => { c with halted := false, haltReq := false, step := false })
    ((s.wdogResume k 4096).sampleTmr k).traceKind k 2
  else if (s.core k).haltReq || (s.core k).step then (s.modCore k (fun c => { c with haltReq := false, step := false })).wdogResume k 4096
  else s

/-! ## Quarantine (R416) -/

/-- Empty every store of a core, as FREE does. -/
def State.emptyStores (s : State) (k : Nat) : State :=
  let s := { s with ctxs := dropKeys s.ctxs (16 * k) (16 * k + 16) }
  let s := s.modCore k (fun c => { c with run := none, seg := none, fpOwn := none, fpr := [], fpPend := [], fpPoison := [] })
  s.noteIdle k

/-- Clear the quarantine of a slot: its stores are freed, writes that the debugger has not released go with them, its halt is released,
STEWARD is raised. -/
def State.clearQuarantine (s : State) (n i : Nat) : State :=
  let k := 16 * n + i
  let s := s.modVexek (fun v => { v with quar := v.quar.filter (· ≠ (n, i)), stWrites := v.stWrites.filter (fun w => w.1 != k) })
  ((s.emptyStores k).releaseCore k).raiseSteward n

/-- A quarantine that is still draining ends: the holds are released, but for those of a pairing hand-over. -/
def State.dropDraining (s : State) : State :=
  match s.vexek.draining with
  | some (n, i, _) => (if (s.shelf n).handover.isSome then s else s.freeHolds (16 * n + i)).modVexek (fun v => { v with
      draining := none
      quar := v.quar.filter (· ≠ (n, i)) })
  | none => s

/-! ## Sessions (R409, R410) -/

/-- The log engine's record of a session event: 1 open, 2 close, 3 failure, 4 lock (log entry 21). -/
def State.logSession (s : State) (what : Nat) : State := s.log 3 0 0 0 (BitVec.ofNat 64 what)

/-- The session ends: halts and quarantines are released, WDLOGONLY clears; the trace configuration is kept (R410). -/
def State.endSession (s : State) : State :=
  if s.vexek.level = 0 then s
  else
    let s := s.dropDraining
    let s := foldS s.vexek.quar (fun s q => s.clearQuarantine q.1 q.2) s
    let s := foldS s.cores (fun s c => s.releaseCore c.1) s
    let s := s.modVexek (fun v => { v with level := 0, shelves := 0, chal := false, eph := none, wdLogOnly := false, stWrites := [], pendingRead := none, readData := none })
    s.logSession 2

end Sys2Proof.Machine
end

