-- ==== Sys2Proof/Machine/ShelfMem.lean ====
section
/-! DEFINITION. Shelf memory: corrected errors (R305), wedging (R312 to R315) and the wipe of saggar (R309 to R311), with their rows. -/

namespace Sys2Proof.Machine

/-! ## Check code (R305) -/

/-- The entry, key slot or cached key that holds offset `off` is read beyond correction and taken from its other copy (Table 12.3); where no other
copy can be reached nothing changes (log entry 143). -/
def State.otherCopy (s : State) (n off : Nat) : State :=
  let b := buddy n
  let h := s.shelf n
  let t := s.shelf b
  if off < 0x14000 then
    if s.saggarOpen n && s.saggarOpen b then s.setShelf n { h with homeKeys := tset {} h.homeKeys (off / 80) (tget {} t.mirrorKeys (off / 80)) } else s
  else if off < 0x28000 then
    let i := (off - 0x14000) / 80
    if s.saggarOpen n && s.saggarOpen b then s.setShelf n { h with mirrorKeys := tset {} h.mirrorKeys i (tget {} t.homeKeys i) } else s
  else if off < 0x2D000 then s.setShelf n { h with keyCache := h.keyCache.eraseIdx ((off - 0x28000) / 80) }
  else if off < 0x40000 then s
  else if off < 0x80000 then
    let i := (off - 0x40000) / 64
    if h.mode == .buddy && s.shelfActive b then s.setShelf n { h with entries := tset {} h.entries i { tget {} t.mirror i with prep := false } } else s
  else
    let i := (off - 0x80000) / 64
    if t.mode == .buddy && s.shelfActive b then s.setShelf n { h with mirror := tset {} h.mirror i { tget {} t.entries i with retries := 0 } } else s

/-- A word, or a granule whose tag copies differ, is beyond correction. In the general region it stays so until a master writes it whole, and its
readers act as Table 12.3 gives; the ledger unit and the key hardware meet it at once (log entry 143). -/
def State.eccLost (s : State) (n off len : Nat) : State :=
  if inGeneral off then s.spoil (shelfAddr n off) len else (s.eccUnc (shelfAddr n off)).otherCopy n off

def effEccRewrite (n off : Nat) (f : EccFinding) (s : State) : State :=
  if s.shelfGone n then s
  else match f with
    | .word => s.eccLost n (off / 8 * 8) 8
    | .granule => s.eccLost n (off / 16 * 16) 16
    | .corrected =>
      if tget false s.bad (shelfAddr n off / 8) then s
      else
        let s := bumpF s (.shEcc n) 63 48 1
        (setF s (.shEcc n) 20 0 (off / 8 * 8)).raise n 17

/-- ECC_REWRITE (R304, R305): a read has corrected a single-bit error, and the word is rewritten with the value that it always read as; or the word
or its granule is beyond correction. -/
def execEccRewrite (n : Fin 64) (e : EccReport) (s : State) : Host.Outcome State Fault Refusal :=
  .next (effEccRewrite n.val e.off.val e.found s)

/-! ## Wedging (R312 to R315) -/

/-- Steps of a pass: the regions of a shelf, then its 128 spare rows. -/
def wedgeRegions : Nat := 8192
def wedgeSteps : Nat := 8320

/-- A saggar region while its shelf is being wiped. -/
def State.wedgeBarred (s : State) (n r : Nat) : Bool := decide (r < 1024) && (s.shelf n).wiping.isSome

def effWedgeStep (n : Nat) (s : State) : State :=
  let h := s.shelf n
  let r := getF s (.shWedge n) 13 0
  if s.shelfGone n = false ∧ getB s (.shWedge n) 63 ∧ getB s (.shWedge n) 62 = false ∧ h.wedge.isNone ∧ h.wedgeAt ≤ s.now ∧ s.wedgeBarred n r = false then
    s.setShelf n { h with
      wedge := some { region := r, since := s.now }
      wedgeAt := s.now + getF s (.shWedge n) 47 32 * 1000 }
  else s

/-- WEDGE_STEP (R312): the shadow serves the region with the same contents, so nothing that is read changes. -/
def execWedgeStep (n : Fin 64) (s : State) : Host.Outcome State Fault Refusal := .next (effWedgeStep n.val s)

/-- Spare rows of a bank that are not in use, lowest first. -/
def Shelf.freeSpares (h : Shelf) (bank : Nat) : List Nat :=
  ((List.range 8).map (fun j => 8 * bank + j)).filter (fun i => (alook i h.spareMap).isNone)

/-- A spare row is used from now on: for a region, or marked as failed (`wedgeRegions`). -/
def State.takeSpare (s : State) (n i region : Nat) : State :=
  let s := s.modShelf n (fun h => { h with spareMap := aput i region (h.spareMap.map (fun e => if e.2 = region then (e.1, wedgeRegions) else e)) })
  let b := i / 8
  setF s (.shRepair n) (4 * b + 3) (4 * b) (min 8 (getF s (.shRepair n) (4 * b + 3) (4 * b) + 1))

/-- The row of region `r` fails: it is mapped to the lowest free spare row of its bank; none where the bank has no spare (R315). -/
def State.repairRow (s : State) (n r : Nat) : Option State :=
  match (s.shelf n).freeSpares (r / 512) with
  | i :: _ => some ((s.takeSpare n i r).raise n 20)
  | [] => none

/-- The next step of the pass. -/
def State.wedgeAdvance (s : State) (n : Nat) : State :=
  let r := getF s (.shWedge n) 13 0 + 1
  if r < wedgeSteps then setF s (.shWedge n) 13 0 r
  else setF (setF s (.shWedge n) 13 0 0) (.shWedge n) 31 16 (getF s (.shWedge n) 31 16 + 1)

def effWedgeStepEnd (n : Nat) (fail : Bool) (s : State) : State :=
  match (s.shelf n).wedge with
  | none => s
  | some w =>
    if w.since + s.icNs (16 * n) 384 ≤ s.now then
      let t := s.modShelf n (fun h => { h with wedge := none })
      if !fail then t.wedgeAdvance n
      else if w.region < wedgeRegions then
        match t.repairRow n w.region with
        | some u => u.wedgeAdvance n
        | none => (setB t (.shWedge n) 62 true).raise n 19
      else
        let i := w.region - wedgeRegions
        (if (alook i (t.shelf n).spareMap).isNone then t.takeSpare n i wedgeRegions else t).wedgeAdvance n
    else s

/-- WEDGE_STEP_END (R313, R315), 384 ic after the step began. -/
def execWedgeStepEnd (n : Fin 64) (fail : Bool) (s : State) : Host.Outcome State Fault Refusal := .next (effWedgeStepEnd n.val fail s)

/-- A write of SH_WEDGE: WEN clears only in MANUFACTURE. -/
def State.writeWedge (s : State) (n : Nat) (v : Word) : State :=
  s.plainWrite (.shWedge n) (if s.fuses.lc = 0 then v else v ||| bitIf 63 true)

def effShWedgeWrite (who : Party) (n : Nat) (v : Word) (s : State) : State := s.gateWrite who (.shWedge n) v (fun s => s.writeWedge n v)

/-- SH_WEDGE_WRITE (R312). -/
def execShWedgeWrite (who : Party) (n : Fin 64) (v : Word) (s : State) : Host.Outcome State Fault Refusal := .next (effShWedgeWrite who n.val v s)

/-! ## Keys that the warden firmware draws (R144, R309) -/

/-- A key of 256 bits that nothing constrains (log entry 3). -/
def State.freeKey (s : State) : BitVec 256 :=
  ((Config.freeValue s.freeCtr ++ Config.freeValue (s.freeCtr + 1)) ++ (Config.freeValue (s.freeCtr + 2) ++ Config.freeValue (s.freeCtr + 3)) : BitVec 256)

/-- A new transport key for every shelf, and a new sealing key with counter 0 for each: at cold start, after a wipe, at a life-cycle
transition. -/
def State.drawKeys (s : State) : State :=
  let t := s.freeKey
  foldS (List.range 64) (fun s n =>
    { (s.modShelf n (fun h => { h with transportKey := some t, sealKey := s.freeKey, sealCtr := 0 })) with freeCtr := s.freeCtr + 4 })
    { s with freeCtr := s.freeCtr + 4 }

/-! ## The wipe (R310, R311, Table 12.5) -/

/-- The shelf's power domain is up. -/
def State.shelfPowered (s : State) (n : Nat) : Bool := s.power.pgd.getLsbD (groupOf n)

/-- The request works under a key of a slot: a seal or an XTS command. -/
def GlazeReq.keyed (r : GlazeReq) : Bool := r.op != 1 || r.packet.enc

/-- A seal or open in an engine completes with NOKEY and sends nothing. -/
def Engine.wiped (e : Engine) : Engine :=
  match e.req with
  | some r => if r.keyed && !e.outDone then { e with out := some (r.fails glNoKey), outDone := false } else e
  | none => e

/-- The contents of saggar are zero; crypto engines lose their keys; key fills fail; a wedging step of a saggar bank is abandoned. -/
def Shelf.wiped (h : Shelf) : Shelf :=
  { h with
    homeKeys := []
    mirrorKeys := []
    keyCache := []
    transportKey := none
    sealKey := 0
    sealCtr := 0
    keyMiss := h.keyMiss.map (fun m => (m.1, true))
    engines := (List.range 4).foldl (fun t e => tset {} t e (tget {} h.engines e).wiped) h.engines
    wedge := match h.wedge with
      | some w => if w.region < 1024 then none else some w
      | none => none }

/-- A key command in progress ends with NOAUTH. -/
def State.keyAborted (s : State) : State :=
  match s.keyCmd with
  | some c => s.keyDone c.slot keyNoAuth
  | none => s

/-- A wipe starts in every shelf, or is merged into the one that runs; CAUSE is 1 TAMPER_N, 2 a life-cycle transition. -/
def State.startWipe (s : State) (cause : Nat) : State :=
  if getB s .glWipe 63 then setF s .glWipe 62 61 cause
  else
    let s := bumpF (setF (setB s .glWipe 63 true) .glWipe 62 61 cause) .glWipe 47 32 1
    let s := s.endSession.keyAborted
    foldS (List.range 64) (fun s n => s.modShelf n (fun h =>
      if s.shelfPowered n then { h.wiped with saggarClosed := true, wiping := some 0 } else h.wiped)) s

/-- A digest of the owner that the firmware fuses, from free value `j` on (log entry 94). -/
def State.ownerDigest (s : State) (j : Nat) : BitVec 384 :=
  BitVec.ofNat 384 (leNat ((List.range 6).flatMap (fun i => wordBytes (Config.freeValue (s.freeCtr + j + i)))))

/-- Steps 2 to 4 of a life-cycle transition (R376, R312, R375, R407): the fuses, GL_SPLITOK, WEN of every shelf on leaving MANUFACTURE, EN of
every link in RETIRED, the owner's debug key and certificate on entering PROVISIONED (Table 18.8), a log record. -/
def State.applyLc (s : State) (t : BitVec 2) : State :=
  let old := s.fuses.lc
  let first := old == 0 && t == 1
  let s := { s with
    fuses := { s.fuses with
      lc := t
      returns := if old = 2 ∧ t = 1 then s.fuses.returns + 1 else s.fuses.returns
      ownerKey := if first then s.ownerDigest 0 else s.fuses.ownerKey
      ownerCert := if first then s.ownerDigest 6 else s.fuses.ownerCert }
    freeCtr := if first then s.freeCtr + 12 else s.freeCtr
    warden := { s.warden with shadowLc := none } }
  let s := wrReg s .glSplitok 0
  let s := if old = 0 then foldS (List.range 64) (fun s n => setB s (.shWedge n) 63 true) s else s
  let s := if t = 3 then foldS (List.range 256) (fun s l => s.writeLkCfg l (rdReg s (.lkCfg l) &&& ~~~ bitIf 63 true)) s else s
  s.log 3 0 0 0 (place 1 0 t.toNat)

/-- The wipe has ended in every shelf: BUSY falls, WIPEDONE, a log record, the life-cycle transition that waits for it,
and the keys that the warden firmware draws. -/
def State.wipeEnds (s : State) : State :=
  if getB s .glWipe 63 && (List.range 64).all (fun n => (s.shelf n).wiping.isNone) then
    let s := ((setB s .glWipe 63 false).wsrc 24 EvSrc.pulse).log 3 0 0 24 (rdReg s .glWipe)
    let s := match s.warden.shadowLc with
      | some t => s.applyLc t
      | none => s
    s.drawKeys
  else s

def effTamper (s : State) : State := if s.power.block = .unpowered ∨ s.power.block = .poweredDown then s else (s.startWipe 1).wipeEnds

/-- TAMPER (R310). -/
def execTamper (s : State) : Host.Outcome State Fault Refusal := .next (effTamper s)

def effWipeDone (n : Nat) (ok : Bool) (s : State) : State :=
  match (s.shelf n).wiping with
  | none => s
  | some c =>
    if ok then (s.modShelf n (fun h => { h with wiping := none, saggarClosed := getB s .glWipefail n })).wipeEnds
    else if c < 2 then s.modShelf n (fun h => { h with wiping := some (c + 1) })
    else
      let s := setB (s.modShelf n (fun h => { h with wiping := none })) .glWipefail n true
      (s.retireShelf n).wipeEnds

/-- WIPE_DONE (R310, R311): the third failure retires the shelf, and its saggar stays closed. -/
def execWipeDone (n : Fin 64) (ok : Bool) (s : State) : Host.Outcome State Fault Refusal := .next (effWipeDone n.val ok s)

end Sys2Proof.Machine
end

