-- ==== Sys2Proof/Machine/FaultTol.lean ====
section
/-! DEFINITION. Fault tolerance: DET and pairing of slots (R182, R352 to R354), retry (R343, R344), sparing (R345 to R347), duplicated units
(R349), GL_SPLITOK, with their rows. -/

namespace Sys2Proof.Machine

/-! ## Slots and cores -/

/-- SPARE of SH_CORESTAT. -/
def State.spare (s : State) (n : Nat) : Nat := getF s (.shCorestat n) 63 59
def State.setSpare (s : State) (n c : Nat) : State := setF s (.shCorestat n) 63 59 c
/-- Put physical core `c` into slot `i`. -/
def State.setPhys (s : State) (n i c : Nat) : State :=
  setF s (if i < 8 then .shSlotmap0 n else .shSlotmap1 n) (5 * (i % 8) + 4) (5 * (i % 8)) c

/-- The active slot that a physical core serves. -/
def State.slotOf (s : State) (n c : Nat) : Option Nat := (List.range 16).find? (fun i => s.physOf n i == c && !s.slotOff n i)

/-- Active logical cores: pairs in PAIRED mode, slots in SPLIT mode; a slot in quarantine never counts against MINLC (R416). -/
def State.logicalCores (s : State) (n : Nat) : Nat :=
  ((List.range 16).filter (fun i => s.unitOf n i == i && (!s.slotOff n i || s.vexek.quar.contains (n, i)))).length

/-! ## Core loss (R65, R102, Table 11.11) -/

/-- Empty a core that is lost: contexts, private bank, priority stack, TLB; DFCNT stays. A shared source active on the slot is
deactivated, and pending edges stay. -/
def State.coreLoss (s : State) (k : Nat) : State :=
  let n := keyShelf k
  let ids := ((List.range 16).filter (fun r => (s.ctx k r).resident)).map (fun r => (s.ctx k r).ctx)
  let s := if (s.core k).halted || (s.core k).haltReq then setB s .vxStat 59 true else s
  let s := { s with ctxs := dropKeys s.ctxs (16 * k) (16 * k + 16) }
  let s := s.setCore k (s.core k).kept
  let s := s.mapQueues (fun _ q => q.voidCore k)
  let s := foldS (s.evsrcs.filter (fun e => e.1 / 256 == n && e.2.act && 16 * n + s.routed n e.2.target.toNat == k))
    (fun s e => s.setSrc n (e.1 % 256) { e.2 with act := false }) s
  (s.coreLossLedger n ids).noteIdle k

/-! ## Sparing (R345 to R347) -/

/-- Causes of SH_FTSTAT. -/
def cMismatch : Nat := 1
def cLag : Nat := 2
def cParity : Nat := 3
def cReset : Nat := 4
def cNoSpare : Nat := 5

/-- The steward's reaction with SH_FTSTAT (R346 step 3, R367). -/
def State.ftReaction (s : State) (n : Nat) : State := s.reaction n 1 (rdReg s (.shFtstat n))

/-- Retire the shelf when too few logical cores are left (Table 14.4). -/
def State.checkMinlc (s : State) (n : Nat) : State := if s.logicalCores n < getF s (.shFtcfg n) 55 51 then s.retireShelf n else s

/-- Sparing of slot `i`, whose core `x` leaves. -/
def State.spareSlot (s : State) (n i x cause : Nat) : State :=
  let s := s.coreLoss (16 * n + s.unitOf n i)
  let c := s.spare n
  if c < 17 then
    let s := (s.setPhys n i c).setSpare n 31
    let s := setF (setF (bumpF s (.shFtstat n) 15 8 1) (.shFtstat n) 7 4 i) (.shFtstat n) 3 0 cause
    let s := s.modShelf n (fun h => { h with arrived := tset none h.arrived (s.unitOf n i) (some c), coreTest := h.coreTest ++ [x] })
    s.ftReaction n
  else
    let s := foldS (s.unitSlots n i) (fun s j => setB s (.shCorestat n) (26 + j) true) s
    let s := setF (setF s (.shFtstat n) 7 4 i) (.shFtstat n) 3 0 cNoSpare
    (s.ftReaction n).checkMinlc n

/-- The core of a pair that leaves on a mismatch, with its slot: the one that did not arrive at the pair's previous sparing, else the lead. -/
def State.leaver (s : State) (n i : Nat) : Nat × Nat :=
  let e := i / 2 * 2
  match tget none (s.shelf n).arrived e with
  | some a => if s.physOf n e = a then (e + 1, s.physOf n (e + 1)) else (e, s.physOf n e)
  | none => (e, s.physOf n e)

/-! ## Retry (R343, R344) -/

/-- A retry of core `k`: the instruction in X and its SEG prefix begin again. What re-execution issues again from the checkpoint is what
the state already holds (log entry 39). -/
def State.retryCore (s : State) (k : Nat) : State :=
  let s := match (s.core k).run with
    | some r => s.modCtx k r (fun x => { x with wait := none })
    | none => s
  let s := s.modCore k (fun c => { c.flushed with sinceRetry := some 0 })
  bumpF s (.shFtstat (keyShelf k)) 63 48 1

/-- The last retry of the core is within the persistence window (R344). -/
def State.persistent (s : State) (k : Nat) : Bool :=
  match (s.core k).sinceRetry with
  | some c => decide (c < getF s (.shFtcfg (keyShelf k)) 63 56 * 256)
  | none => false

def effPairMismatch (n i cause : Nat) (s : State) : State :=
  let k := 16 * n + 2 * i
  if s.shelfActive n = false ∨ s.paired n = false ∨ s.slotOff n (2 * i) = true ∨ (s.core k).resetDue = true
    ∨ tget none (s.shelf n).parityAt (2 * i) = some s.now then s
  else
    let s := bumpF s (.shFtstat n) 47 32 1
    if s.persistent k then
      let x := s.leaver n (2 * i)
      s.spareSlot n x.1 x.2 cause
    else s.retryCore k

/-- PAIR_MISMATCH (R342, R343, R345): one in the ic of a parity error of the pair, which is commanded first, adds nothing (Table 14.5, log
entry 39). -/
def execPairMismatch (n : Fin 64) (i : Fin 8) (s : State) : Host.Outcome State Fault Refusal := .next (effPairMismatch n.val i.val cMismatch s)

/-- PAIR_LAG (R342). -/
def execPairLag (n : Fin 64) (i : Fin 8) (s : State) : Host.Outcome State Fault Refusal := .next (effPairMismatch n.val i.val cLag s)

/-- The TLB entry or the cache line with the parity error is invalidated (R164, R344). -/
def Core.invalidate (c : Core) : ParityArray → Core
  | .tlb i => { c with tlb := adel i.val c.tlb }
  | .icache i w => { c with icache := tmod {} c.icache i.val (fun x => { x with ways := tdel w.val x.ways }) }
  | _ => c

/-- A parity error in a core array. -/
def State.coreParity (s : State) (n phys : Nat) (arr : ParityArray) : State :=
  match s.slotOf n phys with
  | none => s
  | some i =>
    let k := 16 * n + s.unitOf n i
    if s.shelfActive n = false ∨ (s.core k).resetDue = true then s
    else
      let s := (bumpF s (.shFtstat n) 31 16 1).modShelf n (fun h => { h with parityAt := tset none h.parityAt (s.unitOf n i) (some s.now) })
      if arr = .checkpoint ∨ s.persistent k = true then s.spareSlot n i phys cParity
      else (s.modCore k (fun c => c.invalidate arr)).retryCore k

def effParityError (n phys : Nat) (arr : ParityArray) (s : State) : State :=
  match arr with
  | .hostWrite p => s.modPort p.val (fun x => { x with parity := true })
  | _ => s.coreParity n phys arr

/-- PARITY_ERROR (R343 to R345, R350). The table has no row for the parity of host-port write data; its operand says where the error is
(log entry 141). -/
def execParityError (n : Fin 64) (phys : Fin 17) (arr : ParityArray) (s : State) : Host.Outcome State Fault Refusal :=
  .next (effParityError n.val phys.val arr s)

def effCoretestDone (n c : Nat) (pass : Bool) (s : State) : State :=
  if (s.shelf n).coreTest.contains c then
    let s := s.modShelf n (fun h => { h with coreTest := h.coreTest.filter (· ≠ c) })
    if pass then s.setSpare n c else setB s (.shCorestat n) (42 + c) true
  else s

/-- CORETEST_DONE (R346 step 4). -/
def execCoretestDone (n : Fin 64) (phys : Fin 17) (pass : Bool) (s : State) : Host.Outcome State Fault Refusal :=
  .next (effCoretestDone n.val phys.val pass s)

/-- A core of a shelf that a failed entry has stopped is reset, and its slot passes to the spare (R287, R345). -/
def State.shelfCoreReset (s : State) (k : Nat) : State :=
  let n := keyShelf k
  if (s.core k).resetDue ∧ s.shelfActive n then s.spareSlot n (keySlot k) (s.physOf n (keySlot k)) cReset else s

/-! ## DET (R182) -/

/-- Apply SHADOW of SH_DETCFG, or reject it. -/
def State.commitDet (s : State) (n : Nat) : State :=
  let sh := getF s (.shDetcfg n) 15 0
  let bad := decide (4 < popcount (BitVec.ofNat 64 sh)) || (s.paired n && (List.range 8).any (fun i => sh / 2 ^ (2 * i) % 2 != sh / 2 ^ (2 * i + 1) % 2))
  if bad then setB s (.shDetcfg n) 62 true
  else
    let s := foldS ((List.range 16).filter (fun i => getB s (.shDetcfg n) (32 + i) != getB s (.shDetcfg n) i))
      (fun s i => s.modCore (16 * n + s.unitOf n i) (fun c => { c with fetchMiss := none, fetchBad := none })) s
    setB (setF s (.shDetcfg n) 47 32 sh) (.shDetcfg n) 62 false

/-- A write of SH_DETCFG; a COMMIT during a pairing hand-over waits for its end (R354). -/
def State.writeDetcfg (s : State) (n : Nat) (v : Word) : State :=
  let s := s.plainWrite (.shDetcfg n) v
  if !bitAt v 63 then s
  else if (s.shelf n).handover.isSome then s.modShelf n (fun h => { h with detWaiting := true })
  else s.commitDet n

def effShDetcfgCommit (who : Party) (n : Nat) (v : Word) (s : State) : State := s.gateWrite who (.shDetcfg n) v (fun s => s.writeDetcfg n v)

/-- SH_DETCFG_COMMIT (R182). -/
def execShDetcfgCommit (who : Party) (n : Fin 64) (v : Word) (s : State) : Host.Outcome State Fault Refusal :=
  .next (effShDetcfgCommit who n.val v s)

/-! ## Changing between PAIRED and SPLIT (R352 to R354) -/

/-- Keys of the cores of a shelf that may hold contexts. -/
def State.shelfKeys (s : State) (n : Nat) : List Nat := ((List.range 16).filter (fun i => s.unitOf n i == i)).map (fun i => 16 * n + i)

/-- Mark every resident context of a core for holding; those at a transaction boundary are held. -/
def State.markHolds (s : State) (k : Nat) : State :=
  (foldS (List.range 16) (fun s r => if (s.ctx k r).resident then s.modCtx k r (fun x => { x with hold := true }) else s) s).holdAll k

/-- Release the holds of a shelf's contexts, but for a slot whose quarantine drains. -/
def State.releaseHolds (s : State) (n : Nat) : State :=
  foldS (s.shelfKeys n) (fun s k => match s.vexek.draining with
    | some (m, i, _) => if k = 16 * m + i then s else s.freeHolds k
    | none => s.freeHolds k) s

/-- A COMMIT that R352 rejects. -/
def State.pairReject (s : State) (n : Nat) (toSplit : Bool) : Bool :=
  if toSplit then s.fuses.lc == 2 && !getB s .glSplitok n
  else (List.range 8).any (fun i => (List.range 16).any (fun r => (s.ctx (16 * n + 2 * i + 1) r).resident))
    || (List.range 8).any (fun i => getB s (.shDetcfg n) (32 + 2 * i) != getB s (.shDetcfg n) (33 + 2 * i))

/-- A write of SH_PAIRCFG. -/
def State.writePaircfg (s : State) (n : Nat) (v : Word) : State :=
  let s := s.plainWrite (.shPaircfg n) v
  let split := getB s (.shPaircfg n) 57
  if !bitAt v 63 || (s.shelf n).handover.isSome || split == getB s (.shPaircfg n) 56 then s
  else if s.pairReject n split then setB s (.shPaircfg n) 62 true
  else
    let s := setB (setB (setB s (.shPaircfg n) 62 false) (.shPaircfg n) 61 false) (.shPaircfg n) 60 true
    let s := s.modShelf n (fun h => { h with handover := some { split := split, since := s.now } })
    foldS (s.shelfKeys n) (fun s k => s.markHolds k) s

def effShPaircfgCommit (who : Party) (n : Nat) (v : Word) (s : State) : State := s.gateWrite who (.shPaircfg n) v (fun s => s.writePaircfg n v)

/-- SH_PAIRCFG_COMMIT (R352, R353). -/
def execShPaircfgCommit (who : Party) (n : Fin 64) (v : Word) (s : State) : Host.Outcome State Fault Refusal :=
  .next (effShPaircfgCommit who n.val v s)

/-- Hold what is due on each core of a shelf; a core whose running context is held goes on with another, or idles. -/
def State.holdShelf (s : State) (n : Nat) : State :=
  foldS (s.shelfKeys n) (fun s k => if (s.core k).halted then s else (s.holdAll k).schedule k) s

def effDraintoExpiry (n : Nat) (s : State) : State :=
  match (s.shelf n).handover with
  | some h =>
    if h.since + getF s (.shPaircfg n) 55 40 * 1000 ≤ s.now then
      (s.modShelf n (fun x => { x with handover := some { h with drained := true } })).holdShelf n
    else s
  | none => s

/-- DRAINTO_EXPIRY (R353 step 2): from now on a context is held at any instruction boundary. -/
def execDraintoExpiry (n : Fin 64) (s : State) : Host.Outcome State Fault Refusal := .next (effDraintoExpiry n.val s)

/-- A store of core `k` waits for the answer of a host port. -/
def State.storePending (s : State) (k : Nat) : Bool := s.ports.any (fun p => p.2.reqs.any (fun r => r.2.who == .store k))

/-- Every context of the shelf is held and every store buffer is empty (R353 step 3). -/
def State.allHeld (s : State) (n : Nat) : Bool :=
  (s.shelfKeys n).all (fun k => decide ((s.core k).sbuf = []) && !s.storePending k && (List.range 16).all (fun r => !(s.ctx k r).resident || (s.ctx k r).held))

/-- The hand-over is over: holds are released and a waiting SH_DETCFG COMMIT applies. -/
def State.handoverEnds (s : State) (n : Nat) : State :=
  let s := setB (s.releaseHolds n) (.shPaircfg n) 60 false
  let waiting := (s.shelf n).detWaiting
  let s := s.modShelf n (fun h => { h with handover := none, detWaiting := false })
  if waiting then s.commitDet n else s

/-- The trail core as it leaves the pair: what the lead core has, without contexts, TLB, FP ownership and events (R353 step 4, log entry 145). -/
def Core.trail (c : Core) : Core :=
  { c.flushed with
    run := none, tlb := [], adWait := none, fpOwn := none, fpr := [], fpPend := [], fpPoison := [], rps := [], claim := none, window := none,
    srcs := [], mov := none, sel := [], stim := [], sinceRetry := none }

/-- A core of an odd slot as the hand-over leaves it: to SPLIT the trail core without contexts; to PAIRED the pair's state is that of its
lead core. -/
def State.switchOdd (s : State) (n i : Nat) (split : Bool) : State :=
  let k := 16 * n + 2 * i + 1
  { s with
    cores := tset {} s.cores k (if split then (s.core (16 * n + 2 * i)).trail else (s.core k).kept)
    ctxs := dropKeys s.ctxs (16 * k) (16 * k + 16) }

def effPairHandoverSwitch (n : Nat) (s : State) : State :=
  match (s.shelf n).handover with
  | none => s
  | some h =>
    let t := s.holdShelf n
    if t.allHeld n && decide (s.now ≤ h.since + 50000 + s.icNs (16 * n) 1024) then
      let t := foldS (List.range 8) (fun s i => s.switchOdd n i h.split) t
      let t := setB t (.shPaircfg n) 56 h.split
      let t := (t.handoverEnds n).ftReaction n
      if h.split then t
      else foldS (List.range 8) (fun s i => s.modCore (16 * n + 2 * i) (fun c => { c with fetchMiss := none, fetchBad := none })) t
    else t

/-- PAIR_HANDOVER_SWITCH (R353 steps 3 to 5): step 4 has begun within 50 µs of the COMMIT and takes 1,024 ic. MODE becomes the SHADOW that the
COMMIT accepted (log entry 145). -/
def execPairHandoverSwitch (n : Fin 64) (s : State) : Host.Outcome State Fault Refusal := .next (effPairHandoverSwitch n.val s)

def effHandoverTimeout (n : Nat) (s : State) : State :=
  match (s.shelf n).handover with
  | some h => if h.since + 50000 ≤ s.now then setB (s.handoverEnds n) (.shPaircfg n) 61 true else s
  | none => s

/-- HANDOVER_TIMEOUT (R353): MODE is unchanged. -/
def execHandoverTimeout (n : Fin 64) (s : State) : Host.Outcome State Fault Refusal := .next (effHandoverTimeout n.val s)

/-! ## GL_SPLITOK (R352) -/

/-- A write of GL_SPLITOK by a path other than a host port's CTL-WR is ignored and counted (R12, R352). -/
def State.writeSplitok (s : State) (who : Party) (v : Word) : State :=
  match who with
  | .host _ => s.plainWrite .glSplitok v
  | _ => s.violate who true 0x900

def effGlSplitokWrite (who : Party) (v : Word) (s : State) : State := s.gateWrite who .glSplitok v (fun s => s.writeSplitok who v)

/-- GL_SPLITOK_WRITE (R352). -/
def execGlSplitokWrite (who : Party) (v : Word) (s : State) : Host.Outcome State Fault Refusal := .next (effGlSplitokWrite who v s)

/-! ## Duplicated units (R349) -/

/-- A grant checker raises the STEWARD source of the shelf that its port attaches to (R22): port p to shelf p of the top row, or of the
bottom row from port 8 on. -/
def portShelf (p : Nat) : Nat := if p < 8 then p else 56 + (p - 8)

def effDupMismatch (u : DupUnit) (s : State) : State :=
  match u with
  | .shelfSteward n => s.retireShelf n.val
  | .groupSteward g =>
    let s := s.modPower (fun p => { p with groupPassed := p.groupPassed ||| BitVec.ofNat 8 (2 ^ g.val) })
    let s := foldS (List.range 8) (fun s i => s.raiseSteward (8 * i + g.val)) s
    s.groupReaction (g.val ^^^ 1) 2 (s.linkAlt.setWidth 64)
  | .grantChecker p => (s.modPort p.val (fun x => { x with grantBroken := true })).reaction (portShelf p.val) 2 (rdReg s (.hpStat p.val))
  | .damper l => (s.modLink l.val (fun x => { x with damperBroken := true })).reaction (s.servingShelf l.val) 2 (rdReg s (.lkDamp l.val))

/-- DUP_MISMATCH (R349). -/
def execDupMismatch (u : DupUnit) (s : State) : Host.Outcome State Fault Refusal := .next (effDupMismatch u s)

end Sys2Proof.Machine
end

