-- ==== Sys2Proof/Machine/Warden.lean ====
section
/-! DEFINITION. The warden: island reset, bisque boot, trial, SVN floor (R361 to R365), sensors (R366), log records (R367), life cycle
(R375, R376), runtime vector (R372), with their rows, and the reset of a core (R287). -/

namespace Sys2Proof.Machine

/-! ## Reset of the warden island (R362, R365, R371) -/

/-- The warden island is reset: its core, its contexts and the firmware's state go; the firing log records it (R367). -/
def State.wardenIslandReset (s : State) : State :=
  let s := { s with
    cores := tset {} s.cores wardenKey (s.core wardenKey).kept
    ctxs := dropKeys s.ctxs (16 * wardenKey) (16 * wardenKey + 16)
    warden := s.warden.kept s.now }
  (setB s .wdBoot 62 false).log 3 0 1 0 0

/-- In a session at WARDEN level a timer of the warden writes a log record in place of resetting the island (R417). -/
def State.orLogOnly (s : State) (f : State → State) : State :=
  if s.vexek.level = 3 then (s.modVexek (fun v => { v with wdLogOnly := true })).log 3 0 1 1 0 else f s

def effWardenWdogReset (s : State) : State :=
  let c := s.core wardenKey
  match c.wexpAt with
  | some d =>
    if c.wexp ∧ d + 100000000 ≤ s.now then
      (s.modCore wardenKey (fun c => { c with wexpAt := none })).orLogOnly (fun s => (bumpF s .wdBoot 47 32 1).wardenIslandReset)
    else s
  | none => s

/-- WARDEN_WDOG_RESET (R362, R417). -/
def execWardenWdogReset (s : State) : Host.Outcome State Fault Refusal := .next (effWardenWdogReset s)

def effBootTrialTimeout (s : State) : State :=
  match s.warden.entered with
  | some t =>
    if s.warden.st = .running ∧ getB s .wdBoot 61 ∧ getB s .wdBoot 62 = false ∧ t + 2000000000 ≤ s.now then
      (s.modWarden (fun w => { w with entered := none })).orLogOnly (fun s =>
        (s.modWarden (fun w => { w with trialFailed := some (getB s .wdBoot 59) })).wardenIslandReset)
    else s
  | none => s

/-- BOOT_TRIAL_TIMEOUT (R365, R417). -/
def execBootTrialTimeout (s : State) : Host.Outcome State Fault Refusal := .next (effBootTrialTimeout s)

/-- A write of WD_BOOT; the debugger cannot raise the SVN floor (R365). -/
def State.writeWdBoot (s : State) (who : Party) (v : Word) : State :=
  let s := s.plainWrite .wdBoot v
  let s := if bitAt v 57 then
      (if who = .warden then
        (if s.warden.st = .running then
          { s with fuses := { s.fuses with floor := BitVec.ofNat 32 (max s.fuses.floor.toNat (natIn s.warden.running.hdr 8 4)) } } else s)
       else s.violate who true 0x3808008)
    else s
  if bitAt v 63 then s.wardenIslandReset else s

/-- The bits of WD_BOOT that a write leaves when it sets bit `b` alone. -/
def State.bootBit (s : State) (b : Nat) : Word := bitIf b true ||| (rdReg s .wdBoot &&& bitIf 62 true)

/-- WD_BOOT_REBOOT (R371). -/
def execWdBootReboot (who : Party) (s : State) : Host.Outcome State Fault Refusal :=
  .next (s.gateWrite who .wdBoot (s.bootBit 63) (fun s => s.writeWdBoot who (s.bootBit 63)))

/-- WD_BOOT_SVNUP (R365). -/
def execWdBootSvnup (who : Party) (s : State) : Host.Outcome State Fault Refusal :=
  .next (s.gateWrite who .wdBoot (s.bootBit 57) (fun s => s.writeWdBoot who (s.bootBit 57)))

/-! ## Images (Table 15.3, R363) -/

def FwImage.svn (f : FwImage) : Nat := natIn f.hdr 8 4
def FwImage.gen (f : FwImage) : Nat := natIn f.hdr 12 4
def FwImage.size (f : FwImage) : Nat := natIn f.hdr 16 4
def FwImage.entry (f : FwImage) : Nat := natIn f.hdr 20 4

/-- A number of `k` bytes, highest first. -/
def beNatIn (l : List Byte) (off k : Nat) : Nat := leNat (slice l off k).reverse

/-- Well formed: MAGIC, HVER, PART, KIND, SIZE within its limit and a multiple of 16, reserved bytes zero. -/
def FwImage.wellFormed (f : FwImage) (kind : Nat) : Bool :=
  f.hdr.length == 256 && natIn f.hdr 0 4 == 0x57444E4F && natIn f.hdr 4 2 == 1 && natIn f.hdr 6 2 == kind && natIn f.hdr 24 2 == 0x0CE1
    && decide (f.size ≤ (if kind = 1 then 393216 else 65536)) && f.size % 16 == 0
    && (slice f.hdr 0x1A 38).all (· == 0) && (slice f.hdr 0x70 16).all (· == 0) && (slice f.hdr 0xE0 32).all (· == 0)

/-- Header bytes that are signed, with GEN as zero. -/
def FwImage.signed (f : FwImage) : List Byte := putBytes (f.hdr.take 128) 12 [0, 0, 0, 0]

/-- Step 4 of R363: the digest of the body, the signature, the SVN floor. -/
def State.imageOk (s : State) (f : FwImage) : Bool :=
  f.body.length == f.size && Config.sha384 f.body == BitVec.ofNat 384 (beNatIn f.hdr 0x40 48)
    && Config.ecdsaVerify s.fuses.fwKey (Config.sha384 f.signed) (BitVec.ofNat 384 (beNatIn f.hdr 0x80 48)) (BitVec.ofNat 384 (beNatIn f.hdr 0xB0 48))
    && decide (s.fuses.floor.toNat ≤ f.svn)

/-- The image of a warden slot: A where the flag is false. -/
def Warden.slotImage (w : Warden) (b : Bool) : FwImage := if b then w.norB else w.norA

/-- The slot of higher GEN among the well-formed ones, A on a tie; after a failed trial the other slot (R363 step 3, R365). -/
def Warden.firstSlot (w : Warden) : Bool :=
  match w.trialFailed with
  | some b => !b
  | none => w.norB.wellFormed 1 && (!w.norA.wellFormed 1 || decide (w.norA.gen < w.norB.gen))

/-- The runtime slot of higher GEN among the well-formed ones, A on a tie. -/
def Warden.rtSlot (w : Warden) : Bool := w.rtB.wellFormed 2 && (!w.rtA.wellFormed 2 || decide (w.rtA.gen < w.rtB.gen))
def Warden.rtImage (w : Warden) (b : Bool) : FwImage := if b then w.rtB else w.rtA

/-- The platform configuration record holds: its MAGIC, and its CHK over the bytes after it (R364). -/
def Warden.pcrValid (w : Warden) : Bool :=
  w.pcr.length == 64 && natIn w.pcr 0 4 == 0x47464350 && natIn w.pcr 4 4 == (crc32 (w.pcr.drop 8)).toNat

/-- Link `l` stays disabled at start-up (Table 15.19). -/
def Warden.linkOff (w : Warden) (l : Nat) : Bool := w.pcrValid && (natIn w.pcr 8 32).testBit l

/-- Every link that the platform configuration record does not exclude gets EN (Table 16.6, R364). -/
def State.enableLinks (s : State) : State :=
  foldS ((List.range 256).filter (fun l => !s.warden.linkOff l)) (fun s l => s.writeLkCfg l (rdReg s (.lkCfg l) ||| bitIf 63 true)) s

/-- Isolation opens: the block grants its credits on every host port (R425). -/
def State.grantCredits (s : State) : State := foldS (List.range 16) (fun s p => s.emit (.hostCredits p 32 32 64)) s

/-- HPp_STATE: 0 powered down, 1 in reset until host-ready, 2 from host-ready; undefined without always-on power (R426, log entry 3). -/
def State.hpState (s : State) : BitVec 2 :=
  match s.power.block with
  | .unpowered => s.free.setWidth 2
  | .poweredDown => 0
  | .inReset | .mgmtReady => 1
  | .hostReady => 2

/-- The block is management-ready (R396, Table 16.6). -/
def State.mgmtReady (s : State) : State :=
  if s.power.block = .inReset then (setB (s.modPower (fun p => { p with block := .mgmtReady })) .glBootstat 62 true).grantCredits else s

/-- The firmware is entered with a verified image: its body lies in SRAM from offset 0 (R361, R363 steps 4 and 7). -/
def State.enterFirmware (s : State) (f : FwImage) (slot trial recov : Bool) : State :=
  let first := s.power.block == .inReset
  let s := s.store (sramAddr 0) f.body
  let s := setB (setB (setB s .wdBoot 59 slot) .wdBoot 61 trial) .wdBoot 58 recov
  let s := s.modWarden (fun w => { w with
    st := .running, since := s.now, entered := some s.now, trialFailed := none, running := f,
    measured := BitVec.ofNat 384 (beNatIn f.hdr 0x40 48) })
  let s := s.setCtx wardenKey 0 (rootCtx 0xFE000000100000 (0xFE000000100000 + f.size - 1) f.entry)
  let s := s.mgmtReady
  if first then s.enableLinks else s

/-- Both slots have failed: the warden waits for a RECOVERY command, which comes through the mailbox (R363 step 6). -/
def State.enterRecovery (s : State) : State :=
  (s.modWarden (fun w => { w with st := .recovery, since := s.now, entered := none, trialFailed := none })).mgmtReady

def effWardenReset (s : State) : State :=
  if s.warden.st ≠ .reset ∨ s.power.pgd.getLsbD 9 = false then s
  else
    let w := s.warden
    let good := fun b => (w.slotImage b).wellFormed 1 && s.imageOk (w.slotImage b)
    let a := w.firstSlot
    let fell := fun s : State => setB s .wdBoot 60 true
    let t := if w.trialFailed.isSome then fell s else s
    if good a then t.enterFirmware (w.slotImage a) a true false
    else if good !a then (fell t).enterFirmware (w.slotImage !a) (!a) true false
    else t.enterRecovery

/-- WARDEN_RESET (R363): the bisque's run, once the SRAM domain that powers the warden island is up (Table 16.3). -/
def execWardenReset (s : State) : Host.Outcome State Fault Refusal := .next (effWardenReset s)

/-! ## Reset of a core (R287) -/

/-- The shelf steward resets a core; the warden's core has no spare, and its island is reset (log entry 40). -/
def effCoreReset (c : CoreId) (s : State) : State :=
  let k := s.coreKey c
  if k = wardenKey then (if (s.core k).resetDue then s.wardenIslandReset else s) else s.shelfCoreReset k

/-- CORE_RESET (R287, R345). -/
def execCoreReset (c : CoreId) (s : State) : Host.Outcome State Fault Refusal := .next (effCoreReset c s)

/-! ## Sensors (R366, Tables 15.5 and 15.6) -/

/-- The numbers of Table 15.5. -/
def sensorUsed (i : Nat) : Bool := decide (i ≤ 87 ∨ (100 ≤ i ∧ i ≤ 180) ∨ (200 ≤ i ∧ i ≤ 207) ∨ (300 ≤ i ∧ i ≤ 491))

/-- The shelf at which a sensor is placed, or whose island it measures. -/
def sensorShelf (i : Nat) : Option Nat :=
  if i < 64 then some i else if 100 ≤ i ∧ i < 164 then some (i - 100) else if 300 ≤ i ∧ i < 492 then some ((i - 300) / 3) else none

/-- The sensor's domain is power-gated or in reset. -/
def State.sensorOff (s : State) (i : Nat) : Bool :=
  match sensorShelf i with
  | some n => (s.shelf n).phase != .active || s.isRetired n
  | none =>
    if 200 ≤ i ∧ i < 208 then !s.power.pgd.getLsbD (i - 200)
    else if i = 180 then !s.power.pgd.getLsbD 9 || s.warden.st == .reset
    else !s.power.pgd.getLsbD 8 || s.power.block == .inReset

/-- One reading: the entry, and whether it crossed a threshold. -/
def State.snapOf (s : State) (r : SensorReading) : SnapEnt × Bool :=
  let old := tget {} s.warden.snap r.sensor
  if s.sensorOff r.sensor then ({ old with time := s.now, st := 3 }, false)
  else
    let c := Config.sensorState r.sensor r.value
    let st := if c = 3 then 2 else c
    ({ time := s.now, st := st, aux := if 100 ≤ r.sensor ∧ r.sensor ≤ 180 then r.aux else 0, value := r.value }, old.st != 3 && old.st != st)

/-- Take one reading; a crossing raises SENSALARM, and the running firmware sends a sensorEvent to the event receiver (Table 15.8). -/
def State.takeReading (s : State) (r : SensorReading) : State :=
  if sensorUsed r.sensor then
    let e := s.snapOf r
    let s := s.modWarden (fun w => { w with snap := tset {} w.snap r.sensor e.1 })
    if e.2 then
      let s := s.wsrc 21 EvSrc.pulse
      if s.warden.st = .running ∧ s.warden.evReceiver.isSome then s.emit (.sensorEvent r.sensor r.value) else s
    else s
  else s

/-! ## Ageing (R385) -/

/-- Number of a cone. -/
def isCone (i : Nat) : Bool := decide (300 ≤ i ∧ i < 492)

/-- The firmware reads the cones every 10 s. -/
def State.conesDue (s : State) : Bool :=
  decide (s.warden.st = .running) && (match s.warden.coneAt with
    | none => true
    | some t => decide (t + 10000000000 ≤ s.now))

/-- D of a shelf: the largest drift of its three cones, in 0.01 %. -/
def State.drift (s : State) (n : Nat) : Nat :=
  (List.range 3).foldl (fun m j => max m (tget {} s.warden.snap (300 + 3 * n + j)).value.toNat) 0

/-- The re-plan of a shelf: MARGIN := MFLOOR + ⌈64 × D⌉, at most 63 and never less; the host ports that attach to it take the same increase. -/
def State.replan (s : State) (n : Nat) : State :=
  let d := s.drift n
  let r := Reg.shClk n
  let old := getF s r 39 34
  let new := max old (min 63 (getF s r 33 28 + ceilDiv (64 * d) 10000))
  let s := foldS ((List.range 16).filter (fun p => portShelf p == n)) (fun s p =>
    setF s (.hpClk p) 39 34 (min 63 (getF s (.hpClk p) 39 34 + (new - old)))) (setF s r 39 34 new)
  s.modWarden (fun w => { w with d0 := tset 0 w.d0 n d, planAt := tset 0 w.planAt n s.now })

/-- A shelf is re-planned every 24 h, and at once when D has risen by more than 1.5 % since its last re-plan. -/
def State.replanDue (s : State) (n : Nat) : Bool :=
  decide (tget 0 s.warden.d0 n + 150 < s.drift n ∨ tget 0 s.warden.planAt n + 86400000000000 ≤ s.now)

/-- The cones have been read. -/
def State.conesRead (s : State) : State :=
  foldS (List.range 64) (fun s n => if s.replanDue n then s.replan n else s) (s.modWarden (fun w => { w with coneAt := some s.now }))

/-- Sample sensor `i`: its reading is the one that the operand carries, or is open (log entry 134). -/
def State.sampleSensor (s : State) (rs : List SensorReading) (i : Nat) : State :=
  match rs.find? (fun r => r.sensor == i) with
  | some r => s.takeReading r
  | none => (s.takeReading { sensor := i, value := s.free.setWidth 16, aux := (s.free >>> 16).setWidth 16 }).drawn

/-- The sensors that one sample covers: all but the cones, and the cones too when the firmware asks for them. -/
def sampledSensors (cones : Bool) : List Nat := (List.range 492).filter (fun i => sensorUsed i && (cones || !isCone i))

def effSensorSample (rs : List SensorReading) (s : State) : State :=
  if s.power.block = .unpowered ∨ s.power.block = .poweredDown then s
  else
    let due := s.conesDue && rs.any (fun r => isCone r.sensor)
    let t := (foldS (sampledSensors due) (fun s i => s.sampleSensor rs i) s).wsrc 20 EvSrc.pulse
    if due then t.conesRead else t

/-- SENSOR_SAMPLE (R366): every sensor but the cones; the cones only where the firmware has asked for them, every 10 s, and it then re-plans the
margins (R385). -/
def execSensorSample (readings : List SensorReading) (s : State) : Host.Outcome State Fault Refusal := .next (effSensorSample readings s)

/-! ## Firmware log records and violations (R367, R380) -/

/-- A write of WD_LOGWw: w 3 commits. SRC, UNIT, SEV and CODE are the bits of word 0, DATA is word 3 (log entry 41). -/
def State.writeLogw (s : State) (w : Nat) (v : Word) : State :=
  let s := s.modWarden (fun x => { x with logW := tset 0 x.logW w v })
  if w = 3 then
    let w0 := tget 0 s.warden.logW 0
    s.log (fld w0 63 56) (fld w0 55 44) (fld w0 43 42) (fld w0 63 48) v
  else s

/-- LOG_RECORD_COMMIT (R367). -/
def execLogRecordCommit (who : Party) (v : Word) (s : State) : Host.Outcome State Fault Refusal :=
  .next (s.gateWrite who (.wdLogw 3) v (fun s => s.writeLogw 3 v))

/-- WD_VIOL_WRITE (R380). -/
def execWdViolWrite (who : Party) (v : Word) (s : State) : Host.Outcome State Fault Refusal :=
  .next (s.gateWrite who .wdViol v (fun s => wrReg s .wdViol 0))

/-! ## Life cycle (R375, R376) -/

/-- The transitions of Table 15.11. -/
def State.lcAllowed (s : State) (t : BitVec 2) : Bool :=
  let c := s.fuses.lc
  (c == 0 && t == 1) || (c == 1 && t == 2) || (c == 2 && t == 1 && decide (s.fuses.returns.toNat < 15)) || (c != 3 && t == 3)

/-- A write of WD_LCREQ: the transition follows the wipe, so that a second request meanwhile is rejected. -/
def State.writeLcreq (s : State) (who : Party) (v : Word) : State :=
  if who ≠ .warden then s.violate who true 0x3808010
  else if bitAt v 63 then
    let t : BitVec 2 := BitVec.ofNat 2 (fld v 1 0)
    if s.lcAllowed t && s.warden.shadowLc.isNone then
      ((s.modWarden (fun w => { w with shadowLc := some t })).startWipe 2).wipeEnds
    else setB s .wdStat 61 true
  else s

def effWdLcreq (who : Party) (v : Word) (s : State) : State := s.gateWrite who .wdLcreq v (fun s => s.writeLcreq who v)

/-- WD_LCREQ (R375, R376). -/
def execWdLcreq (who : Party) (v : Word) (s : State) : Host.Outcome State Fault Refusal := .next (effWdLcreq who v s)

/-! ## SH_RTVEC (R372) -/

/-- A write of SH_RTVEC by the warden is a write of NEW, whose half holds the runtime image in use: DRAINED in it applies to the half that was NEW before (Table 15.12). One by another
party sets DRAINED. -/
def State.writeRtvec (s : State) (who : Party) (n : Nat) (v : Word) : State :=
  let new := getB s (.shRtvec n) 61
  if who = .warden then
    let s := if bitAt v 63 then setB s (.shRtvec n) 62 new else s
    let s := setB (s.plainWrite (.shRtvec n) v) (.shRtvec n) 63 false
    let s := setF s (.shRtvec n) 31 16 (getF s (.shRtvec n) 31 16 + 1)
    let half := getF s (.shRtvec n) 61 61
    let s := if half = getF s (.shRtvec n) 62 62 then s
      else s.modShelf n (fun h => { h with rtEntry := tset 0 h.rtEntry half (s.warden.rtImage s.warden.rtSlot).entry })
    foldS (s.shelfKeys n) (fun s k => s.modCore k (fun c => { c with icache := [] })) s
  else if bitAt v 63 then setB (setB s (.shRtvec n) 63 true) (.shRtvec n) 62 new
  else s

/-- A store of the warden core to memory of shelf `n` is still in its store buffer. -/
def State.windowOwed (s : State) (n : Nat) : Bool :=
  (s.core wardenKey).sbuf.any (fun e => match e.block with | .mem a => decide (a / 0x200000 = n) | _ => false)

def effShRtvecNew (who : Party) (n : Nat) (v : Word) (s : State) : State :=
  if who = .warden ∧ s.windowOwed n = true then s else s.gateWrite who (.shRtvec n) v (fun s => s.writeRtvec who n v)

/-- SH_RTVEC_NEW (R372): the write applies after every earlier warden-window write to the shelf. -/
def execShRtvecNew (who : Party) (n : Fin 64) (v : Word) (s : State) : Host.Outcome State Fault Refusal := .next (effShRtvecNew who n.val v s)

/-- SH_RTVEC_DRAINED (R372). -/
def execShRtvecDrained (who : Party) (n : Fin 64) (v : Word) (s : State) : Host.Outcome State Fault Refusal :=
  .next (s.gateWrite who (.shRtvec n.val) v (fun s => s.writeRtvec who n.val v))

/-! ## SPI -/

/-- SPI_TRANSFER_COMPLETE (R361, Table 15.2). -/
def execSpiTransferComplete (s : State) : Host.Outcome State Fault Refusal := .next (s.wsrc 23 EvSrc.pulse)

end Sys2Proof.Machine
end

