-- ==== Sys2Proof/Machine/Mgmt.lean ====
section
/-! DEFINITION. Management: the responder, MCTP control, PLDM and SPDM requests, live update, and the mailbox (R369 to R371, R377, R378), with
their rows. -/

namespace Sys2Proof.Machine

/-! ## The mailbox (Tables 15.14 and 15.16) -/

/-- The word of WD_BUF at mailbox offset `o`. -/
def bufReg (o : Nat) : Reg := .wdBuf ((o - 0x1000) / 8)

/-- A write of WD_MBCTL: GO of a buffer that is not busy submits it. -/
def State.writeMbctl (s : State) (v : Word) : State :=
  let s := if bitAt v 63 && !getB s .wdMbstat 61 then (setB (setB s .wdMbstat 61 true) .wdMbstat 63 false).wsrc 17 EvSrc.pulse else s
  if bitAt v 62 && !getB s .wdMbstat 60 then (setB (setB s .wdMbstat 60 true) .wdMbstat 62 false).wsrc 18 EvSrc.pulse else s

/-- The response to a firmware mailbox command: its first word, the words after it, RDYF (R378). -/
def State.fwReply (s : State) (op status : Nat) (data : List Word) : State :=
  let s := wrReg s (bufReg 0x4000) (place 63 56 op ||| place 55 48 status ||| place 15 0 (8 * data.length))
  let s := ((List.range data.length).zip data).foldl (fun s d => wrReg s (bufReg (0x4008 + 8 * d.1)) d.2) s
  setF (setB (setB s .wdMbstat 60 false) .wdMbstat 62 true) .wdMbstat 28 16 (8 + 8 * data.length)

/-! ## The responder (R370) -/

/-- The warden firmware answers: it runs and no debug halt holds it. -/
def State.wardenUp (s : State) : Bool := s.warden.st == .running && !(s.core wardenKey).halted

/-- A response leaves; on the mailbox RDYM is set, and RMLEN is open, as the standards give the message's layout (log entries 3, 42). -/
def State.mgmtReply (s : State) (b : Binding) (r : MgmtReply) : State :=
  let s := s.emit (.mgmt b r)
  match b with
  | .i3c => s
  | .hostMailbox => (setF (setB (setB s .wdMbstat 61 false) .wdMbstat 63 true) .wdMbstat 12 0 (fld s.free 12 0)).drawn

/-- A busy response: ERROR_NOT_READY for MCTP control and PLDM, ERROR with Busy for SPDM. -/
def busyReply (spdm : Bool) : MgmtReply := { busy := true, code := if spdm then 0 else 4 }

/-- Requests that a binding may have waiting (Table 15.8). -/
def bindingDepth : Binding → Nat
  | .i3c => 4
  | .hostMailbox => 1

/-- A complete I3C message raises source 16; the mailbox has raised source 17 with its GO (Table 15.2, `State.writeMbctl`). -/
def State.mgmtArrival (s : State) : Binding → State
  | .i3c => s.wsrc 16 EvSrc.pulse
  | .hostMailbox => s

/-- A request can arrive: on the mailbox its GO has set BUSYM, and none is waiting (R377, Table 15.8). -/
def State.mgmtComes (s : State) (b : Binding) : Bool :=
  match b with
  | .i3c => true
  | .hostMailbox => getB s .wdMbstat 61 && !s.warden.waiting.any (fun w => w.binding == .hostMailbox)

/-- A request arrives: the responder answers busy where the warden is away or the queue is full; one that the warden does not take at once
waits; one that it takes is answered by `f`. -/
def State.mgmt (s : State) (b : Binding) (taken spdm : Bool) (f : State → State) : State :=
  if !s.mgmtComes b then s
  else if !s.wardenUp || decide (bindingDepth b ≤ (s.warden.waiting.filter (fun w => w.binding == b)).length) then s.mgmtReply b (busyReply spdm)
  else
    let s := s.mgmtArrival b
    if taken then f s else s.modWarden (fun w => { w with waiting := w.waiting ++ [{ binding := b, at_ := s.now, spdm := spdm }] })

/-- A request that only reads. -/
def State.mgmtRead (s : State) (b : Binding) (taken spdm : Bool) (f : State → MgmtReply) : State :=
  s.mgmt b taken spdm (fun s => s.mgmtReply b (f s))

def effResponderTimeout (s : State) : State :=
  match s.warden.waiting with
  | w :: t => if s.wardenUp && decide (s.now < w.at_ + 10000000) then s
    else (s.modWarden (fun x => { x with waiting := t })).mgmtReply w.binding (busyReply w.spdm)
  | [] => s

/-- RESPONDER_TIMEOUT (R370): 10 ms without the warden's taking the request, or the warden is away. -/
def execResponderTimeout (s : State) : Host.Outcome State Fault Refusal := .next (effResponderTimeout s)

/-! ## MCTP control -/

/-- PLDM completion codes: ERROR_UNSUPPORTED_PLDM_CMD, and the refusal of a request that the present state does not allow (log entry 42). -/
def pldmUnsupported : Nat := 5
def pldmError : Nat := 1

/-- ERROR of an SPDM request that the present state does not allow, and UnsupportedRequest (log entry 42). -/
def spdmUnexpected : Nat := 4
def spdmUnsupported : Nat := 7

/-- A message is dropped; the mailbox buffer is free again. -/
def State.mgmtDrop (s : State) (b : Binding) : State :=
  match b with
  | .i3c => s
  | .hostMailbox => setB s .wdMbstat 61 false

/-- A message of no supported type, or a request of type PLDM (1) or SPDM (5) that Table 15.8 does not list. -/
def effMctpUnsupported (b : Binding) (ty : Nat) (s : State) : State :=
  if ty = 1 then s.mgmt b true false (fun s => s.mgmtReply b { code := pldmUnsupported })
  else if ty = 5 then s.mgmt b true true (fun s => s.mgmtReply b { code := spdmUnsupported })
  else if s.mgmtComes b then s.mgmtDrop b
  else s

/-- MCTP_UNSUPPORTED (R369): an unsupported PLDM or SPDM request is answered with its error, and a message of another type is dropped. -/
def execMctpUnsupported (b : Binding) (ty : BitVec 8) (s : State) : Host.Outcome State Fault Refusal := .next (effMctpUnsupported b ty.toNat s)

/-- SET_ENDPOINT_ID (R369): one EID for both bindings. -/
def execSetEndpointId (b : Binding) (taken : Bool) (eid : BitVec 8) (s : State) : Host.Outcome State Fault Refusal :=
  .next (s.mgmt b taken false (fun s => (s.modWarden (fun w => { w with eid := eid })).mgmtReply b { data := [eid.toNat] }))

/-- GET_ENDPOINT_ID (R369). -/
def execGetEndpointId (b : Binding) (taken : Bool) (s : State) : Host.Outcome State Fault Refusal :=
  .next (s.mgmtRead b taken false (fun s => { data := [s.warden.eid.toNat] }))

/-- GET_ENDPOINT_UUID (R369). -/
def execGetEndpointUuid (b : Binding) (taken : Bool) (s : State) : Host.Outcome State Fault Refusal :=
  .next (s.mgmtRead b taken false (fun _ => { bytes := leBytes 16 Config.endpointUuid.toNat }))

/-- GET_MCTP_VERSION_SUPPORT (R369): DSP0236 1.3. -/
def execGetMctpVersionSupport (b : Binding) (taken : Bool) (s : State) : Host.Outcome State Fault Refusal :=
  .next (s.mgmtRead b taken false (fun _ => { data := [1, 3] }))

/-- GET_MESSAGE_TYPE_SUPPORT (R369). -/
def execGetMessageTypeSupport (b : Binding) (taken : Bool) (s : State) : Host.Outcome State Fault Refusal :=
  .next (s.mgmtRead b taken false (fun _ => { data := [0, 1, 5] }))

/-- The 48-bit provisional ID: the manufacturer part of the standard, and bits 31:0 of GL_SERIAL (R436). -/
def State.provisionalId (s : State) : BitVec 48 := Config.mipiManufacturer ++ s.fuses.serial.setWidth 32

/-- ENTDAA (R369, R436): the bus controller reads the provisional ID and assigns the dynamic address. -/
def execEntdaa (dynAddr : BitVec 7) (s : State) : Host.Outcome State Fault Refusal :=
  .next ((s.modWarden (fun w => { w with dynAddr := some dynAddr })).emit (.provisionalId s.provisionalId))

/-! ## PLDM base -/

/-- PLDM types of Table 15.8, and how many commands of each it lists. -/
def pldmCommands : Nat → Option Nat
  | 0 => some 4
  | 2 => some 6
  | 5 => some 13
  | _ => none

/-- GET_TID (R369). -/
def execGetTid (b : Binding) (taken : Bool) (s : State) : Host.Outcome State Fault Refusal :=
  .next (s.mgmtRead b taken false (fun s => { data := [s.warden.tid.toNat] }))

/-- GET_PLDM_VERSION (R369): the version of a type is the standard's, so it is open (log entry 42). -/
def execGetPldmVersion (b : Binding) (taken : Bool) (ty : BitVec 8) (s : State) : Host.Outcome State Fault Refusal :=
  .next (s.mgmt b taken false (fun s =>
    if (pldmCommands ty.toNat).isSome then (s.mgmtReply b { data := [s.free.toNat] }).drawn else s.mgmtReply b { code := pldmUnsupported }))

/-- GET_PLDM_TYPES (R369). -/
def execGetPldmTypes (b : Binding) (taken : Bool) (s : State) : Host.Outcome State Fault Refusal :=
  .next (s.mgmtRead b taken false (fun _ => { data := [0, 2, 5] }))

/-- GET_PLDM_COMMANDS (R369): the commands by their place in Table 15.8. -/
def execGetPldmCommands (b : Binding) (taken : Bool) (ty : BitVec 8) (s : State) : Host.Outcome State Fault Refusal :=
  .next (s.mgmtRead b taken false (fun _ =>
    match pldmCommands ty.toNat with
    | some n => { data := List.range n }
    | none => { code := pldmUnsupported }))

/-! ## PLDM monitoring -/

/-- Numeric sensors in the order of their numbers (Table 15.5). -/
def sensorList : List Nat := (List.range 492).filter sensorUsed

/-- Records of the PDR repository: one per sensor, one for the life-cycle state, one for each shelf. -/
def pdrCount : Nat := sensorList.length + 65

/-- GET_PDR_REPOSITORY_INFO (R369). -/
def execGetPdrRepositoryInfo (b : Binding) (taken : Bool) (s : State) : Host.Outcome State Fault Refusal :=
  .next (s.mgmtRead b taken false (fun _ => { data := [pdrCount] }))

/-- GET_PDR (R369): kind 0 numeric with the sensor number, 1 state with the number of the state sensor. -/
def execGetPdr (b : Binding) (taken : Bool) (record : Nat) (s : State) : Host.Outcome State Fault Refusal :=
  .next (s.mgmtRead b taken false (fun _ =>
    if record < sensorList.length then { data := [0, sensorList.getD record 0] }
    else if record < pdrCount then { data := [1, record - sensorList.length] }
    else { code := pldmError }))

/-- GET_SENSOR_READING (R370): the responder answers from the snapshot in every state. -/
def execGetSensorReading (b : Binding) (sensor : Fin 492) (s : State) : Host.Outcome State Fault Refusal :=
  let e := tget {} s.warden.snap sensor.val
  .next (if s.mgmtComes b then s.mgmtReply b { data := [e.st.toNat, e.value.toNat] } else s)

/-- State of a shelf: 0 active, 1 reset, 2 retired, 3 gated. -/
def State.shelfState (s : State) (n : Nat) : Nat :=
  if s.isRetired n then 2
  else match (s.shelf n).phase with
    | .active => 0
    | .reset => 1
    | .gated => 3

/-- GET_STATE_SENSOR_READINGS (R369): state sensor 0 the life-cycle state, 1 + n shelf n. -/
def execGetStateSensorReadings (b : Binding) (taken : Bool) (sensor : Nat) (s : State) : Host.Outcome State Fault Refusal :=
  .next (s.mgmtRead b taken false (fun s =>
    if sensor = 0 then { data := [s.fuses.lc.toNat] }
    else if sensor ≤ 64 then { data := [s.shelfState (sensor - 1)] }
    else { code := pldmError }))

/-- SET_EVENT_RECEIVER (R369). -/
def execSetEventReceiver (b : Binding) (taken : Bool) (eid : BitVec 8) (s : State) : Host.Outcome State Fault Refusal :=
  .next (s.mgmt b taken false (fun s => (s.modWarden (fun w => { w with evReceiver := some eid })).mgmtReply b {}))

/-! ## PLDM firmware update (R369, R371) -/

/-- The slot that an update of a component writes: the one not in use. -/
def State.updSlot (s : State) : Bool := if s.warden.updComp = 1 then !getB s .wdBoot 59 else !s.warden.rtSlot

/-- The image in that slot, and a new one. -/
def State.updImage (s : State) : FwImage := if s.warden.updComp = 1 then s.warden.slotImage s.updSlot else s.warden.rtImage s.updSlot

def State.putUpdImage (s : State) (f : FwImage) : State :=
  let b := s.updSlot
  s.modWarden (fun w =>
    if w.updComp = 1 then (if b then { w with norB := f } else { w with norA := f })
    else (if b then { w with rtB := f } else { w with rtA := f }))

/-- An image as its bytes arrive: the header first. -/
def imageOf (l : List Byte) : FwImage := { hdr := l.take 256, body := l.drop 256 }

def UpdSt.code : UpdSt → Nat
  | .idle => 0 | .learn => 1 | .ready => 2 | .download => 3 | .verify => 4 | .apply => 5 | .activate => 6

/-- A step of the update protocol: allowed in the states that `ok` names. -/
def State.updStep (s : State) (b : Binding) (taken : Bool) (ok : UpdSt → Bool) (f : State → State × MgmtReply) : State :=
  s.mgmt b taken false (fun s =>
    if ok s.warden.upd then (let r := f s; r.1.mgmtReply b r.2) else s.mgmtReply b { code := pldmError })

/-- QUERY_DEVICE_IDENTIFIERS (R369): the identifiers are open (log entry 42). -/
def execQueryDeviceIdentifiers (b : Binding) (taken : Bool) (s : State) : Host.Outcome State Fault Refusal :=
  .next (s.mgmt b taken false (fun s => (s.mgmtReply b { data := [s.free.toNat] }).drawn))

/-- GET_FIRMWARE_PARAMETERS (R369): GEN and SVN of each component's image in use. -/
def execGetFirmwareParameters (b : Binding) (taken : Bool) (s : State) : Host.Outcome State Fault Refusal :=
  .next (s.mgmtRead b taken false (fun s =>
    let r := s.warden.rtImage s.warden.rtSlot
    { data := [1, s.warden.running.gen, s.warden.running.svn, 2, r.gen, r.svn] }))

/-- REQUEST_UPDATE (R369). -/
def execRequestUpdate (b : Binding) (taken : Bool) (s : State) : Host.Outcome State Fault Refusal :=
  .next (s.updStep b taken (fun u => u == .idle) (fun s => (s.modWarden (fun w => { w with upd := .learn }), {})))

/-- PASS_COMPONENT_TABLE (R369): components 1 and 2. -/
def execPassComponentTable (b : Binding) (taken : Bool) (comp : BitVec 16) (s : State) : Host.Outcome State Fault Refusal :=
  .next (s.updStep b taken (fun u => (u == .learn || u == .ready) && decide (comp = 1 ∨ comp = 2))
    (fun s => (s.modWarden (fun w => { w with upd := .ready }), {})))

/-- UPDATE_COMPONENT (R371 step 1): the transfer into the slot not in use begins. -/
def execUpdateComponent (b : Binding) (taken : Bool) (comp : BitVec 16) (s : State) : Host.Outcome State Fault Refusal :=
  .next (s.updStep b taken (fun u => (u == .ready || u == .activate) && decide (comp = 1 ∨ comp = 2))
    (fun s => (s.modWarden (fun w => { w with upd := .download, updComp := comp, updData := [] }), {})))

/-- REQUEST_FIRMWARE_DATA (R369): the data that answers the device's request goes to the slot. -/
def execRequestFirmwareData (b : Binding) (taken : Bool) (data : List Byte) (s : State) : Host.Outcome State Fault Refusal :=
  .next (s.updStep b taken (fun u => u == .download) (fun s =>
    let l := s.warden.updData ++ data.take 1024
    ((s.modWarden (fun w => { w with updData := l })).putUpdImage (imageOf l), {})))

/-- TRANSFER_COMPLETE (R369). -/
def execTransferComplete (b : Binding) (taken : Bool) (s : State) : Host.Outcome State Fault Refusal :=
  .next (s.updStep b taken (fun u => u == .download) (fun s => (s.modWarden (fun w => { w with upd := .verify }), {})))

/-- The image passes every check of the bisque (R371 step 2). -/
def State.updOk (s : State) : Bool := s.updImage.wellFormed s.warden.updComp.toNat && s.imageOk s.updImage

/-- VERIFY_COMPLETE (R371 step 2): a failure ends the component's update. -/
def execVerifyComplete (b : Binding) (taken : Bool) (s : State) : Host.Outcome State Fault Refusal :=
  .next (s.updStep b taken (fun u => u == .verify) (fun s =>
    if s.updOk then (s.modWarden (fun w => { w with upd := .apply }), {})
    else (s.modWarden (fun w => { w with upd := .ready, updData := [] }), { code := pldmError })))

/-- GEN of the slot in use, for the component under update. -/
def State.inUseGen (s : State) : Nat :=
  if s.warden.updComp = 1 then (s.warden.slotImage !s.updSlot).gen else (s.warden.rtImage !s.updSlot).gen

/-- APPLY_COMPLETE (R371 step 3). -/
def execApplyComplete (b : Binding) (taken : Bool) (s : State) : Host.Outcome State Fault Refusal :=
  .next (s.updStep b taken (fun u => u == .apply) (fun s =>
    let f := s.updImage
    let t := s.putUpdImage { f with hdr := putBytes f.hdr 12 (leBytes 4 (s.inUseGen + 1)) }
    (t.modWarden (fun w => { w with upd := .activate, updData := [] }), {})))

/-- ACTIVATE_FIRMWARE (R371 step 4): answered first; then the firmware writes its last record and reboots its island. A runtime image is
activated by the warden's own stores and writes of SH_RTVEC (R372). -/
def execActivateFirmware (b : Binding) (taken : Bool) (s : State) : Host.Outcome State Fault Refusal :=
  .next (s.mgmt b taken false (fun s =>
    if s.warden.upd = .activate then
      let t := (s.mgmtReply b {}).modWarden (fun w => { w with upd := .idle })
      if s.warden.updComp = 1 then (t.log 0 0 0 0 0).wardenIslandReset else t
    else s.mgmtReply b { code := pldmError }))

/-- GET_STATUS (R369). -/
def execGetStatus (b : Binding) (taken : Bool) (s : State) : Host.Outcome State Fault Refusal :=
  .next (s.mgmtRead b taken false (fun s => { data := [s.warden.upd.code] }))

/-- CANCEL_UPDATE_COMPONENT (R369). -/
def execCancelUpdateComponent (b : Binding) (taken : Bool) (s : State) : Host.Outcome State Fault Refusal :=
  .next (s.updStep b taken (fun u => u == .download || u == .verify || u == .apply)
    (fun s => (s.modWarden (fun w => { w with upd := .ready, updData := [] }), {})))

/-- CANCEL_UPDATE (R369). -/
def execCancelUpdate (b : Binding) (taken : Bool) (s : State) : Host.Outcome State Fault Refusal :=
  .next (s.updStep b taken (fun u => u != .idle) (fun s => (s.modWarden (fun w => { w with upd := .idle, updData := [] }), {})))

/-! ## SPDM 1.2 (Tables 15.8 and 15.9) -/

/-- Certificate slot 0 is filled at manufacture, slot 1 from PROVISIONED on. -/
def State.certSlot (s : State) (i : Nat) : Bool := i == 0 || (i == 1 && s.fuses.lc != 0)

/-- GET_VERSION (R369): 1.2; the negotiation starts again. -/
def execGetVersion (b : Binding) (taken : Bool) (s : State) : Host.Outcome State Fault Refusal :=
  .next (s.mgmt b taken true (fun s =>
    (s.modWarden (fun w => { w with spdmVersion := true, spdmCaps := false, spdmAlgs := false })).mgmtReply b { data := [1, 2] }))

/-- GET_CAPABILITIES (R369): CERT_CAP, CHAL_CAP, MEAS_CAP with signature, and no other. -/
def execGetCapabilities (b : Binding) (taken : Bool) (s : State) : Host.Outcome State Fault Refusal :=
  .next (s.mgmt b taken true (fun s =>
    if s.warden.spdmVersion then (s.modWarden (fun w => { w with spdmCaps := true })).mgmtReply b { data := [1, 1, 2] }
    else s.mgmtReply b { code := spdmUnexpected }))

/-- NEGOTIATE_ALGORITHMS (R369): ECDSA P-384 and SHA-384, where both are offered. -/
def execNegotiateAlgorithms (b : Binding) (taken p384 sha384 : Bool) (s : State) : Host.Outcome State Fault Refusal :=
  .next (s.mgmt b taken true (fun s =>
    if s.warden.spdmCaps then
      (s.modWarden (fun w => { w with spdmAlgs := p384 && sha384 })).mgmtReply b { data := [b2n p384, b2n sha384] }
    else s.mgmtReply b { code := spdmUnexpected }))

/-- GET_DIGESTS (R369). -/
def execGetDigests (b : Binding) (taken : Bool) (s : State) : Host.Outcome State Fault Refusal :=
  .next (s.mgmtRead b taken true (fun s =>
    if s.warden.spdmAlgs then
      { data := (List.range 2).filter s.certSlot, bytes := ((List.range 2).filter s.certSlot).flatMap (fun i => leBytes 48 (Config.certDigest i).toNat) }
    else { code := spdmUnexpected }))

/-- GET_CERTIFICATE (R369). -/
def execGetCertificate (b : Binding) (taken : Bool) (slot : Nat) (s : State) : Host.Outcome State Fault Refusal :=
  .next (s.mgmtRead b taken true (fun s =>
    if s.warden.spdmAlgs && s.certSlot slot then { bytes := Config.certChain slot }
    else { code := if s.warden.spdmAlgs then spdmUnsupported else spdmUnexpected }))

/-- A signature under the device identity key; which bytes SPDM signs is the standard's (log entry 4). -/
def signOf (m : List Byte) : List Byte := leBytes 96 (Config.ecdsaSign (Config.sha384 m)).toNat

/-- CHALLENGE (R369). -/
def execChallenge (b : Binding) (taken : Bool) (slot : Nat) (nonce : BitVec 256) (s : State) : Host.Outcome State Fault Refusal :=
  .next (s.mgmtRead b taken true (fun s =>
    if s.warden.spdmAlgs && s.certSlot slot then
      let m := leBytes 48 (Config.certDigest slot).toNat ++ leBytes 32 nonce.toNat
      { bytes := m ++ signOf m }
    else { code := if s.warden.spdmAlgs then spdmUnsupported else spdmUnexpected }))

/-- The content of a measurement block (Table 15.9); what runtime image is active on how many shelves is the firmware's own record, so that
block 3 is open (log entry 42). -/
def State.measurement (s : State) (i : Nat) : List Byte :=
  match i with
  | 1 => leBytes 48 (Config.sha384 ((List.range 0x100000).map Config.rom)).toNat
  | 2 => leBytes 48 s.warden.measured.toNat ++ leBytes 4 s.warden.running.svn
  | 3 => (List.range 7).flatMap (fun j => wordBytes (Config.freeValue (s.freeCtr + j)))
  | 4 => [byteOf s.fuses.lc.toNat] ++ leBytes 4 s.fuses.floor.toNat
  | 5 => leBytes 48 Config.fusedDigest.toNat
  | _ => []

/-- GET_MEASUREMENTS (R369): one block by its index, or all with index 255; a signature follows. -/
def execGetMeasurements (b : Binding) (taken : Bool) (index : Nat) (s : State) : Host.Outcome State Fault Refusal :=
  .next (s.mgmt b taken true (fun s =>
    if s.warden.spdmAlgs && decide ((1 ≤ index ∧ index ≤ 5) ∨ index = 255) then
      let m := if index = 255 then [1, 2, 3, 4, 5].flatMap s.measurement else s.measurement index
      { (s.mgmtReply b { data := [5], bytes := m ++ signOf m }) with freeCtr := s.freeCtr + 8 }
    else s.mgmtReply b { code := if s.warden.spdmAlgs then spdmUnsupported else spdmUnexpected }))

/-! ## Firmware mailbox: LCREQ and RECOVERY (Table 15.14) -/

/-- OP and STATUS codes. -/
def opRegwr : Nat := 1
def opRegrd : Nat := 2
def opLcreq : Nat := 3
def opRecovery : Nat := 4
def stOk : Nat := 0
def stBusy : Nat := 1
def stBadArg : Nat := 2
def stDenied : Nat := 3
def stTimeout : Nat := 4

/-- A request lies in the firmware mailbox: its GO has set BUSYF (R377). -/
def State.fwAsked (s : State) : Bool := getB s .wdMbstat 60

def effLcreq (t : BitVec 2) (token : List Byte) (s : State) : State :=
  if !s.wardenUp || !s.fwAsked then s
  else if 512 < token.length then s.fwReply opLcreq stBadArg [place 1 0 s.fuses.lc.toNat]
  else if Config.tokenOk s.fuses.lc t token then
    let ok := s.lcAllowed t && s.warden.shadowLc.isNone
    (s.writeLcreq .warden (bitIf 63 true ||| place 1 0 t.toNat)).fwReply opLcreq (if ok then stOk else stDenied) [place 1 0 (if ok then t else s.fuses.lc).toNat]
  else s.fwReply opLcreq stDenied [place 1 0 s.fuses.lc.toNat]

/-- LCREQ (R375): the firmware performs a transition only for a token that verifies. -/
def execLcreq (target : BitVec 2) (token : List Byte) (s : State) : Host.Outcome State Fault Refusal :=
  .next (effLcreq target token s)

def effRecovery (image : List Byte) (s : State) : State :=
  if !s.fwAsked then s
  else if s.warden.st = .recovery then
    let f := imageOf image
    if f.wellFormed 1 && s.imageOk f then (s.enterFirmware f false false true).fwReply opRecovery stOk [1] else s.fwReply opRecovery stBadArg [0]
  else if s.wardenUp then s.fwReply opRecovery stDenied [0]
  else s

/-- RECOVERY (R363 step 6): the image is verified and run from SRAM; the NOR is not written. -/
def execRecovery (image : List Byte) (s : State) : Host.Outcome State Fault Refusal := .next (effRecovery image s)

end Sys2Proof.Machine
end

