-- ==== Sys2Proof/Machine/Power.lean ====
section
/-! DEFINITION. Island clocks (R381 to R384), voltage requests (R388, R433), power modes and the limiter (R389 to R391), the thermal trip
(R392), gating and waking a shelf (R394, R395), the reference clock and TSYNC (R430, R431), with their rows. -/

namespace Sys2Proof.Machine

/-! ## Island clocks -/

/-- Key and clock register of an island; the islands of fixed target have no register (Table 16.1). -/
def islandKey : IslandId → Nat
  | .shelf n => n.val
  | .port p => 64 + p.val
  | .warden => 80
  | .alwaysOn => 81
def islandReg : IslandId → Option Reg
  | .shelf n => some (.shClk n.val)
  | .port p => some (.hpClk p.val)
  | .warden | .alwaysOn => none

/-- The island's clock runs. -/
def State.islandOn (s : State) (i : IslandId) : Bool :=
  match i with
  | .shelf n => s.shelfActive n.val
  | .port _ => s.power.pgd.getLsbD 8
  | .warden => s.power.pgd.getLsbD 9
  | .alwaysOn => s.power.block != .unpowered

/-- The effective target before the limiter (R389). -/
def State.baseTarget (s : State) (r : Reg) : Nat :=
  let t := getF s r 63 52
  if getF s .glPwr 63 62 = 2 then min t 1400 else t

/-- MARGIN that the generator steps toward, and the one in force (R381, R382). -/
def State.marginGoal (s : State) (r : Reg) : Nat := max (getF s r 39 34) (getF s r 33 28)
def State.marginNow (s : State) (k : Nat) (r : Reg) : Nat := (tget none s.power.margin k).getD (getF s r 33 28)

/-- One step from `a` toward `b`. -/
def stepToward (a b : Nat) : Nat := if a < b then a + 1 else if b < a then a - 1 else a

/-- STRETCH moves by one toward the smallest value at which FMEAS does not exceed the target; a limiter's step in the same window wins
(Table 16.5). -/
def stretchStep (stretch margin fmeas target lim : Nat) : Nat :=
  if target < fmeas then min 255 (stretch + 1)
  else if lim = 0 ∧ 0 < stretch ∧ fmeas * (64 + margin + stretch) ≤ target * (63 + margin + stretch) then stretch - 1
  else stretch

/-- FMEAS lies outside 0.5 to 1.25 times the effective target; a limiter's target lies between 1,200 MHz and the island's (R384, R391). -/
def freqBad (fmeas target lim : Nat) : Bool := decide (2 * fmeas < (if lim = 0 then target else min target 1200) ∨ 5 * target < 4 * fmeas)

/-- A generator fault: a shelf is retired, a port's clock is the slowest. -/
def State.clockFault (s : State) (k : Nat) (r : Reg) : State :=
  let s := setB s r 18 true
  if k < 64 then s.retireShelf k else setF s r 27 20 255

/-- A window of an island with a clock register. -/
def State.loopWindow (s : State) (k : Nat) (r : Reg) (fmeas : Nat) : State :=
  if getB s r 18 then s
  else
    let t := s.baseTarget r
    let m := stepToward (s.marginNow k r) (s.marginGoal r)
    let lim := tget 0 s.power.lim k
    let s := setF (setF s r 51 40 fmeas) r 27 20 (stretchStep (getF s r 27 20) (s.marginNow k r) fmeas t lim)
    let bad := if freqBad fmeas t lim then tget 0 s.power.badWindows k + 1 else 0
    let s := s.modPower (fun p => { p with
      margin := tset none p.margin k (if m = getF s r 33 28 then none else some m)
      badWindows := tset 0 p.badWindows k bad })
    if 16 ≤ bad then s.clockFault k r else s

/-- FTARGET of an island of fixed target, in MHz (Table 16.1). -/
def fixedTarget (k : Nat) : Nat := if k = 80 then 1000 else 250

/-- A window of the warden island or of the always-on island: MARGIN stays MFLOOR, and STRETCH alone moves. -/
def State.fixedWindow (s : State) (k fmeas : Nat) : State :=
  let c := tget {} s.power.ownClk (k - 80)
  let t := fixedTarget k
  let bad := if freqBad fmeas t 0 then c.badWindows + 1 else 0
  let c' : OwnClk := { fmeas := fmeas, stretch := stretchStep c.stretch (tget 0 s.fuses.mfloor k).toNat fmeas t 0, badWindows := bad, fault := c.fault || decide (16 ≤ bad) }
  s.modPower (fun p => { p with ownClk := tset {} p.ownClk (k - 80) c' })

def effFrequencyLoopWindow (i : IslandId) (fmeas : Nat) (s : State) : State :=
  if s.power.refLost || !s.islandOn i then s
  else match islandReg i with
    | some r => s.loopWindow (islandKey i) r fmeas
    | none => s.fixedWindow (islandKey i) fmeas

/-- FREQUENCY_LOOP_WINDOW (R382, R384, R430). -/
def execFrequencyLoopWindow (i : IslandId) (fmeas : Nat) (s : State) : Host.Outcome State Fault Refusal := .next (effFrequencyLoopWindow i fmeas s)

/-! ## Voltage requests (R388, R433) -/

/-- Codes that the CE-1024 issues: 0 to 60, 20 to 60 for SRAM. -/
def clampCode (d : Nat) (c : BitVec 7) : BitVec 7 := BitVec.ofNat 7 (max (if d = 9 then 20 else 0) (min 60 c.toNat))

/-- A request of domain `d` is unacknowledged. -/
def State.vBusy (s : State) (d : Nat) : Bool := s.power.vstb.getLsbD d != s.power.vack.getLsbD d

def effVoltageRequest (d : Nat) (c : BitVec 7) (s : State) : State :=
  if !s.power.pen.getLsbD d || s.vBusy d then s
  else
    let code := clampCode d c
    let s := s.modPower (fun p => { p with
      vreq := tset 0 p.vreq d code
      vstb := p.vstb ^^^ BitVec.ofNat 10 (2 ^ d)
      vreqAt := tset 0 p.vreqAt d s.now })
    s.emit (.vreq d code (s.power.vstb.getLsbD d))

/-- VOLTAGE_REQUEST (R433): clamped in hardware, and only while VSTB equals VACK. -/
def execVoltageRequest (d : Fin 10) (code : BitVec 7) (s : State) : Host.Outcome State Fault Refusal := .next (effVoltageRequest d.val code s)

def effVoltageAck (d : Nat) (s : State) : State :=
  if s.vBusy d then s.modPower (fun p => { p with vack := p.vack ^^^ BitVec.ofNat 10 (2 ^ d) }) else s

/-- VOLTAGE_ACK (R433). -/
def execVoltageAck (d : Fin 10) (s : State) : Host.Outcome State Fault Refusal := .next (effVoltageAck d.val s)

def effVoltageAckTimeout (d : Nat) (s : State) : State :=
  if s.vBusy d && decide (tget 0 s.power.vreqAt d + 100000 ≤ s.now) then
    let s := bumpF s .glTscfg 47 32 1
    let s := s.modPower (fun p => { p with vreqAt := tset 0 p.vreqAt d s.now })
    s.emit (.vreq d (tget 0 s.power.vreq d) (s.power.vstb.getLsbD d))
  else s

/-- VOLTAGE_ACK_TIMEOUT (R433): presented again. -/
def execVoltageAckTimeout (d : Fin 10) (s : State) : Host.Outcome State Fault Refusal := .next (effVoltageAckTimeout d.val s)

/-- GL_PWR_WRITE (R389): a reserved MODE or CAPW leaves its field (R11). -/
def execGlPwrWrite (who : Party) (v : Word) (s : State) : Host.Outcome State Fault Refusal :=
  .next (s.gateWrite who .glPwr v (fun s => s.plainWrite .glPwr v))

/-! ## The limiter (R390, R391) -/

/-- Power ceiling of a group in 1/80 W, so that the eighth of CAP is exact: PSHMAX is in 0.1 W (Table 16.4). -/
def State.powerCeiling (s : State) : Nat :=
  let p := 8 * s.fuses.pshmax.toNat
  if getF s .glPwr 63 62 = 1 then min p ((getF s .glPwr 61 54 - 55) * 10) else p

/-- One stretch step on the island of key `k` and register `r`, down to 1,200 MHz as measured; the flag tells that it is at the floor. -/
def State.limAdd (s : State) (k : Nat) (r : Reg) (on : Bool) : State × Bool :=
  if !on || getB s r 18 || decide (getF s r 51 40 ≤ 1200) then (s, true)
  else
    let s := setB (setF s r 27 20 (min 255 (getF s r 27 20 + 1))) r 19 true
    (s.modPower (fun p => { p with lim := tset 0 p.lim k (tget 0 p.lim k + 1) }), false)

/-- One of the limiter's stretch steps is removed. -/
def State.limSub (s : State) (k : Nat) (r : Reg) : State :=
  let n := tget 0 s.power.lim k
  if n = 0 then s
  else
    let s := setB (setF s r 27 20 (getF s r 27 20 - 1)) r 19 (decide (1 < n))
    s.modPower (fun p => { p with lim := tset 0 p.lim k (n - 1) })

/-- Shelves of a group. -/
def groupShelves (g : Nat) : List Nat := (List.range 8).map (fun j => 8 * j + g)

/-- While a limit is exceeded: a step on every island; 64 µs after the floor, issue gating. -/
def State.limTighten (s : State) (g : Nat) : State :=
  let r := foldS (groupShelves g) (fun (a : State × Bool) n => let t := a.1.limAdd n (.shClk n) (a.1.shelfActive n); (t.1, a.2 && t.2)) (s, true)
  let s := r.1
  let s := if getB s .glLimstat (56 + g) then s
    else
      let s := bumpF (setB s .glLimstat (56 + g) true) .glLimstat 31 16 1
      foldS (List.range 8) (fun s j => s.raise (8 * j + g) 26) s
  if !r.2 then s.modPower (fun p => { p with floorAt := tset none p.floorAt g none })
  else match tget none s.power.floorAt g with
    | none => s.modPower (fun p => { p with floorAt := tset none p.floorAt g (some s.now) })
    | some t => if t + 64000 ≤ s.now then setB s .glLimstat (32 + g) true else s

/-- Below both release thresholds: issue gating goes first, then a stretch step per 16 µs. -/
def State.limEase (s : State) (g : Nat) : State :=
  let s := s.modPower (fun p => { p with floorAt := tset none p.floorAt g none })
  if getB s .glLimstat (32 + g) then
    (setB s .glLimstat (32 + g) false).modPower (fun p => { p with easedAt := tset 0 p.easedAt g s.now })
  else if tget 0 s.power.easedAt g + 16000 ≤ s.now then
    let s := foldS (groupShelves g) (fun s n => s.limSub n (.shClk n)) s
    let s := s.modPower (fun p => { p with easedAt := tset 0 p.easedAt g s.now })
    if (groupShelves g).all (fun n => tget 0 s.power.lim n == 0) then setB s .glLimstat (56 + g) false else s
  else s

/-- A host port's own thermal limit: the same steps without issue gating. -/
def State.limPort (s : State) (p : Nat) (temp : Int) : State :=
  let r := Reg.hpClk p
  if 840 < temp then (s.limAdd (64 + p) r (s.power.pgd.getLsbD 8)).1
  else if temp < 800 ∧ tget 0 s.power.easedAt (64 + p) + 16000 ≤ s.now then
    (s.limSub (64 + p) r).modPower (fun x => { x with easedAt := tset 0 x.easedAt (64 + p) s.now })
  else s

def effLimiterSample (g : Nat) (m : LimiterSample) (s : State) : State :=
  if !s.power.pgd.getLsbD g then s
  else
  let c := s.powerCeiling
  let curr := decide (c < 8 * m.power)
  let therm := decide (840 < m.temp)
  let s := setB (setB s .glLimstat (40 + g) curr) .glLimstat (48 + g) therm
  let s := if curr || therm then s.limTighten g
    else if decide (8 * m.power * 100 < 95 * c) && decide (m.temp < 800) then s.limEase g
    else s
  (s.limPort g m.tempNorth).limPort (8 + g) m.tempSouth

/-- LIMITER_SAMPLE (R391): the group's shelves, and the host ports of its column. -/
def execLimiterSample (g : Fin 8) (m : LimiterSample) (s : State) : Host.Outcome State Fault Refusal := .next (effLimiterSample g.val m s)

/-! ## Powered down (R392, R434) -/

/-- Domains leave in the reverse order: the shelf domains from 7 down, then SRAM and host. -/
def State.dropPower (s : State) : State := foldS [7, 6, 5, 4, 3, 2, 1, 0, 9, 8] (fun s d => if s.power.pen.getLsbD d then s.emit (.pen d false) else s) s

/-- Only the always-on domain stays: fuses, the log store, DEVTIME, the Vexek port and its session (R387, R403). -/
def State.powerDown (s : State) : State :=
  let s := s.dropPower
  { s.coldReset .poweredDown with
    devtime := s.devtime
    regs := s.regs.filter (fun e => decide (0x3900000 ≤ e.1))
    warden := { (s.coldReset .poweredDown).warden with
      log := s.warden.log, logSeq := s.warden.logSeq, flushed := s.warden.flushed, ovwr := s.warden.ovwr, dynAddr := s.warden.dynAddr }
    vexek := { s.vexek with quar := [], draining := none, stWrites := [], pendingRead := none } }

def effThermalTrip (sensor : Nat) (eighths : Int) (s : State) : State :=
  if sensor < 88 ∧ 1000 ≤ eighths ∧ s.power.block ≠ .unpowered ∧ s.power.block ≠ .poweredDown then
    (s.modPower (fun p => { p with thermtrip := true })).powerDown.emit (.thermtrip true)
  else s

/-- THERMAL_TRIP (R392): 125 degrees at a thermal sensor. -/
def execThermalTrip (sensor : Fin 492) (eighths : Int) (s : State) : Host.Outcome State Fault Refusal := .next (effThermalTrip sensor.val eighths s)

/-! ## Shelf reset (R401) -/

/-- Registers of shelf `n` that its reset leaves: those of R357 and R402, and those of its steward, its memory arrays, its code bank and its
fallback region (log entry 17). -/
def keepShelf (n : Nat) : Reg → Bool
  | .shWedge _ | .shEcc _ | .shRtvec _ | .shLedfb _ | .shMemarb _ => true
  | r => keepWarm r || decide (r.off < 0x1000000 + n * 0x40000 ∨ 0x1000000 + (n + 1) * 0x40000 ≤ r.off)

/-- Reset shelf `n` (Table 16.7, time 0). What its ledger unit kept beside the entries stays until the buddy has adopted them: completion
indices that it reserved (R63), the ends of its streams, the links that packets used. -/
def State.resetShelf (s : State) (n : Nat) : State :=
  if s.isRetired n || (s.shelf n).phase == .reset then s
  else
    let s := bumpF s (.shPwr n) 31 16 1
    let h := s.shelf n
    let s := s.modShelf n (fun h => { h with phase := .reset })
    let s := s.shelfLeaves n
    let s := s.setShelf n { h.kept .reset with
      rehomed := h.rehomed
      commits := h.commits
      vol := h.vol
      streams := h.streams
      started := true
      adopt := if s.shelfGone (buddy n) then h.adopt else none }
    s.keepRegs (keepShelf n)

/-! ## Gating (R394, R395) -/

/-- No core of the shelf has a store-buffer entry or a tag outstanding. -/
def State.coresQuiet (s : State) (n : Nat) : Bool :=
  (s.cores.filter (fun e => e.1 / 16 == n)).all (fun e => decide (e.2.sbuf = []) && !s.storePending e.1)
    && (s.ctxs.filter (fun e => e.1 / 256 == n)).all (fun e => decide (e.2.tags = []))

/-- No glaze engine, move unit or queue operation is busy, and no queue that feeds a link holds an item. -/
def State.unitsQuiet (s : State) (n : Nat) : Bool :=
  let h := s.shelf n
  h.engines.all (fun e => decide (e.2.req = none ∧ e.2.testAt = none)) && decide (h.cryptoPool = [] ∧ h.compPool = [] ∧ h.commits = [])
    && (s.queues.filter (fun e => e.1 / 1024 == n)).all (fun e => decide (e.2.waiting = []) && e.2.staged.all (fun t => match t.owner with | .unit _ => false | _ => true))
    && (s.servedOrder n).all (fun l => decide ((s.queue n (s.feedQueue l)).items = []))
    && decide (h.keyMiss = []) && (List.range 4).all (fun m => !s.writing n m) && (s.servedOrder n).all (fun l => (s.link l).rxFifo.all (fun x => x.eng.isNone))

def effShelfGate (n : Nat) (s : State) : State :=
  let h := s.shelf n
  if !s.shelfActive n || !h.idleAsked then s
  else if s.shelfIdle n && s.coresQuiet n && s.unitsQuiet n then
    let s := s.modShelf n (fun h => { h with phase := .gated, idleAsked := false, wakeArmed := false })
    let s := setF s (.shPwr n) 47 32 (getF s (.shPwr n) 47 32 + 1)
    foldS (s.shelfKeys n) (fun s k => s.wdogStop k) s
  else s.modShelf n (fun h => { h with idleAsked := false, idleSince := s.now })

/-- SHELF_GATE (R394); a debug session keeps its clocks running, and nothing else differs (R418). -/
def execShelfGate (n : Fin 64) (s : State) : Host.Outcome State Fault Refusal := .next (effShelfGate n.val s)

/-- A timer of R395 is due on shelf `n`. -/
def State.wakeDue (s : State) (n : Nat) : Bool :=
  let due := fun (t : Nat) => decide (t ≠ 0 ∧ t ≤ s.now)
  (s.ctxs.filter (fun e => e.1 / 256 == n)).any (fun e => due e.2.wtime.toNat)
    || (s.cores.filter (fun e => e.1 / 16 == n)).any (fun e => due e.2.evtmr.toNat)
    || (s.ledRegions n).any (fun r => (s.region r).any (fun e =>
      (decide (e.2.role = .origin ∧ e.2.st ≠ .retired ∧ e.2.st ≠ .complete) && due e.2.word30.toNat)
        || s.reached (s.vol r e.1).ackDue || s.reached (s.vol r e.1).idleDue))
    || (s.evsrcs.filter (fun e => e.1 / 256 == n)).any (fun e => s.reached e.2.coalDue)
    || (s.holdoff.filter (fun e => e.1 / 16 == n)).any (fun e => due e.2)
    || s.rings.any (fun e => s.reached e.2.evDue)

/-- Wake a gated shelf: its watchdogs count again, and the queue operations that its router held are taken (R25). -/
def State.ungate (s : State) (n : Nat) : State :=
  if (s.shelf n).phase = .gated then
    let s := s.modShelf n (fun h => { h with phase := .active, wakeArmed := false, idleSince := s.now })
    (foldS (s.shelfKeys n) (fun s k => s.wdogResume k 0) s).runHeld n
  else s

def effShelfWake (n : Nat) (ok : Bool) (s : State) : State :=
  if (s.shelf n).wakeArmed || s.flue.any (fun m => m.dst == attShelf n) || s.wakeDue n then
    (if ok then s.ungate n else if (s.shelf n).phase = .gated then s.resetShelf n else s)
  else s

/-- SHELF_WAKE (R25, R395); after a wake that fails the steward resets the shelf (R401). -/
def execShelfWake (w : WakeResult) (s : State) : Host.Outcome State Fault Refusal := .next (effShelfWake w.shelf.val w.ok s)

/-! ## Reference clock and TSYNC (R430, R431) -/

/-- REFCLK_LOST (R430). -/
def execRefclkLost (s : State) : Host.Outcome State Fault Refusal := .next (s.modPower (fun p => { p with refLost := true }))

/-- REFCLK_RESTORED (R430). -/
def execRefclkRestored (s : State) : Host.Outcome State Fault Refusal := .next (s.modPower (fun p => { p with refLost := false }))

def effTsyncIn (s : State) : State :=
  let early := match s.power.tsyncAt with
    | some t => decide (s.now < t + 1000)
    | none => false
  if early then s else (wrReg s .glTscap s.devtime).modPower (fun p => { p with tsyncAt := some s.now })

/-- TSYNC_IN (R431). -/
def execTsyncIn (s : State) : Host.Outcome State Fault Refusal := .next (effTsyncIn s)

/-- TSYNC_OUT is high for 100 ns from each DEVTIME that is a multiple of PER µs. -/
def State.tsyncOutHigh (s : State) : Bool :=
  let per := getF s .glTscfg 19 0
  decide (per ≠ 0 ∧ s.now % (per * 1000) < 100)

/-- TSYNC_OUT_PERIOD (R431). -/
def execTsyncOutPeriod (s : State) : Host.Outcome State Fault Refusal :=
  .next (if s.tsyncOutHigh ∧ s.now % (getF s .glTscfg 19 0 * 1000) = 0 then s.emit (.tsyncOut true) else s)

end Sys2Proof.Machine
end

