-- ==== Sys2Proof/Machine/StartUp.lean ====
section
/-! DEFINITION. Cold start, power-good, shelf tests, RTGO, HRDY, warm reset and shelf reset (R396 to R401, R434, R435), with their rows. -/

namespace Sys2Proof.Machine

/-! ## Power domains in their order (R434, Table 16.6) -/

/-- Raise PEN of a domain. -/
def State.raisePen (s : State) (d : Nat) : State :=
  if s.power.pen.getLsbD d then s
  else (s.modPower (fun p => { p with pen := p.pen ||| BitVec.ofNat 10 (2 ^ d), penAt := tset 0 p.penAt d s.now })).emit (.pen d true)

/-- The domain after `d` in the order of Table 16.6: shelf domains follow once host and SRAM are up, then one after the other. -/
def State.nextPen (s : State) (d : Nat) : State :=
  if 8 ≤ d then (if s.power.pgd.getLsbD 8 && s.power.pgd.getLsbD 9 then s.raisePen 0 else s)
  else if d < 7 then s.raisePen (d + 1)
  else s

def effColdStart (s : State) : State :=
  if s.power.block = .mgmtReady ∨ s.power.block = .hostReady then s
  else
    let trip := s.power.thermtrip
    let s := s.endSession.coldReset .inReset
    let s := if trip then s.emit (.thermtrip false) else s
    (s.raisePen 9).raisePen 8

/-- COLD_START (R396): DEVTIME 0, fuses sensed, and the SRAM and host domains are raised. -/
def execColdStart (s : State) : Host.Outcome State Fault Refusal := .next (effColdStart s)

/-- COLD_RESET (R435): abrupt; a block that is powered down stays so until its cold start. -/
def execColdReset (s : State) : Host.Outcome State Fault Refusal :=
  .next (if s.power.block = .unpowered ∨ s.power.block = .poweredDown then s else s.coldReset .inReset)

/-- PWRGD_FALL (R435): abrupt loss of power. -/
def execPwrgdFall (s : State) : Host.Outcome State Fault Refusal := .next (s.coldReset .unpowered)

def effPgdRise (d : Nat) (s : State) : State :=
  if s.power.pen.getLsbD d && !s.power.pgd.getLsbD d then
    (s.modPower (fun p => { p with pgd := p.pgd ||| BitVec.ofNat 10 (2 ^ d) })).nextPen d
  else s

/-- PGD_RISE (R434). -/
def execPgdRise (d : Fin 10) (s : State) : Host.Outcome State Fault Refusal := .next (effPgdRise d.val s)

/-! ## All shelves tested -/

/-- MEMDONE is set once every shelf has finished its test or is retired (Table 16.13). At cold start the firmware then draws the keys of
R144 and R309; it writes a runtime image that verifies into half 0 of each code bank (Table 16.6). -/
def State.testsDone (s : State) : State :=
  if !getB s .glBootstat 61 && (List.range 64).all (fun n => (s.shelf n).started || s.isRetired n) then
    let s := setB s .glBootstat 61 true
    let s := if s.power.warm then s else s.drawKeys
    let f := s.warden.rtImage s.warden.rtSlot
    if f.wellFormed 2 && s.imageOk f then
      foldS ((List.range 64).filter (fun n => !s.isRetired n)) (fun s n =>
        (s.store (shelfAddr n 0x1E0000) f.body).modShelf n (fun h => { h with rtEntry := tset 0 h.rtEntry 0 f.entry })) s
    else s
  else s

/-- Retire the eight shelves of a group (Table 18.5). -/
def State.retireGroup (s : State) (g : Nat) : State := (foldS (List.range 8) (fun s j => s.retireShelf (8 * j + g)) s).testsDone

def effPgdTimeout (d : Nat) (s : State) : State :=
  if s.power.pen.getLsbD d && !s.power.pgd.getLsbD d && decide (tget 0 s.power.penAt d + 500000 ≤ s.now) && decide (d < 8) then
    (s.retireGroup d).nextPen d
  else s

/-- PGD_TIMEOUT (R434, Table 18.5): without the host or SRAM domain the block stays in reset. -/
def execPgdTimeout (d : Fin 10) (s : State) : Host.Outcome State Fault Refusal := .next (effPgdTimeout d.val s)

def effPgdFall (d : Nat) (s : State) : State :=
  if !s.power.pgd.getLsbD d then s
  else
    let t := s.modPower (fun p => { p with pgd := p.pgd &&& ~~~ BitVec.ofNat 10 (2 ^ d) })
    if !s.power.pen.getLsbD d then t
    else if d < 8 then t.retireGroup d
    else t.coldReset .inReset

/-- PGD_FALL (Table 18.5). -/
def execPgdFall (d : Fin 10) (s : State) : Host.Outcome State Fault Refusal := .next (effPgdFall d.val s)

/-! ## Shelf tests (R397, Table 16.7) -/

/-- Failing rows are repaired; one without a spare row is pinned (R315). -/
def State.repairRows (s : State) (n : Nat) (rows : List Nat) : State :=
  foldS (rows.filter (fun r => decide (r < wedgeRegions))) (fun s r =>
    match s.repairRow n r with
    | some t => t
    | none => if getB s (.shWedge n) 62 then s else (setB s (.shWedge n) 62 true).raise n 19) s

/-- Take the slots of a failed core out of service, its pair with it. -/
def State.disableSlot (s : State) (n i : Nat) : State := foldS (s.unitSlots n i) (fun s j => setB s (.shCorestat n) (26 + j) true) s

/-- A core fails its test: it is marked; a slot that it serves goes to the spare, or out of service. -/
def State.coreFails (s : State) (n c : Nat) : State :=
  if getB s (.shCorestat n) (42 + c) then s
  else
    let sp := s.spare n
    let s := setB s (.shCorestat n) (42 + c) true
    if c = sp then s.setSpare n 31
    else match s.slotOf n c with
      | none => s
      | some i => if sp < 17 then (s.setPhys n i sp).setSpare n 31 else s.disableSlot n i

/-- Map the cores after their tests: a failing spare first, so that it serves no slot, then failing cores by ascending slot (R397). -/
def State.mapCores (s : State) (n : Nat) (pass : BitVec 17) : State :=
  let bad := (List.range 17).filter (fun c => !pass.getLsbD c)
  foldS (bad.filter (fun c => c == s.spare n) ++ bad.filter (fun c => c != s.spare n)) (fun s c => s.coreFails n c) s

/-- PASS of each glaze engine. -/
def State.mapEngines (s : State) (n : Nat) (crypto : BitVec 4) (comp : BitVec 2) : State :=
  setF (setF s (.shGlstat n) 63 60 crypto.toNat) (.shGlstat n) 59 58 comp.toNat

/-- A failure that Table 14.4 names. -/
def State.testFatal (s : State) (n : Nat) (r : StartupResult) : Bool :=
  decide (s.logicalCores n < getF s (.shFtcfg n) 55 51) || r.cryptoPass == 0 || r.compPass == 0 || !r.routerOk || !r.clockOk || !r.saggarOk

/-- The parts that both tests share. -/
def State.applyTest (s : State) (n : Nat) (r : StartupResult) : State :=
  ((s.repairRows n r.failRows).mapCores n r.coresPass).mapEngines n r.cryptoPass r.compPass

/-- The shelf is retired in place of becoming active; a saggar that fails stays closed (R311, R397). -/
def State.testRetires (s : State) (n : Nat) (r : StartupResult) : State :=
  let s := if r.saggarOk then s else (setB s .glWipefail n true).modShelf n (fun h => { h with saggarClosed := true })
  s.retireShelf n

/-- The shelf's domain is up and it waits for its test. -/
def State.inTest (s : State) (n : Nat) : Bool := (s.shelf n).phase == .reset && !s.isRetired n && s.shelfPowered n && (s.shelf n).restore.isNone

def effShelfStartupTestDone (n : Nat) (r : StartupResult) (s : State) : State :=
  if s.inTest n && !s.power.warm && !(s.shelf n).started then
    let s := (s.applyTest n r).modShelf n (fun h => { h with homeKeys := [], mirrorKeys := [], keyCache := [], transportKey := none, sealKey := 0, sealCtr := 0 })
    (if s.testFatal n r then s.testRetires n r else s.shelfUp n false).testsDone
  else s

/-- SHELF_STARTUP_TEST_DONE (R397). -/
def execShelfStartupTestDone (n : Fin 64) (r : StartupResult) (s : State) : Host.Outcome State Fault Refusal :=
  .next (effShelfStartupTestDone n.val r s)

/-- Emergency TSBs and the free general area are zeroed (Table 16.7). -/
def State.zeroGeneral (s : State) (n : Nat) : State :=
  let a := shelfAddr n 0xC0000
  let b := shelfAddr n 0x1E0000
  { s with mem := dropKeys s.mem a b, ctags := dropKeys s.ctags (granule a) (granule b), bad := dropKeys s.bad (a / 8) (b / 8) }

/-- Key slots are repaired from the buddy's mirror, and the mirror of the buddy's slots from its home copies (Table 16.7, R142). -/
def State.refreshKeys (s : State) (n : Nat) : State :=
  let b := s.shelf (buddy n)
  if (s.shelf n).saggarClosed || !s.saggarOpen (buddy n) then s
  else s.modShelf n (fun h => { h with homeKeys := b.mirrorKeys, mirrorKeys := b.homeKeys })

def effShelfResetDone (n : Nat) (r : StartupResult) (s : State) : State :=
  let first := !(s.shelf n).started
  if s.inTest n && (s.power.warm || !first) then
    let s := ((s.applyTest n r).zeroGeneral n).refreshKeys n
    if s.testFatal n r then (s.testRetires n r).testsDone
    else if first then (s.shelfUp n false).testsDone
    else s.leaveReset n
  else s

/-- SHELF_RESET_DONE (R401, Table 16.7; R400 after warm reset). -/
def execShelfResetDone (n : Fin 64) (r : StartupResult) (s : State) : Host.Outcome State Fault Refusal := .next (effShelfResetDone n.val r s)

/-! ## Shelf reset and RTGO (R399, R401) -/

/-- A write of SH_PWR: RST resets the shelf, RTGO starts its root context. -/
def State.writeShPwr (s : State) (n : Nat) (v : Word) : State :=
  let s := if bitAt v 60 && s.shelfActive n then s.startRoot n else s
  if bitAt v 61 then s.resetShelf n else s

def effShPwr (who : Party) (n : Nat) (v : Word) (s : State) : State :=
  if s.isRetired n = false ∧ (s.shelf n).phase = .reset then s else s.gateWrite who (.shPwr n) v (fun s => s.writeShPwr n v)

/-- RTGO (R399). -/
def execRtgo (who : Party) (n : Fin 64) (v : Word) (s : State) : Host.Outcome State Fault Refusal := .next (effShPwr who n.val v s)

/-- SHELF_RESET (R401). -/
def execShelfReset (who : Party) (n : Fin 64) (v : Word) (s : State) : Host.Outcome State Fault Refusal := .next (effShPwr who n.val v s)

/-! ## HRDY and warm reset (R398, R400) -/

/-- Every enabled link has been ACTIVE or FAILED since the start. -/
def State.linkDone (s : State) : Bool := (List.range 256).all (fun l => !getB s (.lkCfg l) 63 || (s.link l).reached)

/-- A write of GL_BOOTSTAT: HRDY makes the block host-ready; a write of 0 is ignored. -/
def State.writeBootstat (s : State) (v : Word) : State :=
  if bitAt v 63 && s.power.block == .mgmtReady then
    let s := s.modPower (fun p => { p with block := .hostReady })
    setF (setB s .glBootstat 63 true) .glBootstat 31 0 ((s.now - s.power.startAt) / 1000)
  else s

def effHrdy (who : Party) (v : Word) (s : State) : State := s.gateWrite who .glBootstat v (fun s => s.writeBootstat v)

/-- HRDY (R398). -/
def execHrdy (who : Party) (v : Word) (s : State) : Host.Outcome State Fault Refusal := .next (effHrdy who v s)

def effWarmReset (s : State) : State :=
  if s.power.block = .mgmtReady ∨ s.power.block = .hostReady then (foldS (List.range 64) (fun s n => s.haltsLost n) s).warmReset 1
  else s

/-- WARM_RESET (R400, Table 18.7): one that falls before management-ready merges into the start in progress. -/
def execWarmReset (s : State) : Host.Outcome State Fault Refusal := .next (effWarmReset s)

end Sys2Proof.Machine
end

