-- ==== Sys2Proof/Machine/Debug.lean ====
section
/-! DEFINITION. The Vexek port's sessions, run control, state and memory access, quarantine, trace and fuse programming (R403 to R422, R438),
with their rows. -/

namespace Sys2Proof.Machine

/-! ## Sessions (R406 to R410) -/

/-- Bytes of the session buffer. -/
def State.sbufBytes (s : State) (off n : Nat) : List Byte :=
  (List.range n).map (fun i => (wordBytes (rdReg s (.vxSbuf ((off + i) / 8)))).getD ((off + i) % 8) 0)

/-- The authenticator writes bytes of the session buffer. -/
def State.putSbuf (s : State) (off : Nat) (b : List Byte) : State :=
  let w := fromWords ((List.range 64).map (fun i => rdReg s (.vxSbuf i)))
  ((List.range 64).zip (toWords 64 (putBytes w off b))).foldl (fun s e => wrReg s (.vxSbuf e.1) e.2) s

/-- The port is locked. -/
def State.vxLocked (s : State) : Bool := s.vexek.lockUntil.isSome

/-- A failed opening: AUTHF and its record; the eighth in a row locks the port for 10 s (R409). -/
def State.authFail (s : State) : State :=
  let s := (setB s .vxStat 61 true).logSession 3
  let s := s.modVexek (fun v => { v with chal := false, eph := none, credOk := false, cred := [], fails := v.fails + 1 })
  if s.vexek.fails < 8 then s
  else (s.modVexek (fun v => { v with fails := 0, lockUntil := some (s.now + 10000000000) })).logSession 4

/-- A request that is not permitted: AUTHF alone. -/
def State.authDeny (s : State) : State := setB s .vxStat 61 true

/-- Open a session; one at RUN or WARDEN level wakes every gated shelf (R418). -/
def State.openSession (s : State) (level : Nat) (shelves : Word) : State :=
  let s := s.endSession
  let s := s.modVexek (fun v => { v with level := level, shelves := shelves, fails := 0, chal := false, eph := none, credOk := false, cred := [] })
  let s := s.logSession 1
  if 2 ≤ level then foldS (List.range 64) (fun s n => s.ungate n) s else s

/-- OP 1 of VX_SESS: the password of R407 and R408, in MANUFACTURE only. -/
def State.openPwd (s : State) : State :=
  if s.fuses.lc ≠ 0 ∨ s.vxLocked = true then s.authDeny
  else if s.vexek.pwd1 ++ s.vexek.pwd0 = s.fuses.pwd then s.openSession 3 (BitVec.allOnes 64)
  else s.authFail

/-- Fields of a credential (Table 17.5). -/
def credLevel (c : List Byte) : Nat := natIn c 4 1
def credIssuer (c : List Byte) : Nat := natIn c 5 1
def credSerial (c : List Byte) : Word := wordIn c 8
def credShelves (c : List Byte) : Word := wordIn c 16

/-- The issuers that the life-cycle state accepts (Table 17.4). -/
def issuerOk (lc : BitVec 2) (issuer : Nat) (serial glSerial : Word) : Bool :=
  match lc.toNat with
  | 0 => false
  | 2 => issuer == 1 || (issuer == 0 && serial == glSerial)
  | _ => true

/-- The credential's fields are as Table 17.5 says. -/
def credFields (c : List Byte) (glSerial : Word) : Bool :=
  let lv := credLevel c
  natIn c 0 4 == 0x56584B31 && decide (1 ≤ lv ∧ lv ≤ 3) && decide (credIssuer c ≤ 1) && natIn c 6 2 == 0
    && (credSerial c == glSerial || (credSerial c == 0 && lv != 3)) && (lv != 3 || credSerial c != 0)
    && (lv != 3 || credShelves c == BitVec.allOnes 64) && wordIn c 24 == 0 && natIn c 224 32 == 0

/-- The credential's signature under its issuer's debug key. -/
def State.credSigned (s : State) (c : List Byte) : Bool :=
  Config.ecdsaVerify (if credIssuer c = 0 then s.fuses.debugKey else s.fuses.ownerKey) (Config.sha384 (c.take 128))
    (BitVec.ofNat 384 (beNatIn c 128 48)) (BitVec.ofNat 384 (beNatIn c 176 48))

/-- OP 2 of VX_SESS: the authenticator checks the credential in the buffer; a good one is kept for the challenge. -/
def State.openCred (s : State) : State :=
  let c := s.sbufBytes 0 256
  if s.vxLocked || !issuerOk s.fuses.lc (credIssuer c) (credSerial c) s.fuses.serial then s.authDeny
  else if credFields c s.fuses.serial && s.credSigned c then
    s.modVexek (fun v => { v with credOk := true, cred := c, chal := false, eph := none })
  else s.authFail

/-- 384 bits of a random draw: six free values from number `i` on. -/
def State.draw384 (s : State) (i : Nat) : BitVec 384 :=
  BitVec.ofNat 384 (leNat ((List.range 6).flatMap (fun j => wordBytes (Config.freeValue (s.freeCtr + i + j)))))

def effVxChallengeReady (s : State) : State :=
  if s.vexek.credOk && !s.vexek.chal then
    let e := s.draw384 0
    let n := s.draw384 6
    let s := (s.putSbuf 0x100 (beBytes 96 (Config.p384Public e).toNat)).putSbuf 0x160 (beBytes 48 n.toNat)
    { s with
      freeCtr := s.freeCtr + 12
      vexek := { s.vexek with chal := true, eph := some e, challenge := n } }
  else s

/-- VX_CHALLENGE_READY (R409 step 2): the ephemeral key and the challenge are random draws. -/
def execVxChallengeReady (s : State) : Host.Outcome State Fault Refusal := .next (effVxChallengeReady s)

/-- "VXSESS". -/
def vxsess : List Byte := [0x56, 0x58, 0x53, 0x45, 0x53, 0x53]

/-- The proof that the authenticator expects (R409 step 3). -/
def State.expectedProof (s : State) (e : BitVec 384) : BitVec 384 :=
  let c := s.vexek.cred
  let z := beBytes 48 (Config.p384Shared e (BitVec.ofNat 768 (beNatIn c 32 96))).toNat
  let n := beBytes 48 s.vexek.challenge.toNat
  let k := leBytes 48 (Config.hmac384 z (vxsess ++ n ++ wordBytes s.fuses.serial)).toNat
  Config.hmac384 k (n ++ leBytes 48 (Config.sha384 c).toNat)

/-- OP 3 of VX_SESS. -/
def State.prove (s : State) : State :=
  if s.vxLocked then s.authDeny
  else match s.vexek.eph with
    | some e =>
      if s.vexek.chal && BitVec.ofNat 384 (natIn (s.sbufBytes 0x190 48) 0 48) == s.expectedProof e then
        s.openSession (credLevel s.vexek.cred) (credShelves s.vexek.cred)
      else s.authFail
    | none => s.authFail

/-- A write of VX_SESS. -/
def State.writeSess (s : State) (v : Word) : State :=
  match fld v 63 60 with
  | 1 => s.openPwd
  | 2 => s.openCred
  | 3 => s.prove
  | 4 => s.endSession
  | _ => s

/-- The write of VX_SESS with an OP by the debugger. -/
def State.sessOp (s : State) (op : Nat) : State := s.gateWrite .debugger .vxSess (place 63 60 op) (fun s => s.writeSess (place 63 60 op))

/-- OPEN_PWD (R407). -/
def execOpenPwd (s : State) : Host.Outcome State Fault Refusal := .next (s.sessOp 1)

/-- OPEN_CRED (R409). -/
def execOpenCred (s : State) : Host.Outcome State Fault Refusal := .next (s.sessOp 2)

/-- PROVE (R409). -/
def execProve (s : State) : Host.Outcome State Fault Refusal := .next (s.sessOp 3)

/-- CLOSE (R410). -/
def execClose (s : State) : Host.Outcome State Fault Refusal := .next (s.sessOp 4)

/-- VX_LOCK_EXPIRY (R409). -/
def execVxLockExpiry (s : State) : Host.Outcome State Fault Refusal :=
  .next (if s.reached s.vexek.lockUntil then s.modVexek (fun v => { v with lockUntil := none }) else s)

/-! ## Halt and release (R411 to R415) -/

/-- The session's SHELVES mask takes in a core; the warden's core takes WARDEN level. -/
def State.inSession (s : State) (k : Nat) : Bool := if k = wardenKey then s.vexek.level == 3 else bitAt s.vexek.shelves (keyShelf k)

/-- Cores in scope of the session that belong to a group named in bits 15 to 1. -/
def State.groupCores (s : State) (v : Word) : List Nat :=
  s.coreKeys.filter (fun k => s.inSession k && (s.groupsOf k).any (fun g => g != 0 && bitAt v g))

/-- A write of VX_HALT. -/
def State.writeVxHalt (s : State) (v : Word) : State := foldS (s.groupCores v) (fun s k => s.triggerCore k) s

/-- VX_HALT (R411). -/
def execVxHalt (v : Word) (s : State) : Host.Outcome State Fault Refusal :=
  .next (s.gateWrite .debugger .vxHalt v (fun s => s.writeVxHalt v))

/-- An access to a page with side effects is on its way, so that it completes first (R272, R412). -/
def State.seOut (s : State) (k : Nat) : Bool :=
  s.seWaiting k || (List.range 16).any (fun r => (s.ctx k r).tags.any (fun e => e.2.se && e.2.res.isNone))

def effCoreHalted (c : CoreId) (s : State) : State :=
  let k := s.coreKey c
  let x := s.core k
  if s.coreLive k && x.haltReq && !x.halted && decide (x.sbuf = []) && x.adWait.isNone && !x.pair && !s.storePending k && !s.seOut k
      && !s.fpMoving k then
    let s := match x.run with
      | some r => s.modCtx k r (fun y => { y.settle with backward := none })
      | none => s
    let s := (s.wdogStop k).modCore k (fun c => { c.flushed with halted := true, haltReq := false, step := false })
    s.traceKind k 1
  else s

/-- CORE_HALTED (R412): at a boundary with the store buffer empty; an instruction that waits issues again after the release. -/
def execCoreHalted (c : CoreId) (s : State) : Host.Outcome State Fault Refusal := .next (effCoreHalted c s)

/-- The selected core lies in the session's scope. -/
def State.selScope (s : State) : Bool := s.inSession s.selCore

/-- STEP: the selected core issues one instruction, pair or element and halts again. -/
def State.stepCore (s : State) : State :=
  let k := s.selCore
  if s.selScope && (s.core k).halted then
    (((s.applyWrites k).modCore k (fun c => { c with halted := false, step := true })).wdogResume k 4096 |>.sampleTmr k).traceKind k 2
  else s

/-- A write of VX_RUN; with STEP the selected core steps, also where a group that is released holds it. -/
def State.writeVxRun (s : State) (v : Word) : State :=
  let step := bitAt v 63
  let ks := s.groupCores v
  let s := foldS (if step then ks.filter (fun k => k != s.selCore) else ks) (fun s k => s.releaseCore k) s
  if step then s.stepCore else s

/-- VX_RUN (R414). -/
def execVxRun (v : Word) (s : State) : Host.Outcome State Fault Refusal :=
  .next (s.gateWrite .debugger .vxRun v (fun s => s.writeVxRun v))

/-- VX_STEP (R414): VX_RUN with STEP set. -/
def execVxStep (v : Word) (s : State) : Host.Outcome State Fault Refusal :=
  .next (s.gateWrite .debugger .vxRun (v ||| bitIf 63 true) (fun s => s.writeVxRun (v ||| bitIf 63 true)))

/-! ## State and memory of a halted core (R413) -/

/-- The selected core is not halted: the access is answered FAULT and NOTHALT is set. -/
def State.notHalted (s : State) : State := setB s .vxStat 62 true

/-- A read of VX_STDATA. -/
def State.readStdata (s : State) : VxAnswer × State :=
  let k := s.selCore
  let i := 8 * getF s .vxStidx 10 3
  if !s.selScope then (.ok (some 0), s.violate .debugger false (Reg.off .vxStdata))
  else if !(s.core k).halted then (.fault, s.notHalted)
  else if s.stPending k s.selStore i then (.ok (some 0), setB s .vxStat 60 true)
  else (.ok (some (s.stView k s.selStore i)), s.drawn)

/-- A write of VX_STDATA, which takes effect at release. -/
def State.writeStdata (s : State) (v : Word) : State :=
  let k := s.selCore
  if !s.selScope then s.violate .debugger true (Reg.off .vxStdata)
  else if !(s.core k).halted then s.notHalted
  else s.modVexek (fun x => { x with stWrites := x.stWrites ++ [(k, s.selStore, 8 * getF s .vxStidx 10 3, v)] })

/-- VX_STATE_WRITE (R413). -/
def execVxStateWrite (v : Word) (s : State) : Host.Outcome State Fault Refusal :=
  .next (s.gateWrite .debugger .vxStdata v (fun s => s.writeStdata v))

/-- Byte address that VX_MADDR names. -/
def State.mAddr (s : State) : Nat := 8 * getF s .vxMaddr 51 3

/-- An offset that the memory access of a debugger reaches in a shelf's memory; beyond the shelf there is none. -/
def State.mShelfAddr (s : State) : Option Nat := if inGeneral s.mAddr then some (shelfAddr (keyShelf s.selCore) s.mAddr) else none

/-- A debugger's host read is still on its way, for this session or an earlier one. -/
def State.dbgReadOut (s : State) : Bool := s.ports.any (fun p => p.2.reqs.any (fun r => r.2.who == .debugger && r.2.op == .readThrough))

/-- A read of VX_MDATA: shelf memory at once, an uncorrectable word as a free value; host memory with READ-THROUGH, and WAIT until it has
answered. -/
def State.readMdata (s : State) : VxAnswer × State :=
  if !s.selScope then (.ok (some 0), s.violate .debugger false (Reg.off .vxMdata))
  else if !(s.core s.selCore).halted then (.fault, s.notHalted)
  else if getB s .vxMaddr 63 then
    match s.vexek.readData with
    | some w => (.ok (some w), s.modVexek (fun v => { v with readData := none, pendingRead := none }))
    | none =>
      if s.dbgReadOut then (.wait, s)
      else (.wait, (s.modVexek (fun v => { v with pendingRead := some (Reg.off .vxMdata) })).request (s.servingPort (s.mAddr / 64))
        { op := .readThrough, line := s.mAddr / 64, se := false, who := .debugger, data := [], be := 0, off := s.mAddr % 64 })
  else match s.mShelfAddr with
    | some a => if s.badIn a 8 then (.ok (some s.free), (s.eccUnc a).drawn) else (.ok (some (s.word a)), s)
    | none => (.ok (some 0), s.violate .debugger false (Reg.off .vxMdata))

/-- A write of VX_MDATA: to host memory checked as a core store with the VMID of the selected context (R330). -/
def State.writeMdata (s : State) (v : Word) : State :=
  let k := s.selCore
  if !s.selScope then s.violate .debugger true (Reg.off .vxMdata)
  else if !(s.core k).halted then s.notHalted
  else if getB s .vxMaddr 63 then
    (s.hostWrite .debugger 3 none (some (BitVec.ofNat 12 (xlatVmid (s.ctx k s.selStore).xlat))) s.mAddr (wordBytes v)).1
  else match s.mShelfAddr with
    | some a => s.storeWords a [v]
    | none => s.violate .debugger true (Reg.off .vxMdata)

def effVxMemoryRead (s : State) : State :=
  if s.power.block = .unpowered then s
  else if s.permitted .debugger (Reg.off .vxMdata) false then
    let q := s.readMdata
    q.2.emit (.vexek q.1)
  else (s.violate .debugger false (Reg.off .vxMdata)).emit (.vexek (.ok (some 0)))

/-- VX_MEMORY_READ (R413). -/
def execVxMemoryRead (s : State) : Host.Outcome State Fault Refusal := .next (effVxMemoryRead s)

/-- VX_MEMORY_WRITE (R413). -/
def execVxMemoryWrite (v : Word) (s : State) : Host.Outcome State Fault Refusal :=
  .next (s.gateWrite .debugger .vxMdata v (fun s => s.writeMdata v))

/-! ## Quarantine (R416) -/

/-- The active slot that holds the state of slot `i`. -/
def State.pairSlot (s : State) (n i : Nat) : Nat := if s.paired n then i / 2 * 2 else i

/-- GO 1: the steward holds the slot's contexts, and raises STEWARD when all are held (`State.tellDrain`); one slot drains at a time. -/
def State.startQuarantine (s : State) (n i : Nat) : State :=
  if s.vexek.draining.isSome || s.vexek.quar.contains (n, i) then s
  else (s.modVexek (fun v => { v with draining := some (n, i, s.now), drainTold := false })).markHolds (16 * n + i)

/-- GO 0. -/
def State.endQuarantine (s : State) (n i : Nat) : State :=
  if s.vexek.quar.contains (n, i) then s.clearQuarantine n i
  else match s.vexek.draining with
    | some (m, j, _) => if m = n ∧ j = i then s.dropDraining else s
    | none => s

/-- A write of VX_QUAR. -/
def State.writeQuar (s : State) (v : Word) : State :=
  let n := fld v 9 4
  if !bitAt s.vexek.shelves n then s.violate .debugger true (Reg.off .vxQuar)
  else
    let s := s.plainWrite .vxQuar v
    let i := s.pairSlot n (fld v 3 0)
    if bitAt v 63 then s.startQuarantine n i else s.endQuarantine n i

/-- VX_QUARANTINE (R416): VX_QUAR with GO 1. -/
def execVxQuarantine (v : Word) (s : State) : Host.Outcome State Fault Refusal :=
  .next (s.gateWrite .debugger .vxQuar v (fun s => s.writeQuar (v ||| bitIf 63 true)))

/-- VX_QUARANTINE_CLEAR (R416): VX_QUAR with GO 0. -/
def execVxQuarantineClear (v : Word) (s : State) : Host.Outcome State Fault Refusal :=
  .next (s.gateWrite .debugger .vxQuar v (fun s => s.writeQuar (v &&& ~~~ bitIf 63 true)))

/-- Every store of core `k` is empty. -/
def State.storesEmpty (s : State) (k : Nat) : Bool := (List.range 16).all (fun r => !(s.ctx k r).resident)

def effQuarantineDone (s : State) : State :=
  match s.vexek.draining with
  | some (n, i, _) =>
    if s.storesEmpty (16 * n + i) then s.modVexek (fun v => { v with draining := none, quar := v.quar ++ [(n, i)] }) else s
  | none => s

/-- QUARANTINE_DONE (R416 step 3). -/
def execQuarantineDone (s : State) : Host.Outcome State Fault Refusal := .next (effQuarantineDone s)

def effQuarantineTimeout (s : State) : State :=
  match s.vexek.draining with
  | some (n, i, t) => if !s.storesEmpty (16 * n + i) && decide (t + 1000000 ≤ s.now) then setB s.dropDraining .vxStat 58 true else s
  | none => s

/-- QUARANTINE_TIMEOUT (R416). -/
def execQuarantineTimeout (s : State) : Host.Outcome State Fault Refusal := .next (effQuarantineTimeout s)

/-! ## Trace (R420, R421) -/

/-- Packets that the trace unit holds. -/
def traceSize : Nat := 2048

/-- The words of a packet (Table 17.8). -/
def TracePkt.words (t : TracePkt) : List Word :=
  [BitVec.ofNat 64 t.time,
   place 63 58 t.shelf ||| place 57 54 t.slot ||| place 53 49 t.port ||| place 43 40 t.kind ||| place 19 0 t.ctx.toNat,
   t.value, place 31 0 t.drops]

/-- Take the oldest packet of a core's FIFO. -/
def State.takeTrace (s : State) (k : Nat) : State :=
  match (s.core k).stim with
  | t :: r => (s.modCore k (fun c => { c with stim := r })).modVexek (fun v => { v with trace := v.trace ++ [t] })
  | [] => s

/-- Cores whose FIFO drains: not halted, with a packet. -/
def State.traceReady (s : State) (k : Nat) : Bool := !(s.core k).halted && (s.core k).stim != []

/-- One packet of a group of cores, while the buffer has room. -/
def State.collectFrom (s : State) (ks : List Nat) : State :=
  if s.vexek.trace.length < traceSize then
    match ks.find? s.traceReady with
    | some k => s.takeTrace k
    | none => s
  else s

/-- Free-running indices of the trace ring, and its size. -/
def State.trP (s : State) : Nat := getF s .vxTrridx 63 32
def State.trSize (s : State) : Nat := 2 ^ getF s .vxTrring 4 0

/-- Place of packet `p` in the host ring. -/
def State.trAddr (s : State) : Nat := getF s .vxTrring 31 12 * 4096 + s.trP % s.trSize * 32

/-- Packets in the ring stay below its size less one. -/
def State.trRoom (s : State) : Bool := decide ((s.trP + 2 ^ 32 - getF s .vxTrridx 31 0) % 2 ^ 32 < s.trSize - 1)

/-- Write the oldest packet to the host ring; a refused write ends the trace (R421). -/
def State.sinkOne (s : State) : State :=
  match s.vexek.trace with
  | t :: r =>
    if getB s .vxTrcfg 63 && getB s .vxTrcfg 62 && s.trRoom then
      let a := s.trAddr
      let g : BitVec 32 := BitVec.ofNat 32 (getF s .vxTrring 63 32)
      match s.checkWrite (s.servingPort (a / 64)) (some g) none a 32 with
      | .fetch i => s.fetchGrant (s.servingPort (a / 64)) i
      | .fail => setB (setB (s.refuse (s.servingPort (a / 64)) 7 a (some g)) .vxTrcfg 63 false) .vxStat 57 true
      | .pass _ =>
        let s := (s.hostWrite .trace 7 (some g) none a (fromWords t.words)).1
        setF (s.modVexek (fun v => { v with trace := r })) .vxTrridx 63 32 (s.trP + 1)
    else s
  | [] => s

/-- Write what the ring takes. -/
def State.sink (s : State) : State := foldS (List.range s.vexek.trace.length) (fun s _ => s.sinkOne) s

def effTraceCollect (s : State) : State :=
  (State.collectFrom (foldS (List.range 64) (fun s n => s.collectFrom ((List.range 16).map (fun i => 16 * n + i))) s) [wardenKey]).sink

/-- TRACE_COLLECT (R420). -/
def execTraceCollect (s : State) : Host.Outcome State Fault Refusal := .next (effTraceCollect s)

/-- A write of VX_TRPOP. -/
def State.trpop (s : State) : State := s.modVexek (fun v => { v with trace := v.trace.drop 1 })

/-- VX_TRPOP (R421). -/
def execVxTrpop (s : State) : Host.Outcome State Fault Refusal := .next (s.gateWrite .debugger .vxTrpop 0 (fun s => s.trpop))

/-- VX_TRDATAw: word `w` of the oldest packet, zero when the buffer is empty. -/
def State.trdata (s : State) (w : Nat) : Word :=
  match s.vexek.trace with
  | t :: _ => t.words.getD w 0
  | [] => 0

/-! ## Fuses (R438) -/

def fuseDenied : Nat := 1
def fuseSet : Nat := 2
def fuseVerify : Nat := 3

/-- RESULT of VX_FUSECMD. -/
def State.fuseResult (s : State) (x : Nat) : State := setF s .vxFusecmd 61 60 x

/-- A write of VX_FUSECMD: GO with ITEM. The value is latched at GO; a reserved ITEM, and a GO while BUSY, do nothing (log entry 43). -/
def State.writeFusecmd (s : State) (v : Word) : State :=
  let item := fld v 1 0
  let f := s.fuses
  if !bitAt v 63 || s.vexek.fusing.isSome || decide (item = 0 ∨ item = 3) then s
  else if f.lc ≠ 0 ∨ s.vexek.level < 3 then (s.fuseResult fuseDenied).violate .debugger true (Reg.off .vxFusecmd)
  else if (item = 1 ∧ f.serSet = true) ∨ (item = 2 ∧ f.pwdSet = true) then s.fuseResult fuseSet
  else if item = 1 ∧ s.vexek.fuse0 = 0 then s.fuseResult fuseDenied
  else
    { s with
      vexek := { s.vexek with fusing := some item }
      fuses := if item = 1 then { f with serNew := s.vexek.fuse0 } else { f with pwdNew := s.vexek.fuse1 ++ s.vexek.fuse0 } }

/-- FUSE_SERIAL (R438): GO with ITEM SERIAL. -/
def execFuseSerial (v : Word) (s : State) : Host.Outcome State Fault Refusal :=
  let w := setFld v 1 0 1 ||| bitIf 63 true
  .next (s.gateWrite .debugger .vxFusecmd w (fun s => s.writeFusecmd w))

/-- FUSE_PASSWORD (R438): GO with ITEM PASSWORD. -/
def execFusePassword (v : Word) (s : State) : Host.Outcome State Fault Refusal :=
  let w := setFld v 1 0 2 ||| bitIf 63 true
  .next (s.gateWrite .debugger .vxFusecmd w (fun s => s.writeFusecmd w))

/-- The item counts as programmed; what a read-back mismatch leaves in it is open (log entry 3). -/
def Fuses.programmed (f : Fuses) (item : Nat) (ok : Bool) (x y : Word) : Fuses :=
  if item = 1 then { f with serSet := true, serNew := if ok then f.serNew else x }
  else { f with pwdSet := true, pwdNew := if ok then f.pwdNew else x ++ y }

def effFuseProgramDone (ok : Bool) (s : State) : State :=
  match s.vexek.fusing with
  | some item =>
    let s := s.fuseResult (if ok then 0 else fuseVerify)
    { s with
      freeCtr := s.freeCtr + 2
      fuses := s.fuses.programmed item ok s.free (Config.freeValue (s.freeCtr + 1))
      vexek := { s.vexek with fusing := none, fuse0 := 0, fuse1 := 0 } }
  | none => s

/-- FUSE_PROGRAM_DONE (R438). -/
def execFuseProgramDone (verified : Bool) (s : State) : Host.Outcome State Fault Refusal := .next (effFuseProgramDone verified s)

end Sys2Proof.Machine
end

