-- ==== Sys2Proof/Machine/GlobalOps.lean ====
section
/-! DEFINITION. Rows of enumeration (R126, R127) and of global operations, snapshot and time (R128 to R133). -/

namespace Sys2Proof.Machine

/-! ## Endpoints and enumeration -/

/-- Any shelf holds an OPEN stream record of endpoint `e`. -/
def State.epInUse (s : State) (e : Nat) : Bool :=
  (List.range 64).any (fun u => (s.ledRegions u).any (fun r => (s.ledView r).any (fun x => x.2.role == .stream && x.2.st == .opened && x.2.localEp.toNat == e)))

/-- Links by which EPCLOSE reaches every device: the tree links that are ACTIVE, or where there is none each ACTIVE link (log entry 129). -/
def State.closeLinks (s : State) : List Nat :=
  let t := s.treeLinks.filter (fun l => (s.link l).st == .active)
  if t = [] then (List.range 256).filter (fun l => (s.link l).st == .active) else t

/-- Send EPCLOSE of endpoint `ep` of device `dev` on those for which `f` holds. -/
def State.sendEpclose (s : State) (dev : BitVec 12) (ep : BitVec 8) (f : Nat → Bool) : State :=
  foldS (s.closeLinks.filter f) (fun s l => s.sendMgmt l (.epclose dev ep)) s

/-- EPCLOSE arrives: the partner is LOST on every shelf that caches it, and the message goes on along the tree. -/
def State.gotEpclose (s : State) (l : Nat) (dev : BitVec 12) (ep : BitVec 8) : State :=
  let s := s.loseEverywhere (dev.toNat * 256 + ep.toNat)
  if s.treeRole l = 1 ∨ s.treeRole l = 2 then s.sendEpclose dev ep (· ≠ l) else s

def effEpclose (l : Nat) (dev : BitVec 12) (ep : BitVec 8) (s : State) : State := s.mgmtRow l (fun _ s => s.gotEpclose l dev ep)

/-- EPCLOSE (R125, R126). -/
def execEpclose (l : Fin 256) (dev : BitVec 12) (ep : BitVec 8) (s : State) : Host.Outcome State Fault Refusal := .next (effEpclose l dev ep s)

/-- A write of GL_EPe: SHELF only while EN is 0; clearing EN is ignored while a record is OPEN and sends EPCLOSE to every device (R126). -/
def State.writeEp (s : State) (e : Nat) (v : Word) : State :=
  let r := Reg.glEp e
  let old := rdReg s r
  let shelf := if bitAt old 63 then fld old 62 57 else fld v 62 57
  let new := bitIf 63 (bitAt v 63) ||| place 62 57 shelf
  if bitAt old 63 && !bitAt v 63 then
    if s.epInUse e then s
    else (wrReg s r new).sendEpclose s.sys.devId (BitVec.ofNat 8 e) (fun _ => true)
  else wrReg s r new

def effGlEpWrite (who : Party) (e : Nat) (v : Word) (s : State) : State := s.gateWrite who (.glEp e) v (fun s => s.writeEp e v)

/-- GL_EP_WRITE (R126). -/
def execGlEpWrite (who : Party) (e : Fin 256) (v : Word) (s : State) : Host.Outcome State Fault Refusal := .next (effGlEpWrite who e v s)

/-- ELECT arrives: a lower root, or the same root over fewer links, is taken and sent on; once both ends hold ids, another root isolates the
link. -/
def State.gotElect (s : State) (l : Nat) (rootSer : Word) (dist : Nat) : State :=
  let y := s.sys
  let s := if y.idv && (s.link l).farIdv && rootSer != y.rootSer then s.modLink l (fun k => { k with isol := true }) else s
  if rootSer < y.rootSer ∨ (rootSer = y.rootSer ∧ dist + 1 < y.dist) then
    (s.modSys (fun y => { y with rootSer := rootSer, dist := dist + 1, electAt := s.now, root := false })).electAll
  else s

def effElect (l : Nat) (rootSer : Word) (dist : Nat) (s : State) : State := s.mgmtRow l (fun _ s => s.gotElect l rootSer dist)

/-- ELECT (R127). -/
def execElect (l : Fin 256) (rootSer : Word) (dist : Nat) (s : State) : Host.Outcome State Fault Refusal := .next (effElect l rootSer dist s)

def effRootElectTimeout (s : State) : State :=
  if s.sys.rootSer = s.fuses.serial ∧ s.sys.electAt + 1000000 ≤ s.now then s.modSys (fun y => { y with root := true }) else s

/-- ROOT_ELECT_TIMEOUT (R127). -/
def execRootElectTimeout (s : State) : Host.Outcome State Fault Refusal := .next (effRootElectTimeout s)

/-- STATE encoding of a link (Table 4.6). -/
def LinkSt.code : LinkSt → Nat
  | .disabled => 0 | .detect => 1 | .eq => 2 | .lock => 3 | .param => 4 | .active => 5 | .retrain => 6 | .failed => 7

/-- Serial and link states that a DISCOVER brings back: state and far serial of each link. -/
def State.discovery (s : State) (l : Nat) : MgmtMsg :=
  .discovered (Config.returnPath l) s.fuses.serial ((List.range 256).map (fun l => ((s.link l).st.code, (s.link l).peerSerial.getD 0)))

/-- A packet routed by its path: with no hop left `here` acts, else it goes on by the link that its path names next (R80, R127). -/
def State.pathRow (s : State) (l : Nat) (path : List Byte) (here : State → State) : State :=
  match s.rxHead l (fun p => p.byPath) with
  | some x => if x.pkt.hops = 0 then here (s.takeRx l x.vc) else s.forwardPath l x (match path with | h :: _ => h.toNat | [] => 256)
  | none => s

def effDiscover (l : Nat) (path : List Byte) (s : State) : State := s.pathRow l path (fun s => s.sendMgmt l (s.discovery l))

/-- DISCOVER (R127). -/
def execDiscover (l : Fin 256) (path : List Byte) (s : State) : Host.Outcome State Fault Refusal := .next (effDiscover l path s)

/-- The last device on the path takes the id unless it holds one, and replies with the id that it holds (R127). -/
def State.takeId (s : State) (l : Nat) (devId : BitVec 12) : State :=
  let s := if s.sys.idv then s else s.modSys (fun y => { y with idv := true, devId := devId })
  s.sendMgmt l (.idReply (Config.returnPath l) s.sys.devId)

def effIdassign (l : Nat) (path : List Byte) (devId : BitVec 12) (s : State) : State := s.pathRow l path (fun s => s.takeId l devId)

/-- IDASSIGN (R127). -/
def execIdassign (l : Fin 256) (path : List Byte) (devId : BitVec 12) (s : State) : Host.Outcome State Fault Refusal := .next (effIdassign l path devId s)

/-! ## Global packets -/

/-- Take the first global packet of code `cmd` for this device from link `l` and act on it after damper validation. -/
def State.globalRow (s : State) (l cmd : Nat) (f : Packet → State → State) : State :=
  match s.rxHead l (fun p => p.cmd == cmd && s.forMe p) with
  | some x => s.validated l (s.servingShelf l) x (fun s => s.damperr l) (f x.pkt)
  | none => s

/-- An up packet of a child counts for its instance (R129). -/
def State.upPacket (s : State) (l t : Nat) (reduce : Bool) (p : Packet) : State :=
  if s.treeRole l ≠ 2 ∨ 16 ≤ t then s
  else
    let op := (p.payload.getD 0 0).toNat
    let g := s.gop t
    let g := if g.status = 1 then g else { (g.open reduce op) with inst := BitVec.ofNat 48 p.seq }
    if g.inst.toNat ≠ p.seq ∨ g.children.contains l = true then s
    else
      let g := { g with children := g.children ++ [l] }
      let g := if reduce then g.take (wordIn p.payload 8) ((p.payload.getD 1 0).getLsbD 0) else g
      (s.setGop t g).gopSettle t

/-- BARRIER (R129). -/
def execBarrier (l : Fin 256) (s : State) : Host.Outcome State Fault Refusal :=
  .next (s.globalRow l 0x20 (fun p s => s.upPacket l p.stream false p))

/-- REDUCE (R129). -/
def execReduce (l : Fin 256) (s : State) : Host.Outcome State Fault Refusal :=
  .next (s.globalRow l 0x21 (fun p s => s.upPacket l p.stream true p))

def State.gotResult (s : State) (l : Nat) (p : Packet) : State :=
  let t := p.stream
  if s.treeRole l ≠ 1 ∨ 16 ≤ t ∨ (s.gop t).status ≠ 1 ∨ (s.gop t).inst.toNat ≠ p.seq then s
  else (s.gopDone t (wordIn p.payload 8) p.payload).gopCheck t

/-- RESULT (R129). -/
def execResult (l : Fin 256) (s : State) : Host.Outcome State Fault Refusal := .next (s.globalRow l 0x26 (fun p s => s.gotResult l p))

def State.gotBcast (s : State) (l : Nat) (p : Packet) : State :=
  if s.treeRole l ≠ 1 ∨ 16 ≤ p.stream then s
  else
    let s := (s.gotBroadcast p.stream (BitVec.ofNat 48 p.seq) p.payload).sendDown 0x22 p.stream p.seq p.payload
    match Config.removedDevice p.payload with
    | some d => s.deviceLeaves d.toNat
    | none => s

/-- BROADCAST (R130). -/
def execBroadcast (l : Fin 256) (s : State) : Host.Outcome State Fault Refusal := .next (s.globalRow l 0x22 (fun p s => s.gotBcast l p))

/-- Forward SYSRESET down the tree and enter the reset once the ports have taken it (R130). -/
def State.startSysreset (s : State) : State := ((s.sendDown 0x24 0 0 []).modSys (fun y => { y with sysResetting := true })).sysresetGo

/-- SYSRESET (R130). -/
def execSysreset (l : Fin 256) (s : State) : Host.Outcome State Fault Refusal :=
  .next (s.globalRow l 0x24 (fun _ s => if s.treeRole l = 1 then s.startSysreset else s))

/-! ## Snapshot (R131) -/

/-- Depth D of GL_SYS. -/
def State.treeDepth (s : State) : Nat := getF s .glSys 39 36

/-- Payload of SNAPSHOT: the cut time. -/
def cutPayload (ct : Nat) : List Byte := leBytes 8 ct

def State.startSnapshot (s : State) (ct : Nat) : State :=
  ((setB s .glSnap 1 false).modSys (fun y => { y with
    snapActive := true
    snapCt := ct
    snapFrozen := false
    snapCut := []
    snapChildren := []
    snapRefused := false })).sendDown 0x23 0 0 (cutPayload ct)

/-- RW fields of GL_SYS, then SYSRST and SNAP, which act at the root only (Table 4.13). -/
def State.writeGlSys (s : State) (v : Word) : State :=
  let r := Reg.glSys
  let s := wrReg s r (regWrite r.fields v (BitVec.allOnes 64) (rdReg s r))
  let s := if bitAt v 47 && s.sys.root then s.startSnapshot (s.now + (2 * s.treeDepth + 2) * 300) else s
  if bitAt v 48 && s.sys.root then s.startSysreset else s

def effGlSysSysrst (who : Party) (v : Word) (s : State) : State := s.gateWrite who .glSys v (fun s => s.writeGlSys v)

/-- GL_SYS_SYSRST (R130). -/
def execGlSysSysrst (who : Party) (v : Word) (s : State) : Host.Outcome State Fault Refusal := .next (effGlSysSysrst who v s)

def effGlSysSnap (who : Party) (v : Word) (s : State) : State := s.gateWrite who .glSys v (fun s => s.writeGlSys v)

/-- GL_SYS_SNAP (R131). -/
def execGlSysSnap (who : Party) (v : Word) (s : State) : Host.Outcome State Fault Refusal := .next (effGlSysSnap who v s)

/-- Every entry of every shelf's region as its ledger unit holds it, an adopted one in the buddy's mirror: key shelf * 4096 + index. -/
def State.cut (s : State) : Tbl Entry :=
  (List.range 64).flatMap (fun n => (s.region n).map (fun e => (n * 4096 + e.1, e.2)))

/-- Write the cut to 256 KiB per shelf of the region of GL_SNAP (R131). -/
def State.writeCut (s : State) : State :=
  let base := getF s .glSnap 51 24 * 2 ^ 24
  foldS (List.range 64) (fun s n => foldS (List.range 4096) (fun s i =>
    let r := s.hostWrite .snapshot 6 none none (base + n * 0x40000 + i * 64) ((tget {} s.sys.snapCut (n * 4096 + i)).image n i)
    if r.2 = .refused then r.1.modSys (fun y => { y with snapRefused := true }) else r.1) s) s

def effSnapshotCut (s : State) : State :=
  if s.sys.snapActive = true ∧ s.sys.snapFrozen = false ∧ s.sys.snapCt ≤ s.now then
    let s := s.modSys (fun y => { y with snapFrozen := true, snapCut := s.cut })
    if getB s .glSnap 0 then s.writeCut else s
  else s

/-- SNAPSHOT_CUT (R131). -/
def execSnapshotCut (s : State) : Host.Outcome State Fault Refusal := .next (effSnapshotCut s)

/-- Writes of the cut that no port has completed. -/
def State.cutting (s : State) : Bool :=
  (List.range 16).any (fun p => (s.port p).reqs.any (fun e => e.2.who == .snapshot) || (s.port p).grantWait.any (fun w => w.who == .snapshot))

def effSnapshotCutWritten (s : State) : State :=
  let y := s.sys
  if y.snapActive = true ∧ y.snapFrozen = true ∧ s.cutting = false ∧ (s.childLinks.all (fun l => y.snapChildren.contains l)) = true then
    let s := match s.parentLink with
      | some l => if y.root then s else s.sendGlobal l 0x23 0 0 (cutPayload y.snapCt)
      | none => s
    let s := s.modSys (fun y => { y with snapActive := false, snapFrozen := false, snapCut := [] })
    if y.snapRefused then s else setB s .glSnap 1 true
  else s

/-- SNAPSHOT_CUT_WRITTEN (R131). -/
def execSnapshotCutWritten (s : State) : Host.Outcome State Fault Refusal := .next (effSnapshotCutWritten s)

def State.gotSnapshot (s : State) (l : Nat) (p : Packet) : State :=
  if s.treeRole l = 1 then s.startSnapshot (wordIn p.payload 0).toNat
  else if s.treeRole l = 2 ∧ s.sys.snapActive = true then
    s.modSys (fun y => { y with snapChildren := if y.snapChildren.contains l then y.snapChildren else y.snapChildren ++ [l] })
  else s

/-- SNAPSHOT (R131). -/
def execSnapshot (l : Fin 256) (s : State) : Host.Outcome State Fault Refusal := .next (s.globalRow l 0x23 (fun p s => s.gotSnapshot l p))

/-! ## Time (R132) -/

def timesyncPayload (root delay : Nat) : List Byte := leBytes 8 root ++ leBytes 8 delay

def effTimesyncSend (s : State) : State :=
  if s.sys.root = true ∧ s.sys.timesyncAt + 1000000 ≤ s.now then
    (s.modSys (fun y => { y with timesyncAt := s.now })).sendDown 0x25 0 0 (timesyncPayload s.now 0)
  else s

/-- TIMESYNC_SEND (R132). -/
def execTimesyncSend (s : State) : Host.Outcome State Fault Refusal := .next (effTimesyncSend s)

def State.gotTimesync (s : State) (l : Nat) (p : Packet) : State :=
  if s.treeRole l ≠ 1 then s
  else
    let delay := (wordIn p.payload 8).toNat + (s.link l).delay
    let root := (wordIn p.payload 0).toNat
    (s.modSys (fun y => { y with slew := ((root + delay : Nat) : Int) - (s.now : Int) })).sendDown 0x25 0 0 (timesyncPayload root delay)

/-- TIMESYNC (R132). -/
def execTimesync (l : Fin 256) (s : State) : Host.Outcome State Fault Refusal := .next (s.globalRow l 0x25 (fun p s => s.gotTimesync l p))

/-! ## Abort (R133) -/

def State.gotGabort (s : State) (l : Nat) (p : Packet) : State :=
  let t := (p.payload.getD 0 0).toNat
  if 16 ≤ t ∨ (s.treeRole l ≠ 1 ∧ s.treeRole l ≠ 2) then s
  else
    let fresh := (s.gop t).status != 3
    let s := if fresh then s.sendAbort t (p.payload.getD 1 0).toNat (· ≠ l) else s
    (s.gopAbort t).modSys (fun y => { y with treeOk := false })

/-- GABORT (R133). -/
def execGabort (l : Fin 256) (s : State) : Host.Outcome State Fault Refusal := .next (s.globalRow l 0x27 (fun p s => s.gotGabort l p))

end Sys2Proof.Machine
end

