-- ==== Sys2Proof/Machine/CtlSpace.lean ====
section
/-! DEFINITION. Control space as every party reads and writes it (R8 to R12, R35, R373, R440, R443), and the rows of the host's control
messages (R334), of the Vexek frames (R404, R405) and of remote register access (R379). -/

namespace Sys2Proof.Machine

/-! ## What a register reads as -/

/-- STATE of SH_PWR: 0 ACTIVE, 1 GATED, 2 RESET, 3 RETIRED. -/
def State.pwrState (s : State) (n : Nat) : Nat :=
  if s.isRetired n then 3
  else match (s.shelf n).phase with
    | .active => 0
    | .gated => 1
    | .reset => 2

/-- Engines under test, crypto engines at bits 57:54 and compression engines at 53:52. -/
def State.testing (s : State) (n : Nat) : Word :=
  (List.range 6).foldl (fun w e => w ||| bitIf (if e < 4 then 54 + e else 48 + e) (tget {} (s.shelf n).engines e).testAt.isSome) 0

/-- Slots of a shelf for which `f` holds of the core that the slot's state lies with. -/
def State.slotBits (s : State) (n lo : Nat) (f : Nat → Bool) : Word :=
  (List.range 16).foldl (fun w i => w ||| bitIf (lo + i) (f (s.pairSlot n i))) 0

/-- QSTATE of the slot that VX_QUAR names. -/
def State.qstate (s : State) : Nat :=
  let n := getF s .vxQuar 9 4
  let i := s.pairSlot n (getF s .vxQuar 3 0)
  if s.vexek.quar.contains (n, i) then 2
  else match s.vexek.draining with
    | some (m, j, _) => if m = n ∧ j = i then 1 else 0
    | none => 0

/-- ALT of the links of GL_LINKALT `i`: 1 while the alternate shelf serves the link, 0 while it is down (Table 1.17). -/
def State.altBits (s : State) (i : Nat) : Word :=
  (List.range 64).foldl (fun w b => let l := 64 * i + b; w ||| bitIf b (s.onAlt l && (s.link l).st == .active)) 0

/-- The word of a register before its write-only fields are masked: the stored fields, and those that read other state. -/
def State.view (s : State) (r : Reg) : Word :=
  let w := rdReg s r
  match r with
  | .glArchid => w ||| place 47 40 s.fuses.step.toNat
  | .glShelfret => s.retired
  | .glLinkalt i => s.altBits i
  | .glSys => (w &&& fmask 43 36) ||| place 63 52 s.sys.devId.toNat ||| bitIf 51 s.sys.idv ||| bitIf 50 s.sys.root ||| bitIf 49 s.sys.treeOk
  | .glSerial => s.fuses.serial
  | .glGoptag i => (w &&& fmask 63 53) ||| place 52 50 (s.gop i).status ||| place 47 0 (s.gop i).inst.toNat
  | .glRingstat => w ||| place 31 16 (s.ring (fld w 47 32)).ovr.toNat
  | .glPwr => (w &&& fmask 63 54) ||| place 53 46 s.fuses.pshmax.toNat
  | .glBootstat => setFld w 60 60 (b2n s.linkDone)
  | .glTscfg => setFld w 63 63 (b2n s.power.refLost)
  | .shLedmir n =>
    let h := s.shelf n
    place 47 32 h.preps.toNat ||| place 22 17 (h.adopt.getD 0) ||| bitIf 16 h.adopt.isSome ||| place 1 0 h.mode.code
  | .shLedcnt n => setFld w 44 32 (s.inUse n)
  | .shGlstat n => (w &&& ~~~ fmask 57 52) ||| s.testing n
  | .shSchstat n => setFld w 61 55 (s.shelf n).holdList.length
  | .evGrp _ i => if 1 ≤ i ∧ i ≤ 3 then setFld w 47 47 1 else 0
  | .shPwr n => setFld w 63 62 (s.pwrState n)
  | .shQstat n q =>
    let x := s.queue n q
    place 63 48 x.epoch.toNat ||| place 42 32 x.items.length ||| place 20 16 x.slots
  | .evScfg n i => s.readScfg n i
  | .hpStat p =>
    let x := s.port p
    place 47 32 (x.lines.filter (fun e => lineDirty e.2.st)).length ||| place 16 11 x.wbuf.length
      ||| place 10 0 (x.reqs.filter (fun e => e.1 < rqWaiting)).length
  | .lkStat l =>
    let x := s.link l
    place 63 52 x.peerDev.toNat ||| bitIf 51 x.peerIdv ||| bitIf 50 x.isol ||| place 49 48 x.rate.toNat ||| place 47 40 x.peerLink.toNat
      ||| place 35 33 x.preset.toNat ||| place 18 3 x.ldCount.toNat ||| place 2 0 x.st.code
  | .lkDamp l => setFld w 32 32 (b2n (s.link l).stormUntil.isSome)
  | .wdBuf i => if 0x200 ≤ i ∧ i < 0x400 then s.free else w
  | .wdStat => (w &&& bitIf 61 true) ||| place 63 62 s.fuses.lc.toNat ||| place 60 57 s.fuses.returns.toNat
  | .wdBoot => setFld w 31 0 s.fuses.floor.toNat
  | .wdLogstat => place 63 32 s.warden.flushed.toNat ||| place 31 16 s.warden.ovwr.toNat ||| place 15 0 s.warden.unflushed
  | .wdScfg i => s.readWdScfg i
  | .vxSess => place 59 58 s.vexek.level ||| bitIf 57 s.vexek.chal ||| bitIf 56 s.vxLocked
  | .vxStat => setFld w 56 56 (b2n s.vexek.wdLogOnly)
  | .vxQuar => (w &&& (fmask 9 4 ||| fmask 3 0)) ||| place 62 61 s.qstate
  | .vxTrdata i => s.trdata i
  | .vxFusecmd => (w &&& fmask 61 60) ||| bitIf 62 s.vexek.fusing.isSome ||| bitIf 59 s.fuses.serSet ||| bitIf 58 s.fuses.pwdSet
  | .vxShstat n => s.slotBits n 48 (fun i => (s.core (16 * n + i)).halted) ||| s.slotBits n 32 (fun i => s.vexek.quar.contains (n, i))
  | _ => w

/-- What a read finds of a register whose value the spec leaves open: a cone counter has gone up by a free count of the events since the last
look, saturating (Table 12.12); WD_BUF beyond a reply holds a free value (log entries 3 and 12). -/
def State.openRead (s : State) (r : Reg) : State :=
  match r with
  | .shConf _ _ => (bumpF s r 31 0 (fld s.free 31 0)).drawn
  | _ => s

/-- The register shows a value that the spec leaves open. -/
def Reg.open_ : Reg → Bool
  | .wdBuf i => decide (0x200 ≤ i ∧ i < 0x400)
  | _ => false

/-- The half of a register that an access reads; a 32-bit access answers in the low half. -/
def laneRead (a : Access) (w : Word) : Word :=
  match a with
  | .full => w
  | .low => w &&& fmask 31 0
  | .high => w >>> 32
  | .bad => 0

/-- The offsets at which an access of each kind is one that R12 accepts: a register, or for the high half the word at 4 above it. -/
def accLegal (a : Access) (off : Nat) : Bool :=
  match a with
  | .full => off % 8 == 0
  | .low => off % 8 == 0
  | .high => off % 8 == 4
  | .bad => false

/-- A read of control space by a party: an unassigned offset and the range of a shelf in reset read zero uncounted; an access without
authority, and one of a size or alignment that R12 does not accept, reads zero and is counted (R12, R373, R440, Table 16.8). GL_KEYFLOOR is
the warden's alone (R141). -/
def State.ctlRead (s : State) (who : Party) (off : Nat) (a : Access) : Word × State :=
  match Reg.at off with
  | none => (0, s)
  | some r =>
    if s.shelfRangeOff off then (0, s)
    else if accLegal a off = false ∨ s.permitted who off false = false ∨ (r = .glKeyfloor ∧ who ≠ .warden) then (0, s.violate who false off)
    else
      let s := s.openRead r
      (laneRead a (s.view r &&& ~~~ accMask r.fields .wo), if r.open_ then s.drawn else s)

/-! ## What a write does -/

/-- A 32-bit write as a 64-bit one, over what the register shows: the other half of an RW field keeps its value, of any other it is zero. -/
def State.fullVal (s : State) (r : Reg) (a : Access) (v : Word) : Word :=
  laneVal a v ||| (s.view r &&& accMask r.fields .rw &&& ~~~ accLanes a)

/-- A doorbell: a host port's passes PORTS of the ring (R88); the other parties have no port. -/
def State.writeDb (s : State) (who : Party) (k : Nat) (v : Word) : State :=
  match who with
  | .host p => effDoorbell p k v s
  | _ => if (s.ring k).en then s.ringBell k v else s

/-- SH_SCHCFG: WAKEQ only while WQEN is 0 (Table 9.11). -/
def State.writeSchcfg (s : State) (n : Nat) (v : Word) : State :=
  s.plainWrite (.shSchcfg n) (if getB s (.shSchcfg n) 63 then setFld v 57 48 (getF s (.shSchcfg n) 57 48) else v)

/-- VX_CTL: WGRP only at WARDEN level. -/
def State.writeVxCtl (s : State) (v : Word) : State :=
  s.plainWrite .vxCtl (if s.vexek.level = 3 then v else setFld v 61 58 (getF s .vxCtl 61 58))

/-- What a write of the 64-bit value `v` does to a register that acts on more than its own fields; none for a register of plain fields. -/
def State.writeActs (s : State) (who : Party) (r : Reg) (v : Word) : Option State :=
  match r with
  | .glRingtab => some (s.writeRingtab v)
  | .glRingcmd => some (s.writeRingcmd v)
  | .glSys => some (s.writeGlSys v)
  | .glPartinv => some (if bitAt v 63 then s.partInv (BitVec.ofNat 20 (fld v 19 0)) else s)
  | .glKeycmd => some (s.writeKeycmd who v)
  | .glTlbinv => some (s.writeTlbinv v)
  | .glTagrgn => some (s.writeTagrgn v)
  | .glTagtab => some (s.writeTagtab v)
  | .glHpmap => some (s.writeHpmap v)
  | .glGrant => some (s.writeGrant v)
  | .glGrinv => some (s.writeGrinv v)
  | .glSplitok => some (s.writeSplitok who v)
  | .glBootstat => some (s.writeBootstat v)
  | .glEp e => some (s.writeEp e v)
  | .glDb k => some (s.writeDb who k v)
  | .glRt d => some ((s.plainWrite (.glRt d) v).checkReach)
  | .glPclass c => some ((s.settleClass c).plainWrite (.glPclass c) v)
  | .lkDamp l => some ((s.settleLink l).plainWrite (.lkDamp l) v)
  | .shLedfb n => some (s.writeLedfb n v)
  | .shQflush n => some (s.writeQflush n v false)
  | .shGlcfg n => some (s.writeGlcfg n v)
  | .shDetcfg n => some (s.writeDetcfg n v)
  | .shSchcfg n => some (s.writeSchcfg n v)
  | .shPost n => some (s.writePost n v)
  | .evGrp n i => some (if 1 ≤ i ∧ i ≤ 3 then s.plainWrite (.evGrp n i) v else s)
  | .evCdb n => some (s.writeCdb n v)
  | .shMemarb n => some (s.plainWrite (.shMemarb n) (v &&& ~~~ bitIf 38 true))
  | .shWedge n => some (s.writeWedge n v)
  | .shPaircfg n => some (s.writePaircfg n v)
  | .shRtvec n => some (s.writeRtvec who n v)
  | .shPwr n => some (s.writeShPwr n v)
  | .shQcfg n q => some (s.writeQcfg n q v)
  | .hpCtl p => some (s.writeHpctl p v)
  | .lkCfg l => some (s.writeLkCfg l v)
  | .wdMbctl => some (s.writeMbctl v)
  | .wdBoot => some (s.writeWdBoot who v)
  | .wdLcreq => some (s.writeLcreq who v)
  | .wdViol => some (wrReg s .wdViol 0)
  | .wdLogstat => some (s.modWarden (fun w => { w with flushed := BitVec.ofNat 32 (fld v 63 32) }) |>.sampleLogFill)
  | .wdLogw i => some (s.writeLogw i v)
  | .vxSess => some (s.writeSess v)
  | .vxCtl => some (s.writeVxCtl v)
  | .vxHalt => some (s.writeVxHalt v)
  | .vxRun => some (s.writeVxRun v)
  | .vxQuar => some (s.writeQuar v)
  | .vxStdata => some (s.writeStdata v)
  | .vxMdata => some (s.writeMdata v)
  | .vxPwd i => some (s.modVexek (fun x => if i = 0 then { x with pwd0 := v } else { x with pwd1 := v }))
  | .vxTrpop => some (s.trpop)
  | .vxFusecmd => some (s.writeFusecmd v)
  | .vxFusedata i => some (s.modVexek (fun x => if i = 0 then { x with fuse0 := v } else { x with fuse1 := v }))
  | _ => none

/-- Bits of the fields with access code `a` that a reaction touches. -/
def touched (fs : List Fld) (a : Acc) (hm : Word) : Word :=
  fs.foldl (fun w f => if f.acc = a ∧ f.mask &&& hm ≠ 0 then w ||| f.mask else w) 0

/-- What a reaction of hardware leaves in the fields that software does not set: RO fields and W1C fields (R10, R35). -/
def State.react (s : State) (r : Reg) (hm hv : Word) : State :=
  if hm = 0 then s else wrReg s r (r.fields.foldl (fun w f => if f.acc = .rw then w else hwCoincide hm hv w f) (rdReg s r))

/-- A write that a party may make, of the 64-bit value `v`; `m` are the lanes written, `hm` and `hv` a reaction of hardware in the same
cycle: each field that the reaction sets takes its value, and the register acts on the value that it then holds (R10, R35). -/
def State.writeReg (s : State) (who : Party) (r : Reg) (v m hm hv : Word) : State :=
  match r with
  | .evScfg n i => s.writeScfg n i v m hm hv
  | .wdScfg i => s.writeWdScfg i v m hm hv
  | r =>
    let t := touched r.fields .rw hm
    match s.writeActs who r ((v &&& ~~~ t) ||| (hv &&& t)) with
    | some u => u.react r hm hv
    | none => wrReg s r (regWriteBoth r.fields v m hm hv (rdReg s r))

/-- A reaction of hardware alone: the party's write of the same cycle has no effect (R35, R373). -/
def State.reactAlone (s : State) (r : Reg) (hm hv : Word) : State :=
  if hm = 0 then s else s.writeReg .warden r (s.view r &&& accMask r.fields .rw) 0 hm hv

/-- A write of control space by a party, with a reaction of hardware in the same cycle: an unassigned offset and the range of a shelf in reset
ignore it uncounted; without authority, in a size or alignment that R12 does not accept, or on a warden-only field, it is ignored and counted, and the reaction still takes its fields (R12, R35, R373, R440, R443). -/
def State.ctlWriteBoth (s : State) (who : Party) (off : Nat) (a : Access) (v hm hv : Word) : State :=
  match Reg.at off with
  | none => s
  | some r =>
    let w := s.fullVal r a v
    if s.shelfRangeOff off then s
    else if accLegal a off = false ∨ s.permitted who off true = false ∨ (who ≠ .warden ∧ s.actsOnWarden r w = true) then (s.violate who true off).reactAlone r hm hv
    else s.writeReg who r w (accLanes a) hm hv

/-- A write of control space by a party. -/
def State.ctlWrite (s : State) (who : Party) (off : Nat) (a : Access) (v : Word) : State := s.ctlWriteBoth who off a v 0 0

/-- CONTROL_REGISTER_WRITE (R8, R35). -/
def execControlRegisterWrite (who : Party) (off : Fin 67108864) (acc : Access) (v hwMask hwVal : Word) (s : State) :
    Host.Outcome State Fault Refusal :=
  .next (if s.partyOpen who off.val then s.ctlWriteBoth who off.val acc v hwMask hwVal else s)

/-! ## Control messages of a host port (R334, Table 13.10) -/

/-- The access that a message makes: 64 bits, or 32 bits of either half. -/
def ctlAccess (size64 : Bool) (a : Nat) : Access :=
  if size64 then (if a % 8 = 0 then .full else .bad)
  else if a % 8 = 0 then .low
  else if a % 8 = 4 then .high
  else .bad

/-- STATUS with which the isolation cells answer in place of the block: 1 NOT-READY, 2 ABSENT; none where the access is served. -/
def State.ctlStatus (s : State) (a : Nat) : Option (BitVec 2) :=
  match s.power.block with
  | .unpowered => some 2
  | .poweredDown => some 2
  | .inReset => some 1
  | .mgmtReady => if csRange a = .mailbox then none else some 1
  | .hostReady => none

def effCtlRd (p : Fin 16) (a : Nat) (size64 : Bool) (rctag : BitVec 8) (s : State) : State :=
  if s.power.block = .unpowered then s
  else match s.ctlStatus a with
    | some st => s.emit (.host p.val (.ctlData rctag st 0))
    | none =>
      let q := s.ctlRead (.host p) a (ctlAccess size64 a)
      q.2.sendMsg p.val (.ctlData rctag 0 q.1)

/-- CTL_RD (R334). Without always-on power the bridge answers, not the block (R426). -/
def execCtlRd (p : Fin 16) (caddr : BitVec 26) (size64 : Bool) (rctag : BitVec 8) (s : State) : Host.Outcome State Fault Refusal :=
  .next (effCtlRd p caddr.toNat size64 rctag s)

/-- A write of GL_HPMAP is answered once the new map is in force (R320). -/
def State.ackLater (s : State) (a : Nat) : Bool := a / 8 * 8 == Reg.off .glHpmap && s.hpmapNew.isSome

def effCtlWr (p : Fin 16) (a : Nat) (size64 : Bool) (rctag : BitVec 8) (v : Word) (s : State) : State :=
  if s.power.block = .unpowered then s
  else match s.ctlStatus a with
    | some st => s.emit (.host p.val (.ctlAck rctag st))
    | none =>
      let t := s.ctlWrite (.host p) a (ctlAccess size64 a) v
      if t.ackLater a then { t with hpmapReply := t.hpmapReply ++ [(p.val, rctag)] } else t.sendMsg p.val (.ctlAck rctag 0)

/-- CTL_WR (R334). -/
def execCtlWr (p : Fin 16) (caddr : BitVec 26) (size64 : Bool) (rctag : BitVec 8) (value : Word) (s : State) : Host.Outcome State Fault Refusal :=
  .next (effCtlWr p caddr.toNat size64 rctag value s)

/-! ## Vexek frames (R404, R405) -/

/-- One bit of the CRC-8 with polynomial 0x07. -/
def crc8Step (r : BitVec 8) (b : Bool) : BitVec 8 :=
  let x := r <<< 1
  if b != r.getLsbD 7 then x ^^^ 7 else x

/-- CRC-8 over the low `n` bits of a number, bit 0 first. -/
def crc8 (n x : Nat) : BitVec 8 := (List.range n).foldl (fun r i => crc8Step r (x.testBit i)) 0

/-- HCRC of a frame: OP, then ADDR. -/
def vxHcrc (op addr : Nat) : BitVec 8 := crc8 25 (op + 4 * addr)

/-- A flag of VX_STAT makes every frame answer FAULT: DCRC, NOTHALT or AUTHF. -/
def State.vxFaulty (s : State) : Bool := getB s .vxStat 63 || getB s .vxStat 62 || getB s .vxStat 61

/-- Bits 25:3 of the offset of a register. -/
def vxOff (addr : BitVec 23) : Nat := 8 * addr.toNat

/-- A register read for the debugger. -/
def State.vxReg (s : State) (off : Nat) : VxAnswer × State :=
  if off = Reg.off .vxStdata ∧ s.permitted .debugger off false = true then s.readStdata
  else if off = Reg.off .vxMdata ∧ s.permitted .debugger off false = true then s.readMdata
  else
    let q := s.ctlRead .debugger off .full
    (.ok (some q.1), q.2)

def effVxRead (addr : BitVec 23) (hcrc : BitVec 8) (s : State) : State :=
  let off := vxOff addr
  if s.power.block = .unpowered then s
  else if hcrc ≠ vxHcrc 1 addr.toNat then s.emit (.vexek .silent)
  else if s.vxFaulty then s.emit (.vexek .fault)
  else if s.vexek.pendingRead.isSome ∧ s.vexek.pendingRead ≠ some off then s.emit (.vexek .wait)
  else
    let q := s.vxReg off
    q.2.emit (.vexek q.1)

/-- VX_READ (R405). -/
def execVxRead (addr : BitVec 23) (hcrc : BitVec 8) (s : State) : Host.Outcome State Fault Refusal := .next (effVxRead addr hcrc s)

/-- The write needs a selected core that is halted, and it is not: it is answered FAULT before its data (R413). -/
def State.vxNeedsHalt (s : State) (off : Nat) : Bool :=
  decide (off = Reg.off .vxStdata ∨ off = Reg.off .vxMdata) && s.permitted .debugger off true && s.selScope && !(s.core s.selCore).halted

def effVxWrite (addr : BitVec 23) (hcrc : BitVec 8) (data : Word) (dcrc : BitVec 8) (s : State) : State :=
  let off := vxOff addr
  if s.power.block = .unpowered then s
  else if hcrc ≠ vxHcrc 2 addr.toNat then s.emit (.vexek .silent)
  else if s.vxFaulty ∧ off ≠ Reg.off .vxStat then s.emit (.vexek .fault)
  else if s.vexek.pendingRead.isSome then s.emit (.vexek .wait)
  else if s.vxNeedsHalt off then s.notHalted.emit (.vexek .fault)
  else
    let s := s.emit (.vexek (.ok none))
    if dcrc = crc8 64 data.toNat then s.ctlWrite .debugger off .full data else setB s .vxStat 63 true

/-- VX_WRITE (R405). -/
def execVxWrite (addr : BitVec 23) (hcrc : BitVec 8) (data : Word) (dcrc : BitVec 8) (s : State) : Host.Outcome State Fault Refusal :=
  .next (effVxWrite addr hcrc data dcrc s)

/-- VX_IDLE_RESET (R405): the frame state is reset and the session is kept; the model takes whole frames, so no frame is half sent
(log entry 44). -/
def execVxIdleReset (s : State) : Host.Outcome State Fault Refusal := .next s

/-! ## Register access for management (R378, R379) -/

/-- Send a message to the device that a target names; one that no ACTIVE link leads to is lost. -/
def State.sendAccess (s : State) (t : RegTarget) (m : MgmtMsg) : State :=
  match t with
  | .here => s
  | .device d =>
    match s.route d.toNat with
    | some q => s.sendMgmt q.1 m
    | none => s
  | .path hops =>
    match hops with
    | h :: _ => if (s.link h.toNat).st = .active then s.sendMgmt h.toNat m else s
    | [] => s

/-- The target with the first hop of a path taken off. -/
def restOfPath : RegTarget → RegTarget
  | .path (_ :: t) => .path t
  | t => t

/-- Start an access to another device; one is outstanding at a time. -/
def State.askRemote (s : State) (t : RegTarget) (wr : Bool) (off : Nat) (v : Word) : State :=
  if s.warden.remote.isSome then s.fwReply (if wr then opRegwr else opRegrd) stBusy []
  else (s.modWarden (fun w => { w with remote := some (s.now, !wr) })).sendAccess t (.access (restOfPath t) wr off v)

def effRegwr (t : RegTarget) (off : Nat) (v : Word) (s : State) : State :=
  if !s.wardenUp || !s.fwAsked then s
  else if off % 8 ≠ 0 then (s.ctlWrite .warden off .full v).fwReply opRegwr stBadArg []
  else match t with
    | .here => (s.ctlWrite .warden off .full v).fwReply opRegwr stOk []
    | t => s.askRemote t true off v

/-- REGWR (R378, R379). -/
def execRegwr (target : RegTarget) (off : Fin 67108864) (v : Word) (s : State) : Host.Outcome State Fault Refusal :=
  .next (effRegwr target off.val v s)

def effRegrd (t : RegTarget) (off : Nat) (s : State) : State :=
  if !s.wardenUp || !s.fwAsked then s
  else if off % 8 ≠ 0 then (s.ctlRead .warden off .full).2.fwReply opRegrd stBadArg []
  else match t with
    | .here =>
      let q := s.ctlRead .warden off .full
      q.2.fwReply opRegrd stOk [q.1]
    | t => s.askRemote t false off 0

/-- REGRD (R378, R379). -/
def execRegrd (target : RegTarget) (off : Fin 67108864) (s : State) : Host.Outcome State Fault Refusal := .next (effRegrd target off.val s)

/-- An access of another device reaches the warden. -/
def State.gotAccess (s : State) (l : Nat) (serial : Word) (wr : Bool) (off : Nat) (v : Word) : State :=
  if s.wardenUp = false then s
  else
    let s := s.wsrc 19 EvSrc.pulse
    if serial ≠ s.sys.rootSer then s.violate .remote wr off
    else if wr then (s.ctlWrite .remote off .full v).sendMgmt l (.accessReply 0 0)
    else
      let q := s.ctlRead .remote off .full
      q.2.sendMgmt l (.accessReply 0 q.1)

def effRemoteAccess (l : Nat) (serial : Word) (wr : Bool) (off : Nat) (v : Word) (s : State) : State :=
  s.mgmtRow l (fun _ s => s.gotAccess l serial wr off v)

/-- REMOTE_ACCESS (R379): from the root only, within the rights of Table 15.10. -/
def execRemoteAccess (l : Fin 256) (serial : Word) (wr : Bool) (off : Fin 67108864) (v : Word) (s : State) : Host.Outcome State Fault Refusal :=
  .next (effRemoteAccess l.val serial wr off.val v s)

def State.gotAccessReply (s : State) (status : BitVec 8) (v : Word) : State :=
  match s.warden.remote with
  | some (_, rd) =>
    if s.wardenUp then
      (s.modWarden (fun w => { w with remote := none })).fwReply (if rd then opRegrd else opRegwr) status.toNat (if rd ∧ status = 0 then [v] else [])
    else s
  | none => s

/-- A link whose channel 3 has a management packet for this device at its head. -/
def State.mgmtLink (s : State) : Option Nat :=
  (List.range 256).find? (fun l => (s.rxHead l (fun p => cmdClass p.cmd == some .management && s.forMe p)).isSome)

def effRemoteAccessReply (status : BitVec 8) (v : Word) (s : State) : State :=
  match s.mgmtLink with
  | some l => s.mgmtRow l (fun _ s => s.gotAccessReply status v)
  | none => s

/-- REMOTE_ACCESS_REPLY (R379). -/
def execRemoteAccessReply (status : BitVec 8) (value : Word) (s : State) : Host.Outcome State Fault Refusal :=
  .next (effRemoteAccessReply status value s)

def effRemoteTimeout (s : State) : State :=
  match s.warden.remote with
  | some (t, rd) =>
    if s.wardenUp && decide (t + 1000000 ≤ s.now) then
      (s.modWarden (fun w => { w with remote := none })).fwReply (if rd then opRegrd else opRegwr) stTimeout []
    else s
  | none => s

/-- REMOTE_TIMEOUT (R379). -/
def execRemoteTimeout (s : State) : Host.Outcome State Fault Refusal := .next (effRemoteTimeout s)

end Sys2Proof.Machine
end

