-- ==== Sys2Proof/Machine/EfmarBranch.lean ====
section
/-! DEFINITION. Control transfer (Table 7.6; R165, R200, R201, R234, R236). -/

namespace Sys2Proof.Machine

/-- Target of a displacement relative to the next instruction (R187). -/
def target (next : Nat) (d : Int) : Nat := (((next : Int) + d) % 2 ^ 56).toNat

/-- The prediction table learns what the branch at effective address `a` did: a saturating 2-bit counter, indexed by bits 9:1, whose upper
half predicts taken (R165). A wrong prediction is counted in PMISS. -/
def Core.learn (c : Core) (a : Nat) (taken : Bool) : Core :=
  let i := a / 2 % 512
  let n := tget 0 c.bht i
  { (if bitAt (n.setWidth 64) 1 = taken then c else c.count 3) with
    bht := tset 0 c.bht i (if taken then (if n = 3 then 3 else n + 1) else if n = 0 then 0 else n - 1) }

/-- A compare-and-branch resolves; with DET on, or BPEN 0, nothing was predicted. -/
def State.resolve (s : State) (k r : Nat) (taken : Bool) : State :=
  let x := s.ctx k r
  if s.detOn k || !(s.core k).bpen then s else s.modCore k (fun c => c.learn ((x.seg segC).ea x.pc.toNat) taken)

/-- Compare and branch on `n` operands, the top first; the instruction has 3 bytes. -/
def branch (n : Nat) (f : Word → Word → Bool) (d : Int) : Action := fun k r s =>
  (s.operands n k r 0).bind (fun vs s =>
    let taken := f (vs.getD 0 0) (vs.getD 1 0)
    .ok (if taken then some (target (s.nextPc k r 3) d) else none) ((s.resolve k r taken).modCtx k r (fun x => x.replace n [])))

/-- CALL and CALLI: the return address with the caller's window base, and the callee's window `n` slots below the top. A target that is
not in the encoding is popped before the arguments are counted. -/
def callAction (len n : Nat) (d : Option Int) : Action := fun k r s =>
  let ret := s.nextPc k r len
  let go := fun (tgt pops : Nat) (s : State) =>
    (s.room k r 0 1).bind (fun _ s =>
      match (s.ctx k r).rpush (BitVec.ofNat 56 ret) (s.ctx k r).wb with
      | none => Res.exc (plainReport dRO) s
      | some x =>
        let y := x.replace pops []
        .ok (some tgt) (s.setCtx k r { y with wb := y.total - n }))
  match d with
  | some d => go (target ret d) 0 s
  | none => (s.operand k r 0).bind (fun v s => go v.toNat 1 s)

/-- RET: the popped entry's address, and its window base but not above the top (R234). -/
def retAction : Action := fun k r s =>
  let x := s.ctx k r
  match x.rtop with
  | none => .exc (plainReport dRU) s
  | some e => .ok (some e.1.toNat) (s.setCtx k r { x with rstack := x.rstack.drop 1, wb := min e.2 x.total })

/-- BEQ (R200). -/
def execBeq (c : CoreId) (d : BitVec 16) (s : State) : Host.Outcome State Fault Refusal :=
  .next (issue c { code := 0x70 :: leBytes 2 d.toNat, act := branch 2 (fun b a => a == b) d.toInt } s)

/-- BNE (R200). -/
def execBne (c : CoreId) (d : BitVec 16) (s : State) : Host.Outcome State Fault Refusal :=
  .next (issue c { code := 0x71 :: leBytes 2 d.toNat, act := branch 2 (fun b a => a != b) d.toInt } s)

/-- BLT (R200). -/
def execBlt (c : CoreId) (d : BitVec 16) (s : State) : Host.Outcome State Fault Refusal :=
  .next (issue c { code := 0x72 :: leBytes 2 d.toNat, act := branch 2 (fun b a => a.slt b) d.toInt } s)

/-- BLTU (R200). -/
def execBltu (c : CoreId) (d : BitVec 16) (s : State) : Host.Outcome State Fault Refusal :=
  .next (issue c { code := 0x73 :: leBytes 2 d.toNat, act := branch 2 (fun b a => a.ult b) d.toInt } s)

/-- BGE (R200). -/
def execBge (c : CoreId) (d : BitVec 16) (s : State) : Host.Outcome State Fault Refusal :=
  .next (issue c { code := 0x74 :: leBytes 2 d.toNat, act := branch 2 (fun b a => !a.slt b) d.toInt } s)

/-- BGEU (R200). -/
def execBgeu (c : CoreId) (d : BitVec 16) (s : State) : Host.Outcome State Fault Refusal :=
  .next (issue c { code := 0x75 :: leBytes 2 d.toNat, act := branch 2 (fun b a => !a.ult b) d.toInt } s)

/-- BEQZ (R200). -/
def execBeqz (c : CoreId) (d : BitVec 16) (s : State) : Host.Outcome State Fault Refusal :=
  .next (issue c { code := 0x76 :: leBytes 2 d.toNat, act := branch 1 (fun a _ => a == 0) d.toInt } s)

/-- BNEZ (R200). -/
def execBnez (c : CoreId) (d : BitVec 16) (s : State) : Host.Outcome State Fault Refusal :=
  .next (issue c { code := 0x77 :: leBytes 2 d.toNat, act := branch 1 (fun a _ => a != 0) d.toInt } s)

/-- BLTZ (R200). -/
def execBltz (c : CoreId) (d : BitVec 16) (s : State) : Host.Outcome State Fault Refusal :=
  .next (issue c { code := 0x78 :: leBytes 2 d.toNat, act := branch 1 (fun a _ => a.slt 0) d.toInt } s)

/-- BGEZ (R200). -/
def execBgez (c : CoreId) (d : BitVec 16) (s : State) : Host.Outcome State Fault Refusal :=
  .next (issue c { code := 0x79 :: leBytes 2 d.toNat, act := branch 1 (fun a _ => !a.slt 0) d.toInt } s)

/-- BGTZ (R200). -/
def execBgtz (c : CoreId) (d : BitVec 16) (s : State) : Host.Outcome State Fault Refusal :=
  .next (issue c { code := 0x7A :: leBytes 2 d.toNat, act := branch 1 (fun a _ => BitVec.slt 0 a) d.toInt } s)

/-- BLEZ (R200). -/
def execBlez (c : CoreId) (d : BitVec 16) (s : State) : Host.Outcome State Fault Refusal :=
  .next (issue c { code := 0x7B :: leBytes 2 d.toNat, act := branch 1 (fun a _ => !BitVec.slt 0 a) d.toInt } s)

/-- JMP (R192). -/
def execJmp (c : CoreId) (d : BitVec 24) (s : State) : Host.Outcome State Fault Refusal :=
  .next (issue c { code := 0x7C :: leBytes 3 d.toNat, act := fun k r s => .ok (some (target (s.nextPc k r 4) d.toInt)) s } s)

/-- JMPI (R201). -/
def execJmpi (c : CoreId) (s : State) : Host.Outcome State Fault Refusal :=
  .next (issue c { code := [0x7D], act := fun k r s => (s.operand k r 0).bind (fun v s => .ok (some v.toNat) (s.modCtx k r (fun x => x.replace 1 []))) } s)

/-- CALL (R201, R234). -/
def execCall (c : CoreId) (n : BitVec 8) (d : BitVec 24) (s : State) : Host.Outcome State Fault Refusal :=
  .next (issue c { code := 0x7E :: n :: leBytes 3 d.toNat, act := legal (n.toNat < 16) (callAction 5 n.toNat (some d.toInt)) } s)

/-- CALLI (R201, R234). -/
def execCalli (c : CoreId) (n : BitVec 8) (s : State) : Host.Outcome State Fault Refusal :=
  .next (issue c { code := [0x7F, n], act := legal (n.toNat < 16) (callAction 2 n.toNat none) } s)

/-- RET (R234). -/
def execRet (c : CoreId) (s : State) : Host.Outcome State Fault Refusal :=
  .next (issue c { code := [0x80], act := retAction } s)

end Sys2Proof.Machine
end

