-- ==== Sys2Proof/Machine/EfmarCrypto.lean ====
section
/-! DEFINITION. Round-key, AES-round and engine-query instructions (Table 7.8; R175, R199). -/

namespace Sys2Proof.Machine

/-- The 16 bytes of two stack words, the lower word first (R6). -/
def block16 (lo hi : Word) : List Byte := wordBytes lo ++ wordBytes hi

/-- RKLD: round key k1:k0, used from the second issue on (R175). -/
def rkldAction : Action := fun k r s =>
  (s.operands 2 k r 0).bind (fun vs s =>
    let key : BitVec 128 := (vs.getD 0 0).setWidth 128 <<< 64 ||| (vs.getD 1 0).setWidth 128
    doneIn (s.modCtx k r (fun x => { x.replace 2 [] with rkeyNext := some key, latchAt := s.now })))

/-- One AES round of the top two words under the round-key port (R175, log entry 27). -/
def aesAction (f : List Byte → List Byte → List Byte) : Action := fun k r s =>
  let rk := leBytes 16 (s.ctx k r).rkey.toNat
  popPush 2 2 (fun l =>
    let b := f rk (block16 (l.getD 1 0) (l.getD 0 0))
    [wordIn b 8, wordIn b 0]) k r s

/-- One round of the inverse cipher of FIPS 197: rows and bytes back, the round key, columns back (log entry 27). -/
def aesDecRound (rk l : List Byte) : List Byte := invMixColumns (xorBytes (invSubShift l) rk)

/-- GQRY: a bitmap of the engines of a kind that pass, are not under test and run nothing (R199). -/
def gqryAction : Action := fun k r s =>
  tagged 1 false (fun vs t s =>
    let n := keyShelf k
    let bits := fun (lo c : Nat) => (List.range c).foldl (fun w i => w ||| bitIf i (s.engineFree n (lo + i))) (0 : Word)
    let v := if vs.getD 0 0 = 0 then bits 0 4 else if vs.getD 0 0 = 1 then bits 4 2 else 0
    s.tagDone t (.value v 0)) k r s

/-- RKLD (R175). -/
def execRkld (c : CoreId) (s : State) : Host.Outcome State Fault Refusal := .next (issue c { code := [0x98], act := notWarden rkldAction } s)

/-- AESE (R175). -/
def execAese (c : CoreId) (s : State) : Host.Outcome State Fault Refusal := .next (issue c { code := [0x99], act := notWarden (aesAction aesRound) } s)

/-- AESEL (R175). -/
def execAesel (c : CoreId) (s : State) : Host.Outcome State Fault Refusal := .next (issue c { code := [0x9A], act := notWarden (aesAction aesLast) } s)

/-- AESD (R175). -/
def execAesd (c : CoreId) (s : State) : Host.Outcome State Fault Refusal := .next (issue c { code := [0x9B], act := notWarden (aesAction aesDecRound) } s)

/-- AESDL (R175). -/
def execAesdl (c : CoreId) (s : State) : Host.Outcome State Fault Refusal := .next (issue c { code := [0x9C], act := notWarden (aesAction aesInvLast) } s)

/-- GQRY (R199). -/
def execGqry (c : CoreId) (s : State) : Host.Outcome State Fault Refusal := .next (issue c { code := [0x9D], act := notWarden gqryAction } s)

end Sys2Proof.Machine
end

