-- ==== Sys2Proof/Machine/EfmarMem.lean ====
section
/-! DEFINITION. Loads, stores, atomics, LDC and STC, the store buffer and its drain, FENCE (R166 to R168, R176 to R178, R211, R215, R216,
R251 to R253, R256, R257, R272). -/

namespace Sys2Proof.Machine

/-! ## Places -/

/-- The aligned 32-byte block of a place, and the offset in it (R176). -/
def Place.block (p : Place) : Place × Nat :=
  match p with
  | .mem a => (.mem (a / 32 * 32), a % 32)
  | .host a => (.host (a / 32 * 32), a % 32)
  | .ctl o => (.ctl (o / 32 * 32), o % 32)
  | .rom o => (.rom (o / 32 * 32), o % 32)
  | .log o => (.log (o / 32 * 32), o % 32)
  | .snap o => (.snap (o / 32 * 32), o % 32)

/-- The bytes of an access: place, SE, effective address. -/
def pieceBytes (ps : List Piece) : List (Place × Bool × Nat) :=
  ps.flatMap (fun p => (List.range p.len).map (fun i => (p.place.add i, p.se, p.ea + i)))

/-- Some page of the access has side effects. -/
def piecesSe (ps : List Piece) : Bool := ps.any (fun p => p.se)

/-- Every byte lies in local memory. -/
def piecesLocal (k : Nat) (ps : List Piece) : Bool := ps.all (fun p => isLocal k p.place)

/-- Effective address of the first byte. -/
def piecesEa (ps : List Piece) : Nat := (ps.head?.map (fun p => p.ea)).getD 0

/-- The pieces of host memory that an access reaches. -/
def hostParts (ps : List Piece) : List (Nat × Nat) :=
  ps.filterMap (fun p => match p.place with | .host a => some (a, p.len) | _ => none)

/-- Bytes of local or shelf memory as they stand. -/
def State.peek (s : State) (ps : List Piece) : List Byte := ps.flatMap (fun p => (s.placeBytes p.place p.len).getD [])

/-- A flue message to a gated shelf wakes it (R25). -/
def State.wakeFor (s : State) (ps : List Piece) : State :=
  foldS ps (fun s p => match p.place with
    | .mem a => if a < 0x8000000 ∧ (s.shelf (a / 0x200000)).phase = .gated then s.wakeShelf (a / 0x200000) else s
    | _ => s) s

/-- The control-space access of `n` bytes at an offset (R12). -/
def coreAccess (off n : Nat) : Access :=
  if n = 8 ∧ off % 8 = 0 then .full else if n = 4 ∧ off % 8 = 0 then .low else if n = 4 ∧ off % 8 = 4 then .high else .bad

/-! ## The store buffer (R176, R177) -/

/-- The newest buffered byte for a place; the list holds the oldest entry first. -/
def bufferedByte : List StoreEnt → Place → Option Byte
  | [], _ => none
  | e :: t, p =>
    match bufferedByte t p with
    | some b => some b
    | none => if e.block = p.block.1 then alook p.block.2 e.bytes else none

/-- What the store buffer holds of an access: nothing, all of it, or a part. -/
inductive Fwd where
  | none | all (b : List Byte) | part
  deriving DecidableEq, Repr

def State.forward (s : State) (k : Nat) (ps : List Piece) : Fwd :=
  let bs := (pieceBytes ps).map (fun p => bufferedByte (s.core k).sbuf p.1)
  if bs.all Option.isNone then .none else if bs.all Option.isSome then .all (bs.map (fun b => b.getD 0)) else .part

/-- A buffered store to an SE page is older than this access. -/
def State.seOlder (s : State) (k : Nat) : Bool := (s.core k).sbuf.any (fun e => e.se)

/-- The access must wait for the store buffer: it meets buffered bytes that it does not forward, or an SE access finds an older one. -/
def State.mustDrain (s : State) (k : Nat) (ps : List Piece) : Bool :=
  (piecesSe ps && s.seOlder k) || s.forward k ps != .none

/-- Room in the buffer. -/
def sbufSize : Nat := 8

/-- Add a byte to the last entry of a store when it lies in the same block of the same kind of page, else open another entry. -/
def addByte (mk : Place → Bool → Nat → StoreEnt) (es : List StoreEnt) (q : (Place × Bool × Nat) × Byte) : List StoreEnt :=
  let b := q.1.1.block
  match es.getLast? with
  | some e =>
    if e.block = b.1 ∧ e.se = q.1.2.1 then es.dropLast ++ [{ e with bytes := e.bytes ++ [(b.2, q.2)] }]
    else es ++ [{ mk b.1 q.1.2.1 q.1.2.2 with bytes := [(b.2, q.2)] }]
  | none => [{ mk b.1 q.1.2.1 q.1.2.2 with bytes := [(b.2, q.2)] }]

/-- The entries of a store by the context in store `r`, in ascending order of address. -/
def State.storeEnts (s : State) (k r : Nat) (ps : List Piece) (data : List Byte) (capTag : Option Bool) : List StoreEnt :=
  let x := s.ctx k r
  let mk := fun (p : Place) (se : Bool) (ea : Nat) =>
    ({ block := p, bytes := [], se := se, store := r, ctx := x.ctx, vmid := BitVec.ofNat 12 (xlatVmid x.xlat), va := BitVec.ofNat 64 ea,
       capTag := capTag, sysctl := x.sysctl } : StoreEnt)
  (((pieceBytes ps).zip data).foldl (addByte mk) []).mapIdx (fun i e => { e with tied := i != 0 })

/-- A store merges into the newest entry: the same block, no SE page, DET off (R176). -/
def mergesInto (det : Bool) (o e : StoreEnt) : Bool := !det && o.block == e.block && !o.se && !e.se && !o.sent

/-- Two stores of one entry that report, are checked and write in one way. -/
def sameIssuer (o e : StoreEnt) : Bool :=
  o.ctx == e.ctx && o.store == e.store && o.vmid == e.vmid && o.sysctl == e.sysctl && o.capTag.isNone && e.capTag.isNone

/-- Later bytes replace earlier ones. -/
def mergeBytes (old new : List (Nat × Byte)) : List (Nat × Byte) := old.filter (fun o => (alook o.1 new).isNone) ++ new

/-- The buffer with the entries of a store behind it. What merges from another context, or carries a tag, is a part of its own. -/
def appendEnts (det : Bool) (buf es : List StoreEnt) : List StoreEnt :=
  match es, buf.getLast? with
  | e :: t, some o =>
    if mergesInto det o e then
      if sameIssuer o e then buf.dropLast ++ [{ o with bytes := mergeBytes o.bytes e.bytes }] ++ t else buf ++ { e with joined := true } :: t
    else buf ++ e :: t
  | _, _ => buf ++ es

/-- Entries that the buffer holds, where the parts of an entry count once. -/
def sbufCount (buf : List StoreEnt) : Nat := buf.countP (fun e => !e.joined)

/-- Write the bytes of an entry at its place in shelf memory or SRAM; an STC writes its tag (R251). -/
def State.storeMem (s : State) (a : Nat) (e : StoreEnt) : State :=
  let s := e.bytes.foldl (fun s b => s.store (a + b.1) [b.2]) s
  let s := { s with bad := (List.range 4).foldl (fun t i =>
    if (List.range 8).all (fun j => (alook (8 * i + j) e.bytes).isSome) then tset false t (a / 8 + i) false else t) s.bad }
  match e.capTag, e.bytes.head? with
  | some t, some b => s.setTag (a + b.1) t
  | _, _ => s

/-- Issue a store. With DET on, a store to the core's own memory is not buffered, once no buffered store to its blocks is left. -/
def State.putStore (s : State) (k r : Nat) (ps : List Piece) (data : List Byte) (capTag : Option Bool) : Res Unit :=
  let es := s.storeEnts k r ps data capTag
  let det := s.detOn k
  let buf := (s.core k).sbuf
  if det && piecesLocal k ps then
    if es.any (fun e => buf.any (fun o => o.block == e.block)) then .wait .drain s
    else .ok () (es.foldl (fun s e => match e.block with | .mem a => s.storeMem a e | _ => s) s)
  else
    let nb := appendEnts det buf es
    if sbufCount nb ≤ sbufSize then .ok () (s.modCore k (fun c => { c with sbuf := nb })) else .wait .storeBuffer s

/-! ## Access -/

/-- Run `f` on the pieces of an access that passes the check of Table 10.3, made through the instruction's segment register. -/
def State.access {α : Type} (s : State) (k r : Nat) (a : AKind) (off z al : Nat) (local_ : Bool) (f : List Piece → State → Res α) : Res α :=
  match s.checkAccess k (s.ctx k r) (s.dataSeg k) a off z al local_ with
  | .exc e => .exc e s
  | .pending t => .wait (.tag t) s
  | .owed i b => .wait .other (s.owe k i b)
  | .ok ps => f ps s

/-- The address of an uncorrectable word that the pieces hold, in a state that has counted it (R305). -/
def State.checkBad {α : Type} (s : State) (k r : Nat) (ps : List Piece) (f : Res α) : Res α :=
  match s.badPiece ps with
  | some a => .exc (fetchDe (s.ctx k r).pc.toNat (piecesEa ps)) (s.eccUnc a)
  | none => f

/-- Take one tag for a result on the stack, removing `pops` operands: the record names the access. -/
def State.tagAccess (s : State) (k r pops : Nat) (op : TagOp) (ps : List Piece) (f : TagRef → State → State) : Res Flow :=
  (s.takeTags k r 1).bind (fun ts s =>
    let t := ts.getD 0 0
    let x := s.ctx k r
    let rec_ := {
      dpc := 0, addr := BitVec.ofNat 64 (piecesEa ps), dest := .stack, op := op, parts := hostParts ps,
      se := piecesSe ps, vmid := BitVec.ofNat 12 (xlatVmid x.xlat) }
    let s := s.pushTag k r pops t rec_
    doneIn (f (s.tagRef k r t) s))

/-- A tagged operation on memory that the flue reaches: NOT-PRESENT and an uncorrectable word poison the tag (R173, R305). -/
def State.farMem (s : State) (ps : List Piece) (t : TagRef) (f : State → State) : State :=
  if s.goneMem ps then s.tagDone t (.poison 2)
  else match s.badPiece ps with
    | some a => (s.eccUnc a).tagDone t (.poison 5)
    | none => f (s.wakeFor ps)

/-- The first place of an access. -/
def firstPlace (ps : List Piece) : Place := (ps.head?.map (fun p => p.place)).getD (.mem 0)

/-! ## Loads (R167, R168, R177) -/

/-- A load of bytes that lie outside the core's own memory, under tag `t`. -/
def State.beginLoad (s : State) (k r size : Nat) (signed : Bool) (ps : List Piece) (t : TagRef) : State :=
  match firstPlace ps with
  | .host a => if piecesSe ps then s.askThrough (.tag t) (a / 64) true else s.tagTry t
  | .ctl o =>
    let q := s.ctlRead (coreParty k (s.ctx k r).sysctl) o (coreAccess o size)
    q.2.tagDone t (.value (loadVal size signed (wordBytes q.1)) 0)
  | _ => s.farMem ps t (fun s => s.tagDone t (.value (loadVal size signed (s.peek ps)) 0))

def loadAction (size : Nat) (signed : Bool) : Action := fun k r s =>
  (s.operand k r 0).bind (fun off s =>
    s.access k r .load off.toNat size 1 false (fun ps s =>
      let put := fun (b : List Byte) (s : State) => doneIn (s.modCtx k r (fun x => x.replace 1 [.val (loadVal size signed b)]))
      if piecesSe ps && s.seOlder k then .wait .drain s
      else match (if piecesSe ps then Fwd.none else s.forward k ps) with
        | .all b => put b s
        | .part => .wait .drain s
        | .none =>
          if piecesLocal k ps then s.checkBad k r ps (put (s.peek ps) s)
          else s.tagAccess k r 1 (if (hostParts ps).isEmpty then .plain else .load size signed) ps
            (fun t s => s.beginLoad k r size signed ps t)))

def opLoad (b : Byte) (size : Nat) (signed : Bool) : Op := { code := [b], segOk := true, act := loadAction size signed }

/-- LDB (R167). -/
def execLdb (c : CoreId) (s : State) : Host.Outcome State Fault Refusal := .next (issue c (opLoad 0x40 1 false) s)

/-- LDBS (R167). -/
def execLdbs (c : CoreId) (s : State) : Host.Outcome State Fault Refusal := .next (issue c (opLoad 0x41 1 true) s)

/-- LDH (R167). -/
def execLdh (c : CoreId) (s : State) : Host.Outcome State Fault Refusal := .next (issue c (opLoad 0x42 2 false) s)

/-- LDHS (R167). -/
def execLdhs (c : CoreId) (s : State) : Host.Outcome State Fault Refusal := .next (issue c (opLoad 0x43 2 true) s)

/-- LDW (R167). -/
def execLdw (c : CoreId) (s : State) : Host.Outcome State Fault Refusal := .next (issue c (opLoad 0x44 4 false) s)

/-- LDWS (R167). -/
def execLdws (c : CoreId) (s : State) : Host.Outcome State Fault Refusal := .next (issue c (opLoad 0x45 4 true) s)

/-- LD (R167). -/
def execLd (c : CoreId) (s : State) : Host.Outcome State Fault Refusal := .next (issue c (opLoad 0x46 8 false) s)

/-! ## Stores (R176) -/

def storeAction (size : Nat) : Action := fun k r s =>
  (s.operands 2 k r 0).bind (fun vs s =>
    s.access k r .store (vs.getD 0 0).toNat size 1 false (fun ps s =>
      (s.putStore k r ps (leBytes size (vs.getD 1 0).toNat) none).bind (fun _ s => doneIn (s.modCtx k r (fun x => x.replace 2 [])))))

def opStore (b : Byte) (size : Nat) : Op := { code := [b], segOk := true, act := storeAction size }

/-- STB (R176). -/
def execStb (c : CoreId) (s : State) : Host.Outcome State Fault Refusal := .next (issue c (opStore 0x48 1) s)

/-- STH (R176). -/
def execSth (c : CoreId) (s : State) : Host.Outcome State Fault Refusal := .next (issue c (opStore 0x49 2) s)

/-- STW (R176). -/
def execStw (c : CoreId) (s : State) : Host.Outcome State Fault Refusal := .next (issue c (opStore 0x4A 4) s)

/-- ST (R176). -/
def execSt (c : CoreId) (s : State) : Host.Outcome State Fault Refusal := .next (issue c (opStore 0x4B 8) s)

/-! ## Atomics (R215) -/

/-- The atomic on a word of shelf memory or SRAM at address `a`. -/
def State.atomicMem (s : State) (op : TagOp) (a : Nat) : Word × State :=
  let old := s.word a
  (old, match op.newWord old with | some w => s.storeWords a [w] | none => s)

/-- The atomic on a control-space register: a read and a write by the core's party. -/
def State.atomicCtl (s : State) (k r : Nat) (op : TagOp) (o : Nat) : Word × State :=
  let who := coreParty k (s.ctx k r).sysctl
  let q := s.ctlRead who o (coreAccess o 8)
  (q.1, match op.newWord q.1 with | some w => q.2.ctlWrite who o (coreAccess o 8) w | none => q.2)

/-- An atomic on a side-effect page of host memory: the word is read through once the write's grant is known to hold (R272, R330). -/
def State.atomicSe (s : State) (k r n : Nat) (op : TagOp) (ps : List Piece) (a : Nat) : Res Flow :=
  let p := s.servingPort (a / 64)
  match s.checkWrite p none (some (BitVec.ofNat 12 (xlatVmid (s.ctx k r).xlat))) a 8 with
  | .fetch i => .wait .host (s.fetchGrant p i)
  | .fail => s.tagAccess k r n op ps (fun t s => (s.refuse p 3 a none).tagDone t (.poison 1))
  | .pass i => s.tagAccess k r n op ps (fun t s => s.askThrough (.tag t) (a / 64) true (some i))

/-- An atomic with `n` operands, the offset deepest; `op` is built from the operands, top first. -/
def atomicAction (n : Nat) (mk : List Word → TagOp) : Action := fun k r s =>
  (s.operands n k r 0).bind (fun vs s =>
    let op := mk vs
    s.access k r .atomic (vs.getD (n - 1) 0).toNat 8 8 false (fun ps s =>
      if s.mustDrain k ps then .wait .drain s
      else match firstPlace ps with
        | .mem a =>
          if piecesLocal k ps then
            s.checkBad k r ps (let q := s.atomicMem op a
              doneIn (q.2.modCtx k r (fun x => x.replace n [.val q.1])))
          else s.tagAccess k r n .plain ps (fun t s => s.farMem ps t (fun s => let q := s.atomicMem op a
            q.2.tagDone t (.value q.1 0)))
        | .host a =>
          if piecesSe ps then s.atomicSe k r n op ps a
          else s.tagAccess k r n op ps (fun t s => s.tagTry t)
        | .ctl o => s.tagAccess k r n .plain ps (fun t s => let q := s.atomicCtl k r op o
            q.2.tagDone t (.value q.1 0))
        | _ => .exc (plainReport dAC) s))

/-- CAS (R215): ( off e n -- old ). -/
def execCas (c : CoreId) (s : State) : Host.Outcome State Fault Refusal :=
  .next (issue c { code := [0x4C], segOk := true, act := atomicAction 3 (fun v => .cas (v.getD 1 0) (v.getD 0 0)) } s)

/-- AADD (R215): ( off v -- old ). -/
def execAadd (c : CoreId) (s : State) : Host.Outcome State Fault Refusal :=
  .next (issue c { code := [0x4D], segOk := true, act := atomicAction 2 (fun v => .aadd (v.getD 0 0)) } s)

/-- AOR (R215). -/
def execAor (c : CoreId) (s : State) : Host.Outcome State Fault Refusal :=
  .next (issue c { code := [0x4E], segOk := true, act := atomicAction 2 (fun v => .aor (v.getD 0 0)) } s)

/-- AAND (R215). -/
def execAand (c : CoreId) (s : State) : Host.Outcome State Fault Refusal :=
  .next (issue c { code := [0x4F], segOk := true, act := atomicAction 2 (fun v => .aand (v.getD 0 0)) } s)

/-! ## LDC and STC (R194, R252, R253, R256) -/

/-- The capability in 16 bytes and the tag of its granule. -/
def State.capAt (s : State) (ps : List Piece) : Cap :=
  let b := s.peek ps
  capOfWords (wordIn b 0) (wordIn b 8) (match firstPlace ps with | .mem a => s.tagAt a | _ => false)

/-- An LDC from outside the core's own memory: seg `d` is pending under a tag. -/
def State.ldcFar (s : State) (k r d : Nat) (ps : List Piece) : Res Flow :=
  (s.takeTags k r 1).bind (fun ts s =>
    let t := ts.getD 0 0
    let x := s.ctx k r
    let s := (s.modCtx k r (fun x => { (x.replace 1 []).putSeg d {} with segPend := aput d t x.segPend })).openTag k r t
      { dpc := x.pc, addr := BitVec.ofNat 64 (piecesEa ps), dest := .seg d, op := if (hostParts ps).isEmpty then .plain else .ldc,
        parts := hostParts ps, se := piecesSe ps, vmid := BitVec.ofNat 12 (xlatVmid x.xlat) }
    let ref := s.tagRef k r t
    doneIn (match firstPlace ps with
      | .host a => if piecesSe ps then s.askThrough (.tag ref) (a / 64) true else s.tagTry ref
      | .ctl o =>
        let q := s.ctlRead (coreParty k x.sysctl) o .bad
        q.2.tagDone ref (.cap {})
      | _ => s.farMem ps ref (fun s => s.tagDone ref (.cap (s.capAt ps)))))

def ldcAction (d : Nat) : Action := fun k r s =>
  if d = segC then .exc (capExc cSegc d) s
  else (s.segFree k r d).bind (fun _ s =>
    (s.operand k r 0).bind (fun off s =>
      s.access k r .ldc off.toNat 16 16 false (fun ps s =>
        if s.mustDrain k ps then .wait .drain s
        else if piecesLocal k ps then
          s.checkBad k r ps (doneIn (s.modCtx k r (fun x => (x.replace 1 []).putSeg d (s.capAt ps))))
        else s.ldcFar k r d ps)))

/-- LDC (R256). -/
def execLdc (c : CoreId) (r : BitVec 3) (s : State) : Host.Outcome State Fault Refusal :=
  .next (issue c { code := [0x50 + r.setWidth 8], segOk := true, act := ldcAction r.toNat } s)

/-- STC: a capability without G only through seg.s (R249). -/
def stcAction (n : Nat) : Action := fun k r s =>
  (s.segVal k r n).bind (fun c s =>
    (s.operand k r 0).bind (fun off s =>
      s.access k r .stc off.toNat 16 16 (!c.g && s.dataSeg k != segS) (fun ps s =>
        (s.putStore k r ps (fromWords c.words) (some c.tag)).bind (fun _ s => doneIn (s.modCtx k r (fun x => x.replace 1 []))))))

/-- STC (R256). -/
def execStc (c : CoreId) (r : BitVec 3) (s : State) : Host.Outcome State Fault Refusal :=
  .next (issue c { code := [0x58 + r.setWidth 8], segOk := true, act := stcAction r.toNat } s)

/-! ## The instruction cache (R164) -/

/-- Put a line into the instruction cache. -/
def State.fillLine (s : State) (k : Nat) (d : CacheLine) : State :=
  s.modCore k (fun c => { c with icache := tmod {} c.icache (d.line % 64) (fun x => x.fill d), fetchMiss := none, fetchBad := none })

def effIcacheFill (c : CoreId) (s : State) : State :=
  let k := s.coreKey c
  match (s.core k).fetchMiss with
  | none => s
  | some l =>
    if l < 2 ^ 60 then
      let a := 64 * l
      if a < 0x8000000 ∧ s.shelfGone (a / 0x200000) then s.modCore k (fun c => { c with fetchMiss := none, fetchBad := some (l, 2) })
      else (s.wakeFor [⟨.mem a, false, 0, 64⟩]).fillLine k
        { line := l, data := s.bytes a 64, bad := (List.range 8).filter (fun i => s.badIn (a + 8 * i) 8) }
    else match s.hostBytes (64 * (l - 2 ^ 60)) 64 with
      | some b => s.fillLine k { line := l, data := b }
      | none => s.askHost (64 * (l - 2 ^ 60)) 64 (.code k)

/-- ICACHE_FILL (R164): the line that F waits for arrives; one of host memory comes through its port cache. -/
def execIcacheFill (c : CoreId) (s : State) : Host.Outcome State Fault Refusal := .next (effIcacheFill c s)

/-! ## Draining (R176, R178) -/

/-- Runs of neighbouring bytes, by offset in the block. -/
def byteRuns (bytes : List (Nat × Byte)) : List (Nat × List Byte) :=
  (List.range 32).foldl (fun rs i =>
    match alook i bytes with
    | none => rs
    | some b =>
      match rs.getLast? with
      | some (o, l) => if o + l.length = i then rs.dropLast ++ [(o, l ++ [b])] else rs ++ [(i, [b])]
      | none => [(i, [b])]) []

/-- The 64 bytes of a line with the entry's bytes in place, and their byte enables; the block lies at host address `a`. -/
def entLine (a : Nat) (e : StoreEnt) : List Byte × Word :=
  ((List.range 64).map (fun i => if a % 64 ≤ i then (alook (i - a % 64) e.bytes).getD 0 else 0),
   BitVec.ofNat 64 (e.bytes.foldl (fun n b => n + 2 ^ (a % 64 + b.1)) 0))

/-- The grant checks of the runs of a store (R330): all pass, one fails at an address, or an entry is to be fetched. -/
def State.checkRuns (s : State) (p : Nat) (vmid : BitVec 12) (a : Nat) : List (Nat × List Byte) → Option Nat → GrantAns × Nat
  | [], g => (match g with | some i => .pass i | none => .fail, a)
  | (o, b) :: t, _ =>
    match s.checkWrite p none (some vmid) (a + o) b.length with
    | .pass i => State.checkRuns s p vmid a t (some i)
    | x => (x, a + o)

/-- The oldest entry leaves. -/
def State.popStore (s : State) (k : Nat) : State := s.modCore k (fun c => { c with sbuf := c.sbuf.drop 1 })

/-- What an entry to host memory needs before it can drain: its grant, then its line in M or E (R321, R330). -/
def State.drainNeeds (s : State) (k : Nat) (e : StoreEnt) : Option State :=
  match e.block with
  | .host a =>
    let p := s.servingPort (a / 64)
    match s.checkRuns p e.vmid a (byteRuns e.bytes) none with
    | (.fetch i, _) => some (s.fetchGrant p i)
    | (.fail, _) => none
    | (.pass _, _) => if e.se || s.ownedLine (a / 64) then none else some (s.askOwn (.store k) (a / 64))
  | _ => none

/-- Drain the oldest entry, which needs nothing more, to host memory: into its line, or a masked write to an SE page (R321, R330). -/
def State.drainHost (s : State) (k a : Nat) (e : StoreEnt) : State :=
  let p := s.servingPort (a / 64)
  let runs := byteRuns e.bytes
  let first := (runs.headD (0, [])).1
  let n := (runs.foldl (fun m q => max m (q.1 + q.2.length)) 0) - first
  let ln := entLine a e
  match s.checkRuns p e.vmid a runs none with
  | (.fetch _, _) => s
  | (.fail, b) => (s.refuse p 3 b none).dropStore k 1
  | (.pass g, _) =>
    if e.se then
      let s := (s.clearHostTags (a + first) n).request p
        { op := .putMasked, line := a / 64, se := true, who := .store k, data := ln.1, be := ln.2, grant := some g }
      s.modCore k (fun c => { c with sbuf := { e with sent := true } :: c.sbuf.drop 1 })
    else
      let s := ((s.clearHostTags (a + first) n).mergeLine p (a / 64) ln.1 ln.2).popStore k
      match e.capTag with
      | some t => s.putHostTag (a + first) t
      | none => s

/-- Contexts that waited for room in the buffer, or for it to drain, may go on. -/
def State.wakeStores (s : State) (k : Nat) : State :=
  foldS (List.range 16) (fun s r => if (s.ctx k r).wait = some .storeBuffer ∨ (s.ctx k r).wait = some .drain then
    s.modCtx k r (fun x => x.wakeWait (fun w => w == .storeBuffer || w == .drain)) else s) s

/-- The oldest entry with its parts and with the other blocks of its stores: their bytes become visible together (R176, R211). -/
def storeGroup : List StoreEnt → List StoreEnt
  | [] => []
  | e :: t => e :: t.takeWhile (fun o => o.joined || o.tied)

/-- The oldest entry leaves for its place. -/
def State.drainHead (s : State) (k : Nat) : State :=
  match (s.core k).sbuf with
  | [] => s
  | e :: _ =>
    match e.block with
      | .mem a => if a < 0x8000000 ∧ s.shelfGone (a / 0x200000) then s.dropStore k 2
          else ((s.popStore k).wakeFor [⟨e.block, false, 0, 1⟩]).storeMem a e
      | .host a => s.drainHost k a e
      | .ctl o => foldS (byteRuns e.bytes) (fun s q =>
          s.ctlWrite (coreParty k e.sysctl) (o + q.1) (coreAccess (o + q.1) q.2.length) (BitVec.ofNat 64 (leNat q.2))) (s.popStore k)
      | _ => s.popStore k

/-- Drain the oldest entry and what drains with it; or ask for what one of them still needs. -/
def State.drainOne (s : State) (k : Nat) : State :=
  let g := storeGroup (s.core k).sbuf
  if g.any (fun e => e.sent) then s
  else match g.findSome? (fun e => s.drainNeeds k e) with
    | some t => t
    | none => g.foldl (fun s _ => s.drainHead k) s

def effStoreDrain (c : CoreId) (s : State) : State :=
  let k := s.coreKey c
  if s.coreLive k then (s.drainOne k).wakeStores k else s

/-- STORE_DRAIN (R176). -/
def execStoreDrain (c : CoreId) (s : State) : Host.Outcome State Fault Refusal := .next (effStoreDrain c s)

/-- FENCE (R177): once the buffer is empty and every drained store is acknowledged, the store errors since the last FENCE. -/
def fenceAction : Action := fun k r s =>
  if (s.core k).sbuf != [] || s.storePending k then .wait .drain s
  else (s.room k r 0 1).bind (fun _ s =>
    doneIn (s.modCtx k r (fun x => { x.replace 0 [.val (BitVec.ofNat 64 x.storeErrs)] with storeErrs := 0 })))

/-- FENCE (R177). -/
def execFence (c : CoreId) (s : State) : Host.Outcome State Fault Refusal := .next (issue c { code := [0xF0, 0x02], act := fenceAction } s)

end Sys2Proof.Machine
end

