-- ==== Sys2Proof/Machine/EfmarQueue.lean ====
section
/-! DEFINITION. Queue instructions that move no data (Tables 7.7, 7.10; R97, R100, R102, R196). -/

namespace Sys2Proof.Machine

/-- Queue authority (R196): the capability in seg.x1, its W or R right, and the qid within its bounds. -/
def Cap.queueAuth (c : Cap) (wr : Bool) (qid : Nat) : Bool :=
  c.tag && c.otype == 0 && (if wr then c.w else c.r) && c.hasValue qid && decide (qid < 65536)

/-- An operation on queue `qid`: ABSENT at an absent queue (R102, R103), held at a gated shelf, else taken. -/
def State.queueAt (s : State) (qid : Nat) (o : QOwner) (op : QueueOp) (t : TagRef) : State :=
  let n := qid / 1024
  let q := qid % 1024
  if s.qAbsent n q then s.queueResult qid .absent t
  else if (s.shelf n).phase = .gated then s.holdOp n { q := q, owner := o, op := op, tag := some t }
  else s.queueOp n q o op t

/-- The QCOMMIT after a QWR that was dropped for want of authority: NOAUTH, and the staged item is void (R196). -/
def State.qNoAuth (s : State) (qid : Nat) (o : QOwner) : State :=
  let x := s.queue (qid / 1024) (qid % 1024)
  if qid < 65536 ∧ (x.denied.contains o || (match x.stagedOf o with | some t => t.noauth | none => false)) = true then
    s.setQueue (qid / 1024) (qid % 1024) { x with
      staged := dropFirst (fun u => u.owner == o) x.staged
      denied := x.denied.filter (· != o) }
  else s

/-- A queue instruction with `n` operands, the qid at depth `at_`: without authority `no` acts and the answer is NOAUTH, else the operation. -/
def queueAction (n at_ : Nat) (wr : Bool) (no : Nat → QOwner → State → State) (f : List Word → State → QueueOp) : Action := fun k r s =>
  (s.segVal k r segX1).bind (fun c s =>
    tagged n false (fun vs t s =>
      let qid := (vs.getD at_ 0).toNat
      if !c.queueAuth wr qid then (no qid (.ctx k r) s).queueResult qid .noAuth t
      else s.queueAt qid (.ctx k r) (f vs s) t) k r s)

def noQueueEffect : Nat → QOwner → State → State := fun _ _ s => s

def qresAction : Action := queueAction 2 1 true noQueueEffect (fun vs _ => .reserve (vs.getD 0 0).toNat)

/-- CT of the committing context goes with the item (R153). -/
def qcommitAction : Action := fun k r s =>
  queueAction 1 0 true (fun qid o s => s.qNoAuth qid o) (fun _ s => .commit (s.ctx k r).ct) k r s

def qpopAction (same : Bool) : Action := queueAction 1 0 false noQueueEffect (fun _ _ => .pop same)

def qrelAction : Action := queueAction 1 0 false noQueueEffect (fun _ _ => .release)

def qflushAction (merged : Bool) : Action := queueAction 1 0 false noQueueEffect (fun _ _ => .flush merged)

/-- QRES (R97). -/
def execQres (c : CoreId) (s : State) : Host.Outcome State Fault Refusal := .next (issue c { code := [0x88], act := notWarden qresAction } s)

/-- QCOMMIT (R97, R196). -/
def execQcommit (c : CoreId) (s : State) : Host.Outcome State Fault Refusal := .next (issue c { code := [0x8A], act := notWarden qcommitAction } s)

/-- QPOP (R97, R99): `q.same` says that a COMMIT reaches the queue in the same ic; it is then the next operation on the queue. -/
def execQpop (q : QueueIssue) (s : State) : Host.Outcome State Fault Refusal :=
  .next (issue q.core { code := [0x8B], act := notWarden (qpopAction q.same) } s)

/-- QREL (R97). -/
def execQrel (c : CoreId) (s : State) : Host.Outcome State Fault Refusal := .next (issue c { code := [0x8C], act := notWarden qrelAction } s)

/-- QFLUSH (R100): `q.same` says that the queue's latest flush came in the same ic (Table 3.17). -/
def execQflush (q : QueueIssue) (s : State) : Host.Outcome State Fault Refusal :=
  .next (issue q.core { code := [0x8D], act := notWarden (qflushAction q.same) } s)

end Sys2Proof.Machine
end

