-- ==== Sys2Proof/Machine/EfmarLong.lean ====
section
/-! DEFINITION. The resumable long instructions BMOVE, BFILL, CRC64, STM and LDM, one element to a command, and QWR (R204 to R209, R214,
R216, R245). -/

namespace Sys2Proof.Machine

/-! ## Checks and reads of an element -/

/-- Go on with what a check gives. -/
def State.checked {α β : Type} (s : State) (k : Nat) (c : Chk α) (f : α → Res β) : Res β :=
  match c with
  | .exc e => .exc e s
  | .pending t => .wait (.tag t) s
  | .owed i b => .wait .other (s.owe k i b)
  | .ok a => f a

/-- The deferred-data error of an instruction that reads without a tag (Table 12.3). -/
def State.readDe (s : State) (k r cause : Nat) (ps : List Piece) : ExcReport :=
  { desc := dDE, finfo := place 63 8 (s.ctx k r).pc.toNat ||| place 7 4 cause, faddr := BitVec.ofNat 64 (piecesEa ps) }

/-- The CAUSE that an earlier attempt at this read met in one of its host lines (R327). -/
def Ctx.metBad (x : Ctx) (ps : List Piece) : Option Nat :=
  match x.readBad with
  | some (l, c) => if (hostParts ps).any (fun p => (hostLines p.1 p.2).contains l) then some c else none
  | none => none

/-- A read of a side-effect page: its data once they are there; the read is sent once (R272). -/
def State.readSe (s : State) (k r : Nat) (ps : List Piece) (a n : Nat) : Res (List Byte) :=
  match (s.ctx k r).seRead with
  | some (_, some d) => .ok (d.take n) (s.modCtx k r (fun x => { x with seRead := none }))
  | some (_, none) => .wait .host s
  | none =>
    if s.seOlder k then .wait .drain s
    else .wait .host ((s.modCtx k r (fun x => { x with seRead := some (a, none) })).askThrough (.spill k r) (a / 64) (piecesSe ps))

/-- The bytes that an element reads; it waits for what is not at hand, and errors raise DE (R177, R206, R305, R327). -/
def State.readElement (s : State) (k r : Nat) (ps : List Piece) : Res (List Byte) :=
  match (s.ctx k r).metBad ps with
  | some c => .exc (s.readDe k r c ps) (s.modCtx k r (fun x => { x with readBad := none }))
  | none =>
    let s := s.modCtx k r (fun x => { x with readBad := none })
    match if piecesSe ps then Fwd.none else s.forward k ps with
    | .all b => .ok b s
    | .part => .wait .drain s
    | .none =>
      if s.goneMem ps then .exc (s.readDe k r 2 ps) s
      else match s.badPiece ps with
        | some a => .exc (s.readDe k r 5 ps) (s.eccUnc a)
        | none =>
          match firstPlace ps, piecesSe ps with
          | .host a, true => s.readSe k r ps a ((ps.map (fun p => p.len)).foldl (· + ·) 0)
          | .ctl o, _ =>
            if s.seOlder k then .wait .drain s
            else
              let q := s.ctlRead (coreParty k (s.ctx k r).sysctl) o (coreAccess o ((ps.map (fun p => p.len)).foldl (· + ·) 0))
              .ok (padTo ((ps.map (fun p => p.len)).foldl (· + ·) 0) (wordBytes q.1)) q.2
          | _, _ =>
            match s.placesBytes (ps.map (fun p => (p.place, p.len))) with
            | some b => .ok b (s.wakeFor ps)
            | none => .wait .host (s.askPlaces (ps.map (fun p => (p.place, p.len))) (.spill k r))

/-- The pages of an element of BMOVE, BFILL or CRC64, which reaches no side-effect page (R205, R216). -/
def State.elementPages {α : Type} (s : State) (k r seg : Nat) (c : Cap) (a : AKind) (ea n : Nat) (f : List Piece → Res α) : Res α :=
  s.checked k (s.checkPages k (s.ctx k r) c seg a ea n) (fun ps => if piecesSe ps then .exc (plainReport dAC) s else f ps)

/-- Length of the first element of `n` bytes at effective address `ea`, and of the last (R204). -/
def headLen (ea n : Nat) : Nat := min n (16 - ea % 16)
def tailLen (ea n : Nat) : Nat := min n (if (ea + n) % 16 = 0 then 16 else (ea + n) % 16)

/-- The element is done: the instruction completes with the stack as `fin` leaves it, or it stands before the next element (R207). -/
def elementDone (k r : Nat) (last : Bool) (n : Nat) (push fin : List Word) (s : State) : Res Flow :=
  if last then doneIn (s.modCtx k r (fun x => { x.replace n (fin.map Slot.val) with backward := none }))
  else .wait .element (s.modCtx k r (fun x => x.replace n (push.map Slot.val)))

/-! ## BMOVE, BFILL, CRC64 -/

/-- The destination can hold a tag (R251, R252). -/
def State.takesTag (s : State) (ps : List Piece) : Bool :=
  match firstPlace ps with
  | .mem _ => true
  | .host a => s.inTagRegion a 16
  | _ => false

/-- The tag that an element of BMOVE moves with its granule, where both segments have C and both pieces are whole granules (Table 10.14,
log entry 142); else the destination's tag is cleared. -/
def State.moveTag (s : State) (k r : Nat) (whole : Bool) (ps pd : List Piece) : Res (Option Bool) :=
  if !whole then .ok none s
  else if s.forward k ps != .none then .wait .drain s
  else match s.placeTag (firstPlace ps), firstPlace ps with
    | some t, _ => .ok (if t && s.takesTag pd then some true else none) s
    | none, .host a => .wait .host (s.askHost (s.tagSpot a).1 1 (.spill k r))
    | none, _ => .ok none s

/-- One element of BMOVE: `back` its direction, `de` and `se` the effective addresses of the ranges. -/
def State.moveElement (s : State) (k r d q : Nat) (cd cs : Cap) (de se n : Nat) (back : Bool) (dst src : Word) : Res Flow :=
  let e := if back then tailLen de n else headLen de n
  let skip := if back then n - e else 0
  s.elementPages k r d cd .store (de + skip) e (fun pd =>
    s.elementPages k r q cs .load (se + skip) e (fun ps =>
      (s.readElement k r ps).bind (fun b s =>
        (s.moveTag k r (cd.c && cs.c && e == 16 && (de + skip) % 16 == 0 && (se + skip) % 16 == 0) ps pd).bind (fun t s =>
          (s.putStore k r pd b t).bind (fun _ s =>
            let adv := if back then 0 else BitVec.ofNat 64 e
            elementDone k r (n == e) 3 [BitVec.ofNat 64 (n - e), src + adv, dst + adv] []
              (s.modCtx k r (fun x => { x with backward := some back })))))))

/-- The direction: fixed while the instruction runs, taken from the operands when it issues again (R206, R208). -/
def Ctx.moveBack (x : Ctx) (de se n : Nat) : Bool := x.backward.getD (decide (se < de ∧ de < se + n))

def bmoveAction (d q : Nat) : Action := fun k r s =>
  (s.operands 3 k r 0).bind (fun vs s =>
    let n := (vs.getD 0 0).toNat
    let src := vs.getD 1 0
    let dst := vs.getD 2 0
    if n = 0 then doneIn (s.modCtx k r (fun x => x.replace 3 []))
    else
      s.checked k ((s.ctx k r).checkCap d .store dst.toNat n 1 false) (fun cd =>
        s.checked k ((s.ctx k r).checkCap q .load src.toNat n 1 false) (fun cs =>
          s.moveElement k r d q cd.1 cs.1 cd.2 cs.2 n ((s.ctx k r).moveBack cd.2 cs.2 n) dst src)))

/-- BMOVE (R204, R208): ( dst src n -- ). -/
def execBmove (c : CoreId) (imm : BitVec 8) (s : State) : Host.Outcome State Fault Refusal :=
  .next (issue c { code := [0x81, imm], act := legal (immOk imm) (bmoveAction (immHi imm) (immLo imm)) } s)

/-- The immediate of BFILL and CRC64: a segment, bits 7:4 zero (R204). -/
def oneSeg (i : BitVec 8) : Bool := decide (i.toNat < 8)

def bfillAction (q : Nat) : Action := fun k r s =>
  (s.operands 3 k r 0).bind (fun vs s =>
    let n := (vs.getD 0 0).toNat
    let v := vs.getD 1 0
    let off := vs.getD 2 0
    if n = 0 then doneIn (s.modCtx k r (fun x => x.replace 3 []))
    else
      s.checked k ((s.ctx k r).checkCap q .store off.toNat n 1 false) (fun c =>
        let e := headLen c.2 n
        s.elementPages k r q c.1 .store c.2 e (fun ps =>
          (s.putStore k r ps (List.replicate e (v.setWidth 8)) none).bind (fun _ s =>
            elementDone k r (n == e) 3 [BitVec.ofNat 64 (n - e), v, off + BitVec.ofNat 64 e] [] s))))

/-- BFILL (R204): ( off x n -- ). -/
def execBfill (c : CoreId) (imm : BitVec 8) (s : State) : Host.Outcome State Fault Refusal :=
  .next (issue c { code := [0x82, imm], act := legal (oneSeg imm) (bfillAction (immLo imm)) } s)

/-- The running CRC after some bytes (R204). -/
def crcOver (crc : Word) (b : List Byte) : Word := b.foldl crc64Byte crc

def crc64Action (q : Nat) : Action := fun k r s =>
  (s.operands 3 k r 0).bind (fun vs s =>
    let n := (vs.getD 0 0).toNat
    let off := vs.getD 1 0
    let crc := vs.getD 2 0
    if n = 0 then doneIn (s.modCtx k r (fun x => x.replace 3 [.val crc]))
    else
      s.checked k ((s.ctx k r).checkCap q .load off.toNat n 1 false) (fun c =>
        let e := headLen c.2 n
        s.elementPages k r q c.1 .load c.2 e (fun ps =>
          (s.readElement k r ps).bind (fun b s =>
            elementDone k r (n == e) 3 [BitVec.ofNat 64 (n - e), off + BitVec.ofNat 64 e, crcOver crc b] [crcOver crc b] s))))

/-- CRC64 (R204): ( crc off n -- crc' ). -/
def execCrc64 (c : CoreId) (imm : BitVec 8) (s : State) : Host.Outcome State Fault Refusal :=
  .next (issue c { code := [0x83, imm], act := legal (oneSeg imm) (crc64Action (immLo imm)) } s)

/-! ## STM and LDM (R209, R245) -/

/-- Set bits of a mask, ascending. -/
def maskBits (m : BitVec 16) : List Nat := (List.range 16).filter (fun i => m.getLsbD i)

/-- The first position not yet done, with its rank among the set bits. -/
def nextBit (m done : BitVec 16) : Option (Nat × Nat) := ((maskBits m).zipIdx).find? (fun e => !done.getLsbD e.1)

/-- The offset and the length of the range that a mask spans (R205). -/
def maskSpan (m : BitVec 16) : Nat × Nat :=
  let lo := (maskBits m).headD 0
  (8 * lo, 8 * ((maskBits m).getLastD 0 + 1 - lo))

/-- The pieces of word `i` of an STM or LDM at offset `off`, after the bounds, rights and alignment of the whole span. -/
def State.wordPieces {α : Type} (s : State) (k r : Nat) (a : AKind) (m : BitVec 16) (off : Word) (i : Nat) (f : List Piece → Res α) : Res α :=
  let seg := s.dataSeg k
  let sp := maskSpan m
  s.checked k ((s.ctx k r).checkCap seg a (off.toNat + sp.1) sp.2 8 false) (fun c =>
    s.checked k (s.checkPages k (s.ctx k r) c.1 seg a (c.2 + (8 * i - sp.1)) 8) f)

/-- The bit of a position. -/
def maskBit (i : Nat) : BitVec 16 := BitVec.ofNat 16 (2 ^ i)

/-- The next word of the progress, or the completion (R207). -/
def stmAction (m : BitVec 16) : Action := fun k r s =>
  let n := (maskBits m).length
  (s.operands (n + 1) k r 0).bind (fun vs s =>
    let fin := fun (s : State) => doneIn (s.modCtx k r (fun x => { x.replace (n + 1) [] with mprog := 0 }))
    match nextBit m (s.ctx k r).mprog with
    | none => fin s
    | some (i, j) =>
      s.wordPieces k r .store m (vs.getD 0 0) i (fun ps =>
        (s.putStore k r ps (wordBytes (vs.getD (n - j) 0)) none).bind (fun _ s =>
          let done := (s.ctx k r).mprog ||| maskBit i
          if (nextBit m done).isNone then fin s else .wait .element (s.modCtx k r (fun x => { x with mprog := done })))))

/-- STM (R209): ( x1 … xk off -- ). -/
def execStm (c : CoreId) (m : BitVec 16) (s : State) : Host.Outcome State Fault Refusal :=
  .next (issue c { code := 0x84 :: leBytes 2 m.toNat, segOk := true, act := stmAction m } s)

def ldmAction (m : BitVec 16) : Action := fun k r s =>
  let n := (maskBits m).length
  (s.operand k r 0).bind (fun off s =>
    (s.room k r 1 n).bind (fun _ s =>
      let fin := fun (ws : List Word) (s : State) =>
        doneIn (s.modCtx k r (fun x => { x.replace 1 (ws.reverse.map Slot.val) with mprog := 0, mbuf := [] }))
      match nextBit m (s.ctx k r).mprog with
      | none => fin ((s.ctx k r).mbuf.take n) s
      | some (i, j) =>
        s.wordPieces k r .load m off i (fun ps =>
          (s.readElement k r ps).bind (fun b s =>
            let x := s.ctx k r
            let done := x.mprog ||| maskBit i
            let ws := x.mbuf.take j ++ [bytesWord b]
            if (nextBit m done).isNone then fin ws s
            else .wait .element (s.modCtx k r (fun x => { x with mprog := done, mbuf := ws }))))))

/-- LDM (R209): ( off -- x1 … xk ). -/
def execLdm (c : CoreId) (m : BitVec 16) (s : State) : Host.Outcome State Fault Refusal :=
  .next (issue c { code := 0x85 :: leBytes 2 m.toNat, segOk := true, act := ldmAction m } s)

/-! ## QWR (R196, R214) -/

/-- A QWR without authority: the producer's next QCOMMIT on the queue answers NOAUTH and voids its staged item (R196). -/
def State.qDenied (s : State) (n q : Nat) (o : QOwner) : State :=
  s.modQueue n q (fun x => if (x.stagedOf o).isSome
    then { x with staged := x.staged.map (fun (t : Staged) => if t.owner == o then { t with noauth := true } else t) }
    else if x.denied.contains o then x else { x with denied := x.denied ++ [o] })

/-- The 32 bytes go to word `i` of the staged item of `qid`. -/
def State.queueWrite (s : State) (k r : Nat) (c : Cap) (qid i : Nat) (b : List Byte) : State :=
  let n := qid / 1024
  let q := qid % 1024
  if 65536 ≤ qid then s
  else if !c.queueAuth true qid then s.qDenied n q (.ctx k r)
  else if s.qAbsent n q then s
  else if (s.shelf n).phase = .gated then s.holdOp n { q := q, owner := .ctx k r, op := .write i b }
  else s.qWrite n q (.ctx k r) i b

def qwrAction : Action := fun k r s =>
  (s.operands 3 k r 0).bind (fun vs s =>
    (s.segVal k r segX1).bind (fun c s =>
      s.access k r .load (vs.getD 2 0).toNat 32 32 false (fun ps s =>
        (s.readElement k r ps).bind (fun b s =>
          doneIn ((s.queueWrite k r c (vs.getD 0 0).toNat (vs.getD 1 0).toNat b).modCtx k r (fun x => x.replace 3 []))))))

/-- QWR (R214): ( off i qid -- ). -/
def execQwr (c : CoreId) (s : State) : Host.Outcome State Fault Refusal :=
  .next (issue c { code := [0x89], segOk := true, act := notWarden qwrAction } s)

end Sys2Proof.Machine
end

