-- ==== Sys2Proof/Machine/EfmarLedger.lean ====
section
/-! DEFINITION. The ledger instructions LEDOPEN, LEDSET, LEDRD (Tables 2.6, 2.7; R44 to R54, R66, R197) and the global instructions GBAR,
GRED, GBCAST, GRECV (R129, R130, R198). -/

namespace Sys2Proof.Machine

/-! ## Ranges of memory that a unit reads or writes for an instruction -/

/-- The pages of a range, one after the other. -/
def State.checkRange : Nat → State → Nat → Ctx → Cap → AKind → Nat → Nat → Chk (List Piece)
  | 0, _, _, _, _, _, _, _ => .ok []
  | f + 1, s, k, x, c, a, ea, n =>
    if n = 0 then .ok []
    else
      let m := min n (4096 - ea % 4096)
      match s.checkPage k x c segD a ea m m with
      | .exc e => .exc e
      | .pending t => .pending t
      | .owed i b => .owed i b
      | .ok p =>
        match State.checkRange f s k x c a (ea + m) (n - m) with
        | .ok q => .ok (p :: q)
        | e => e

/-- The check of `n` bytes at offset `off` of seg.d. No range goes beyond 8,192 bytes; one of side-effect pages is one naturally aligned
access of at most 64 bytes. -/
def State.checkBlock (s : State) (k r : Nat) (a : AKind) (off n : Nat) : Chk (List Piece) :=
  match (s.ctx k r).checkCap segD a off n 1 false with
  | .exc e => .exc e
  | .pending t => .pending t
  | .owed i b => .owed i b
  | .ok (c, ea) =>
    match State.checkRange 4 s k (s.ctx k r) c a ea n with
    | .ok ps => if piecesSe ps ∧ (64 < n ∨ 1 < ps.length) then .exc (plainReport dAC) else .ok ps
    | e => e

/-! ## LEDOPEN -/

/-- A result with a TXN and a status code of Table 2.7. -/
def State.ledRes (s : State) (t : TagRef) (txn st : Nat) : State := s.tagDone t (.pair (BitVec.ofNat 64 txn) (BitVec.ofNat 64 st))

/-- A field that an image must leave reserved is not zero (Table 2.1). -/
def reservedSet (w : List Word) : Bool :=
  fld (w.getD 0 0) 63 60 != 0 || fld (w.getD 0 0) 55 54 != 0 || fld (w.getD 3 0) 63 56 != 0
    || fld (w.getD 7 0) 47 32 != 0 || fld (w.getD 7 0) 23 20 != 0

/-- The image of a transaction that LEDOPEN refuses as BADIMAGE (Table 2.7). -/
def badImage (w : List Word) (e : Entry) : Bool :=
  e.npkt == 0 || decide (e.npkt.toNat * 8192 < e.bytes.toNat) || e.ownw != 0 || reservedSet w

/-- A context owns a stream record (R44). -/
def ownsStream (ctx : BitVec 20) (e : Entry) : Bool := ctx.toNat / 2 ^ e.ownw.toNat == e.ctx.toNat / 2 ^ e.ownw.toNat

/-- The ORIGIN entry that an image opens on record `e`: SEQFIRST is NEXTOUT, CTX the issuer (Table 2.6). -/
def originEntry (old im e : Entry) (ctx : BitVec 20) : Entry :=
  { role := .origin, st := .opened, eflags := im.eflags, gen := old.gen + 1, localEp := im.localEp, keySlot := im.keySlot,
    stream := im.stream, partner := im.partner, npkt := im.npkt, seqFirst := e.seqFirst, ackSeq := e.seqFirst - 1,
    grant := im.grant, bytes := im.bytes, cring := im.cring, sring := im.sring, ctx := ctx }

/-- NEXTOUT of a record after `n` more packets passes its limit (R45). -/
def seqEnds (e : Entry) (n : Nat) : Bool := decide (2 ^ 48 ≤ e.seqFirst.toNat + n)

/-- Open a transaction on a stream of the unit of shelf `u`: the entry and the record in one commit (R54, R66). -/
def State.openTxn (s : State) (u : Nat) (ctx : BitVec 20) (im : Entry) (t : TagRef) : State :=
  match s.findStream u true im.partner.toNat im.localEp.toNat im.stream.toNat with
  | none => s.ledRes t 0 2
  | some (rr, ri) =>
    let e := s.entNext rr ri
    if (s.svol rr ri).closing || e.st != .opened then s.ledRes t 0 2
    else if !ownsStream ctx e then s.ledRes t 0 5
    else if (s.svol rr ri).seqEnd || seqEnds e im.npkt.toNat then (s.modSvol rr ri (fun v => { v with seqEnd := true })).ledRes t 0 4
    else match s.freeEntry u .origin with
      | none => s.ledRes t 0 1
      | some i =>
        let o := originEntry (s.entNext u i) im e ctx
        ledRun s [.commit u [{ region := u, idx := i, entry := o },
          { region := rr, idx := ri, entry := { e with seqFirst := e.seqFirst + BitVec.ofNat 48 im.npkt.toNat } }]
          [(t, .pair (BitVec.ofNat 64 (txnOf u i o.gen.toNat)) 0)] none 0]

/-- The stream record that an image with ROLE STREAM opens: NEXTOUT is the image's first SEQ, NEXTIN a free value, as the origin's end has
none (R44). -/
def originRecord (old im : Entry) (ctx : BitVec 20) (nextIn : Word) : Entry :=
  { role := .stream, st := .opened, gen := old.gen + 1, ownw := im.ownw, localEp := im.localEp, keySlot := im.keySlot, stream := im.stream,
    partner := im.partner, seqFirst := im.seqFirst, ackSeq := nextIn.setWidth 48, grant := im.grant, cring := im.cring, sring := im.sring,
    ctx := ctx }

/-- Open the origin's end of a stream; its commit sends STREAM-OPEN (R44). The spec gives no other request for it: DESIGN CHOICE. -/
def State.openStream (s : State) (u : Nat) (ctx : BitVec 20) (im : Entry) (t : TagRef) : State :=
  match (s.ledRegions u).findSome? (fun r => s.openIn (s.ledView r) r true im.partner.toNat im.localEp.toNat im.stream.toNat) with
  | some _ => s.ledRes t 0 2
  | none =>
    match s.freeEntry u .stream with
    | none => s.ledRes t 0 1
    | some i =>
      let e := originRecord (s.entNext u i) im ctx s.free
      ledRun (s.drawn.setSvol u i { origin := true }) [.commit u [{ region := u, idx := i, entry := e }]
        [(t, .pair (BitVec.ofNat 64 (txnOf u i e.gen.toNat)) 0)] none 0]

/-- LEDOPEN of an image by a context of shelf `u`. -/
def State.ledOpen (s : State) (u : Nat) (ctx : BitVec 20) (w : List Word) (t : TagRef) : State :=
  let im := entryOf w
  if im.role = .stream then
    (if reservedSet w ∨ im.npkt ≠ 0 then s.ledRes t 0 6 else s.openStream u ctx im t)
  else if badImage w im then s.ledRes t 0 6
  else s.openTxn u ctx im t

def ledopenAction : Action := fun k r s =>
  let u := keyShelf k
  (s.operand k r 0).bind (fun off s =>
    (s.room k r 1 2).bind (fun _ s =>
      (s.takeTags k r 2).bind (fun _ s =>
        match s.checkBlock k r .load off.toNat 64 with
        | .exc e => if e.desc = dDE then .exc e s else tagged2 1 (fun _ t s => s.ledRes t 0 5) k r s
        | .pending t => .wait (.tag t) s
        | .owed i b => .wait .other (s.owe k i b)
        | .ok ps => (s.readElement k r ps).bind (fun b s =>
            tagged2 1 (fun _ t s => s.ledOpen u (s.ctx k r).ctx (toWords 8 b) t) k r s))))

/-- LEDOPEN (R54, R197): ( image -- txn st ). -/
def execLedopen (c : CoreId) (s : State) : Host.Outcome State Fault Refusal :=
  .next (issue c { code := [0x90], act := notWarden ledopenAction } s)

/-! ## LEDSET -/

/-- The entry that a TXN names at the unit of shelf `u`, once the commits in flight have landed (R49, R66). -/
def State.named (s : State) (u : Nat) (txn : Word) : Option (Nat × Nat × Entry) :=
  let r := txnShelf txn.toNat
  let i := txnIdx txn.toNat
  let e := s.entNext r i
  if txn.toNat < 2 ^ 48 ∧ (s.ledRegions u).contains r ∧ e.gen.toNat = txnGen txn.toNat then some (r, i, e) else none

/-- A status of Table 2.7. -/
def State.setRes (s : State) (t : TagRef) (st : Nat) : State := s.tagDone t (.value (BitVec.ofNat 64 st) 0)

/-- Commit one new image for an instruction. -/
def State.setEntryTo (s : State) (u r i : Nat) (e : Entry) (t : TagRef) : State :=
  ledRun s [.commit u [{ region := r, idx := i, entry := e }] [(t, .value 0 0)] none 0]

/-- A link port has accepted every packet of the entry whole (Table 2.4). -/
def EntryVol.allHanded (v : EntryVol) (e : Entry) : Bool :=
  (List.range e.npkt.toNat).all (fun j => v.handed.contains (e.seqFirst + BitVec.ofNat 48 j))

/-- TARGET OPEN to DATA-DONE: BADSTATE before the LAST packet, and while a packet waits for its RECEIVE ring (R87); held while an earlier entry of the stream is OPEN (R51, Table 2.11). -/
def State.setTargetDone (s : State) (u r i : Nat) (e : Entry) (t : TagRef) : State :=
  match s.findStream u false e.partner.toNat e.localEp.toNat e.stream.toNat, (s.vol r i).lastSeq with
  | some (rr, ri), some _ =>
    if (s.vol r i).heldSet.isSome ∨ s.rxBusy e.sring.toNat r i = true ∨ s.payloadBusy u r i = true then s.setRes t 2
    else if s.earlierDone u (s.entNext rr ri) e then ledRun s [.commit u (s.dataDoneImages r i rr ri) [(t, .value 0 0)] none 0]
    else s.modVol r i (fun v => { v with heldSet := some t })
  | _, _ => s.setRes t 2

/-- STREAM OPEN to RETIRED at the origin's end: the owner's STREAM-CLOSE (Tables 2.4, 2.11). -/
def State.setClosed (s : State) (u r i : Nat) (ctx : BitVec 20) (e : Entry) (t : TagRef) : State :=
  if !(s.svol r i).origin || (s.svol r i).closing || (s.streamEntries u true e).any (fun x => x.2.2.st.holdsStream) then s.setRes t 2
  else if !ownsStream ctx e then s.setRes t 5
  else s.setEntryTo u r i { e with st := .retired } t

/-- LEDSET: a transition that Table 2.4 leaves to LEDSET, else BADSTATE (R51). -/
def State.ledSet (s : State) (u : Nat) (ctx : BitVec 20) (txn st : Word) (t : TagRef) : State :=
  match s.named u txn with
  | none => s.setRes t 3
  | some (r, i, e) =>
    match e.role, e.st, ledStOf st.toNat with
    | .origin, .opened, some .issued => s.setEntryTo u r i { e with st := .issued } t
    | .origin, .issued, some .dataDone =>
      if (s.vol r i).allHanded e then s.setEntryTo u r i { e with st := .dataDone } t else s.setRes t 2
    | .target, .opened, some .dataDone => s.setTargetDone u r i e t
    | .stream, .opened, some .retired => s.setClosed u r i ctx e t
    | _, _, _ => s.setRes t 2

def ledsetAction : Action := fun k r s =>
  tagged 2 false (fun vs t s => s.ledSet (keyShelf k) (s.ctx k r).ctx (vs.getD 1 0) (vs.getD 0 0) t) k r s

/-- LEDSET (R51, R197): ( txn state -- st ). -/
def execLedset (c : CoreId) (s : State) : Host.Outcome State Fault Refusal :=
  .next (issue c { code := [0x91], act := notWarden ledsetAction } s)

/-! ## LEDRD -/

/-- The word of the local copy, or 0 (R197). -/
def State.ledRead (s : State) (u : Nat) (txn off : Word) : Word :=
  let r := txnShelf txn.toNat
  let i := txnIdx txn.toNat
  let e := s.ent r i
  if txn.toNat < 2 ^ 48 ∧ (s.ledRegions u).contains r ∧ e.gen.toNat = txnGen txn.toNat ∧ off.toNat ≤ 0x38 ∧ off.toNat % 8 = 0 then
    (e.words r i).getD (off.toNat / 8) 0
  else 0

def ledrdAction : Action := fun k r s =>
  tagged 2 false (fun vs t s => s.tagDone t (.value (s.ledRead (keyShelf k) (vs.getD 1 0) (vs.getD 0 0)) 0)) k r s

/-- LEDRD (R197): ( txn offset -- v ). -/
def execLedrd (c : CoreId) (s : State) : Host.Outcome State Fault Refusal :=
  .next (issue c { code := [0x92], act := notWarden ledrdAction } s)

/-! ## GBAR and GRED -/

/-- BADARG of Table 7.7's global instructions (R198). -/
def badArg : Word := 4

def gbarAction : Action := tagged 1 false (fun vs t s =>
  let n := (vs.getD 0 0).toNat
  if 15 < n then s.tagDone t (.value badArg 0) else s.contribute n false { tag := t, value := 0, op := 256 })

/-- GBAR (R129, R198): ( t -- st ). -/
def execGbar (c : CoreId) (s : State) : Host.Outcome State Fault Refusal :=
  .next (issue c { code := [0x94], act := notWarden gbarAction } s)

def gredAction (op : Nat) : Action := tagged2 2 (fun vs t s =>
  let n := (vs.getD 0 0).toNat
  if 15 < n then s.tagDone t (.pair 0 badArg) else s.contribute n true { tag := t, value := vs.getD 1 0, op := op })

/-- GRED (R129, R198): ( v t -- r st ); an op above 4 is illegal. -/
def execGred (c : CoreId) (op : BitVec 8) (s : State) : Host.Outcome State Fault Refusal :=
  .next (issue c { code := [0x95, op], act := notWarden (legal (decide (op.toNat ≤ 4)) (gredAction op.toNat)) } s)

/-! ## GBCAST and GRECV -/

/-- Start a broadcast at the root: the root is the first device on which it completes (R130). -/
def State.broadcast (s : State) (n : Nat) (b : List Byte) : State :=
  let g := s.gop n
  let inst := if g.status = 0 then g.inst else g.inst + 1
  (s.gotBroadcast n inst b).sendDown 0x22 n inst.toNat b

def gbcastAction : Action := fun k r s =>
  (s.operands 3 k r 0).bind (fun vs s =>
    let n := (vs.getD 0 0).toNat
    let len := (vs.getD 1 0).toNat
    let off := (vs.getD 2 0).toNat
    let answer := fun (st : Word) (s : State) => tagged 3 false (fun _ t s => s.tagDone t (.value st 0)) k r s
    if 15 < n ∨ 8192 < len then answer badArg s
    else if s.sys.root = false then answer 3 s
    else if (s.gop n).status = 1 then answer 2 s
    else (s.takeTags k r 1).bind (fun _ s =>
      let send := fun (b : List Byte) (s : State) => tagged 3 false (fun _ t s => (s.broadcast n b).tagDone t (.value 0 0)) k r s
      if len = 0 then send [] s
      else s.checked k (s.checkBlock k r .load off len) (fun ps => (s.readElement k r ps).bind send)))

/-- GBCAST (R130, R198): ( off len t -- st ). -/
def execGbcast (c : CoreId) (s : State) : Host.Outcome State Fault Refusal :=
  .next (issue c { code := [0x96], act := notWarden gbcastAction } s)

/-- A piece of a GRECV's memory: its address, from 2^60 on in host memory, and its length. -/
def Piece.key (p : Piece) : Nat × Nat :=
  match p.place with
  | .mem a => (a, p.len)
  | .host a => (2 ^ 60 + a, p.len)
  | _ => (0, 0)

/-- GRECV: the range checked is that of the payload that it takes at once, else the longest that may come. -/
def grecvAction : Action := fun k r s =>
  (s.operands 2 k r 0).bind (fun vs s =>
    let n := (vs.getD 0 0).toNat
    let off := (vs.getD 1 0).toNat
    let x := s.ctx k r
    let vmid := BitVec.ofNat 12 (xlatVmid x.xlat)
    let go := fun (ps : List Piece) (s : State) => tagged 2 false (fun _ t s => s.receive n t vmid (ps.map Piece.key)) k r s
    if 15 < n then tagged 2 false (fun _ t s => s.tagDone t (.value badArg 0)) k r s
    else if (s.gop n).status = 3 then go [] s
    else
      let len := match (s.gop n).untaken with | some b => b.length | none => 8192
      if len = 0 then go [] s
      else s.checked k (s.checkBlock k r .store off len) (fun ps =>
        if piecesSe ps then .exc (plainReport dAC) s
        else if s.mustDrain k ps then .wait .drain s
        else go ps s))

/-- GRECV (R198): ( off t -- len ). -/
def execGrecv (c : CoreId) (s : State) : Host.Outcome State Fault Refusal :=
  .next (issue c { code := [0x97], act := notWarden grecvAction } s)

end Sys2Proof.Machine
end

