-- ==== Sys2Proof/Machine/Dispatch.lean ====
section
/-! DEFINITION. The dispatch of a command to its meaning: one arm for each constructor of `Instr`. -/

namespace Sys2Proof.Machine

/-- The effect of a command on everything but the queue. -/
def exec (i : Instr) (s : State) : Host.Outcome State Fault Refusal :=
  match i with
  | .controlRegisterWrite who off acc v hwMask hwVal => Sys2Proof.Machine.execControlRegisterWrite who off acc v hwMask hwVal s
  | .flueMessage dst => Sys2Proof.Machine.execFlueMessage dst s
  | .notPresent src => Sys2Proof.Machine.execNotPresent src s
  | .shelfRetire r => Sys2Proof.Machine.execShelfRetire r s
  | .linkRehome l => Sys2Proof.Machine.execLinkRehome l s
  | .linkReturn l => Sys2Proof.Machine.execLinkReturn l s
  | .ledopen c => Sys2Proof.Machine.execLedopen c s
  | .ledset c => Sys2Proof.Machine.execLedset c s
  | .ledrd c => Sys2Proof.Machine.execLedrd c s
  | .prepare n echkOk => Sys2Proof.Machine.execPrepare n echkOk s
  | .prepared n => Sys2Proof.Machine.execPrepared n s
  | .resend n => Sys2Proof.Machine.execResend n s
  | .commit n => Sys2Proof.Machine.execCommit n s
  | .mirrorResyncDone n => Sys2Proof.Machine.execMirrorResyncDone n s
  | .shLedfbWrite who n v => Sys2Proof.Machine.execShLedfbWrite who n v s
  | .shLedcfgWrite who n v => Sys2Proof.Machine.execShLedcfgWrite who n v s
  | .data l => Sys2Proof.Machine.execData l s
  | .request l => Sys2Proof.Machine.execRequest l s
  | .programCommand l => Sys2Proof.Machine.execProgramCommand l s
  | .packetForward l => Sys2Proof.Machine.execPacketForward l s
  | .ack l => Sys2Proof.Machine.execAck l s
  | .nakGap l => Sys2Proof.Machine.execNakGap l s
  | .nakClosed l => Sys2Proof.Machine.execNakClosed l s
  | .streamOpen l => Sys2Proof.Machine.execStreamOpen l s
  | .streamClose l => Sys2Proof.Machine.execStreamClose l s
  | .streamQuery l => Sys2Proof.Machine.execStreamQuery l s
  | .streamState l => Sys2Proof.Machine.execStreamState l s
  | .epclose l dev ep => Sys2Proof.Machine.execEpclose l dev ep s
  | .ackTimeout n ix => Sys2Proof.Machine.execAckTimeout n ix s
  | .deadlineExpiry n ix => Sys2Proof.Machine.execDeadlineExpiry n ix s
  | .targetIdleTimeout n ix => Sys2Proof.Machine.execTargetIdleTimeout n ix s
  | .completionWriteAck r => Sys2Proof.Machine.execCompletionWriteAck r s
  | .ringEventTimer r => Sys2Proof.Machine.execRingEventTimer r s
  | .ledgerAdopt n => Sys2Proof.Machine.execLedgerAdopt n s
  | .adoptionEnd n => Sys2Proof.Machine.execAdoptionEnd n s
  | .submitSlotFetch r slots => Sys2Proof.Machine.execSubmitSlotFetch r slots s
  | .doorbell p r v => Sys2Proof.Machine.execDoorbell p r v s
  | .heldNoticeCommit r => Sys2Proof.Machine.execHeldNoticeCommit r s
  | .ringEnable who r reserved => Sys2Proof.Machine.execRingEnable who r reserved s
  | .ringDisable who r => Sys2Proof.Machine.execRingDisable who r s
  | .ringFlush who r => Sys2Proof.Machine.execRingFlush who r s
  | .ringQuery who r => Sys2Proof.Machine.execRingQuery who r s
  | .glRingtabWrite who v => Sys2Proof.Machine.execGlRingtabWrite who v s
  | .shQflush who n w => Sys2Proof.Machine.execShQflush who n w s
  | .shQcfgWrite who n q v => Sys2Proof.Machine.execShQcfgWrite who n q v s
  | .dataFlit l flit fecOk => Sys2Proof.Machine.execDataFlit l flit fecOk s
  | .idleFlit l flit fecOk => Sys2Proof.Machine.execIdleFlit l flit fecOk s
  | .retryReq l flit fecOk => Sys2Proof.Machine.execRetryReq l flit fecOk s
  | .retryReqRepeat l => Sys2Proof.Machine.execRetryReqRepeat l s
  | .sync l flit fecOk => Sys2Proof.Machine.execSync l flit fecOk s
  | .abort l flit fecOk => Sys2Proof.Machine.execAbort l flit fecOk s
  | .flitSend l => Sys2Proof.Machine.execFlitSend l s
  | .linkEnable who l v => Sys2Proof.Machine.execLinkEnable who l v s
  | .linkDisable who l v => Sys2Proof.Machine.execLinkDisable who l v s
  | .symbolLock l => Sys2Proof.Machine.execSymbolLock l s
  | .eqDone l tx precode => Sys2Proof.Machine.execEqDone l tx precode s
  | .eqTimeout l => Sys2Proof.Machine.execEqTimeout l s
  | .lockDone l => Sys2Proof.Machine.execLockDone l s
  | .lockTimeout l => Sys2Proof.Machine.execLockTimeout l s
  | .paramExchange l p => Sys2Proof.Machine.execParamExchange l p s
  | .paramTimeout l => Sys2Proof.Machine.execParamTimeout l s
  | .retrainDone l p => Sys2Proof.Machine.execRetrainDone l p s
  | .retrainTimeout l => Sys2Proof.Machine.execRetrainTimeout l s
  | .failedTimeout l => Sys2Proof.Machine.execFailedTimeout l s
  | .lossOfSignal l => Sys2Proof.Machine.execLossOfSignal l s
  | .flitSilenceTimeout l => Sys2Proof.Machine.execFlitSilenceTimeout l s
  | .damperRelease l => Sys2Proof.Machine.execDamperRelease l s
  | .stormEnd l => Sys2Proof.Machine.execStormEnd l s
  | .partnerFetchDone n pid entry => Sys2Proof.Machine.execPartnerFetchDone n pid entry s
  | .glPartinv who v => Sys2Proof.Machine.execGlPartinv who v s
  | .probetoExpiry n pid => Sys2Proof.Machine.execProbetoExpiry n pid s
  | .plosttoExpiry n pid => Sys2Proof.Machine.execPlosttoExpiry n pid s
  | .glEpWrite who e v => Sys2Proof.Machine.execGlEpWrite who e v s
  | .elect l rootSer dist => Sys2Proof.Machine.execElect l rootSer dist s
  | .rootElectTimeout => Sys2Proof.Machine.execRootElectTimeout s
  | .discover l path => Sys2Proof.Machine.execDiscover l path s
  | .idassign l path devId => Sys2Proof.Machine.execIdassign l path devId s
  | .gbar c => Sys2Proof.Machine.execGbar c s
  | .gred c op => Sys2Proof.Machine.execGred c op s
  | .gbcast c => Sys2Proof.Machine.execGbcast c s
  | .grecv c => Sys2Proof.Machine.execGrecv c s
  | .barrier l => Sys2Proof.Machine.execBarrier l s
  | .reduce l => Sys2Proof.Machine.execReduce l s
  | .result l => Sys2Proof.Machine.execResult l s
  | .broadcast l => Sys2Proof.Machine.execBroadcast l s
  | .sysreset l => Sys2Proof.Machine.execSysreset l s
  | .glSysSysrst who v => Sys2Proof.Machine.execGlSysSysrst who v s
  | .glSysSnap who v => Sys2Proof.Machine.execGlSysSnap who v s
  | .snapshotCut => Sys2Proof.Machine.execSnapshotCut s
  | .snapshotCutWritten => Sys2Proof.Machine.execSnapshotCutWritten s
  | .snapshot l => Sys2Proof.Machine.execSnapshot l s
  | .timesyncSend => Sys2Proof.Machine.execTimesyncSend s
  | .timesync l => Sys2Proof.Machine.execTimesync l s
  | .gabort l => Sys2Proof.Machine.execGabort l s
  | .glazeDispatch n => Sys2Proof.Machine.execGlazeDispatch n s
  | .linkout n e => Sys2Proof.Machine.execLinkout n e s
  | .xtsenc n e => Sys2Proof.Machine.execXtsenc n e s
  | .xtsdec n e => Sys2Proof.Machine.execXtsdec n e s
  | .glazeOpComplete n e => Sys2Proof.Machine.execGlazeOpComplete n e s
  | .compressWaitExpiry n => Sys2Proof.Machine.execCompressWaitExpiry n s
  | .inboundGlaze l => Sys2Proof.Machine.execInboundGlaze l s
  | .keyLoad who v => Sys2Proof.Machine.execKeyLoad who v s
  | .keyErase who v => Sys2Proof.Machine.execKeyErase who v s
  | .keyQuery who v => Sys2Proof.Machine.execKeyQuery who v s
  | .keyRecordFetched record => Sys2Proof.Machine.execKeyRecordFetched record s
  | .keyFillDone n k => Sys2Proof.Machine.execKeyFillDone n k s
  | .glazeSelfTest n e => Sys2Proof.Machine.execGlazeSelfTest n e s
  | .glazeTestDone n e pass => Sys2Proof.Machine.execGlazeTestDone n e pass s
  | .shGlcfgWrite who n v => Sys2Proof.Machine.execShGlcfgWrite who n v s
  | .tagReturn c store tag => Sys2Proof.Machine.execTagReturn c store tag s
  | .waitSwitch c => Sys2Proof.Machine.execWaitSwitch c s
  | .icacheFill c => Sys2Proof.Machine.execIcacheFill c s
  | .storeDrain c => Sys2Proof.Machine.execStoreDrain c s
  | .shDetcfgCommit who n v => Sys2Proof.Machine.execShDetcfgCommit who n v s
  | .pipecfgIcinv c => Sys2Proof.Machine.execPipecfgIcinv c s
  | .nop c => Sys2Proof.Machine.execNop c s
  | .dup c => Sys2Proof.Machine.execDup c s
  | .drop c => Sys2Proof.Machine.execDrop c s
  | .swap c => Sys2Proof.Machine.execSwap c s
  | .over c => Sys2Proof.Machine.execOver c s
  | .rot c => Sys2Proof.Machine.execRot c s
  | .nip c => Sys2Proof.Machine.execNip c s
  | .tuck c => Sys2Proof.Machine.execTuck c s
  | .pick c u => Sys2Proof.Machine.execPick c u s
  | .depth c => Sys2Proof.Machine.execDepth c s
  | .rpush c => Sys2Proof.Machine.execRpush c s
  | .rpop c => Sys2Proof.Machine.execRpop c s
  | .rpeek c => Sys2Proof.Machine.execRpeek c s
  | .lit8 c x => Sys2Proof.Machine.execLit8 c x s
  | .lit16 c x => Sys2Proof.Machine.execLit16 c x s
  | .lit32 c x => Sys2Proof.Machine.execLit32 c x s
  | .lit64 c x => Sys2Proof.Machine.execLit64 c x s
  | .add c => Sys2Proof.Machine.execAdd c s
  | .sub c => Sys2Proof.Machine.execSub c s
  | .and c => Sys2Proof.Machine.execAnd c s
  | .or c => Sys2Proof.Machine.execOr c s
  | .xor c => Sys2Proof.Machine.execXor c s
  | .not c => Sys2Proof.Machine.execNot c s
  | .neg c => Sys2Proof.Machine.execNeg c s
  | .shl c => Sys2Proof.Machine.execShl c s
  | .shr c => Sys2Proof.Machine.execShr c s
  | .sar c => Sys2Proof.Machine.execSar c s
  | .rol c => Sys2Proof.Machine.execRol c s
  | .ror c => Sys2Proof.Machine.execRor c s
  | .mul c => Sys2Proof.Machine.execMul c s
  | .muls c => Sys2Proof.Machine.execMuls c s
  | .rdmph c => Sys2Proof.Machine.execRdmph c s
  | .rdmpl c => Sys2Proof.Machine.execRdmpl c s
  | .eq c => Sys2Proof.Machine.execEq c s
  | .lt c => Sys2Proof.Machine.execLt c s
  | .ltu c => Sys2Proof.Machine.execLtu c s
  | .min c => Sys2Proof.Machine.execMin c s
  | .max c => Sys2Proof.Machine.execMax c s
  | .minu c => Sys2Proof.Machine.execMinu c s
  | .maxu c => Sys2Proof.Machine.execMaxu c s
  | .sext c u => Sys2Proof.Machine.execSext c u s
  | .zext c u => Sys2Proof.Machine.execZext c u s
  | .div c => Sys2Proof.Machine.execDiv c s
  | .divu c => Sys2Proof.Machine.execDivu c s
  | .rem c => Sys2Proof.Machine.execRem c s
  | .remu c => Sys2Proof.Machine.execRemu c s
  | .popc c => Sys2Proof.Machine.execPopc c s
  | .clz c => Sys2Proof.Machine.execClz c s
  | .bswap c => Sys2Proof.Machine.execBswap c s
  | .ldb c => Sys2Proof.Machine.execLdb c s
  | .ldbs c => Sys2Proof.Machine.execLdbs c s
  | .ldh c => Sys2Proof.Machine.execLdh c s
  | .ldhs c => Sys2Proof.Machine.execLdhs c s
  | .ldw c => Sys2Proof.Machine.execLdw c s
  | .ldws c => Sys2Proof.Machine.execLdws c s
  | .ld c => Sys2Proof.Machine.execLd c s
  | .stb c => Sys2Proof.Machine.execStb c s
  | .sth c => Sys2Proof.Machine.execSth c s
  | .stw c => Sys2Proof.Machine.execStw c s
  | .st c => Sys2Proof.Machine.execSt c s
  | .cas c => Sys2Proof.Machine.execCas c s
  | .aadd c => Sys2Proof.Machine.execAadd c s
  | .aor c => Sys2Proof.Machine.execAor c s
  | .aand c => Sys2Proof.Machine.execAand c s
  | .ldc c r => Sys2Proof.Machine.execLdc c r s
  | .stc c r => Sys2Proof.Machine.execStc c r s
  | .seg c r => Sys2Proof.Machine.execSeg c r s
  | .snarrow c imm => Sys2Proof.Machine.execSnarrow c imm s
  | .scopy c imm => Sys2Proof.Machine.execScopy c imm s
  | .slock c imm => Sys2Proof.Machine.execSlock c imm s
  | .sunlock c imm => Sys2Proof.Machine.execSunlock c imm s
  | .sfield c imm => Sys2Proof.Machine.execSfield c imm s
  | .svoid c imm => Sys2Proof.Machine.execSvoid c imm s
  | .beq c d => Sys2Proof.Machine.execBeq c d s
  | .bne c d => Sys2Proof.Machine.execBne c d s
  | .blt c d => Sys2Proof.Machine.execBlt c d s
  | .bltu c d => Sys2Proof.Machine.execBltu c d s
  | .bge c d => Sys2Proof.Machine.execBge c d s
  | .bgeu c d => Sys2Proof.Machine.execBgeu c d s
  | .beqz c d => Sys2Proof.Machine.execBeqz c d s
  | .bnez c d => Sys2Proof.Machine.execBnez c d s
  | .bltz c d => Sys2Proof.Machine.execBltz c d s
  | .bgez c d => Sys2Proof.Machine.execBgez c d s
  | .bgtz c d => Sys2Proof.Machine.execBgtz c d s
  | .blez c d => Sys2Proof.Machine.execBlez c d s
  | .jmp c d => Sys2Proof.Machine.execJmp c d s
  | .jmpi c => Sys2Proof.Machine.execJmpi c s
  | .call c n d => Sys2Proof.Machine.execCall c n d s
  | .calli c n => Sys2Proof.Machine.execCalli c n s
  | .ret c => Sys2Proof.Machine.execRet c s
  | .bmove c imm => Sys2Proof.Machine.execBmove c imm s
  | .bfill c imm => Sys2Proof.Machine.execBfill c imm s
  | .crc64 c imm => Sys2Proof.Machine.execCrc64 c imm s
  | .stm c m => Sys2Proof.Machine.execStm c m s
  | .ldm c m => Sys2Proof.Machine.execLdm c m s
  | .qres c => Sys2Proof.Machine.execQres c s
  | .qwr c => Sys2Proof.Machine.execQwr c s
  | .qcommit c => Sys2Proof.Machine.execQcommit c s
  | .qpop q => Sys2Proof.Machine.execQpop q s
  | .qrel c => Sys2Proof.Machine.execQrel c s
  | .qflush q => Sys2Proof.Machine.execQflush q s
  | .rkld c => Sys2Proof.Machine.execRkld c s
  | .aese c => Sys2Proof.Machine.execAese c s
  | .aesel c => Sys2Proof.Machine.execAesel c s
  | .aesd c => Sys2Proof.Machine.execAesd c s
  | .aesdl c => Sys2Proof.Machine.execAesdl c s
  | .gqry c => Sys2Proof.Machine.execGqry c s
  | .fadd c f r => Sys2Proof.Machine.execFadd c f r s
  | .fsub c f r => Sys2Proof.Machine.execFsub c f r s
  | .fmul c f r => Sys2Proof.Machine.execFmul c f r s
  | .fdiv c f r => Sys2Proof.Machine.execFdiv c f r s
  | .fsqrt c f r => Sys2Proof.Machine.execFsqrt c f r s
  | .fmin c f r => Sys2Proof.Machine.execFmin c f r s
  | .fmax c f r => Sys2Proof.Machine.execFmax c f r s
  | .fcmp c f r => Sys2Proof.Machine.execFcmp c f r s
  | .fmovi c f r => Sys2Proof.Machine.execFmovi c f r s
  | .fmovo c f r => Sys2Proof.Machine.execFmovo c f r s
  | .fcvti c f r => Sys2Proof.Machine.execFcvti c f r s
  | .fcvtf c f r => Sys2Proof.Machine.execFcvtf c f r s
  | .fmov c f r => Sys2Proof.Machine.execFmov c f r s
  | .fneg c f r => Sys2Proof.Machine.execFneg c f r s
  | .fabs c f r => Sys2Proof.Machine.execFabs c f r s
  | .fcvt c f r => Sys2Proof.Machine.execFcvt c f r s
  | .fpHandover c => Sys2Proof.Machine.execFpHandover c s
  | .wait c wakeSameIc => Sys2Proof.Machine.execWait c wakeSameIc s
  | .yield c => Sys2Proof.Machine.execYield c s
  | .fence c => Sys2Proof.Machine.execFence c s
  | .evsync c => Sys2Proof.Machine.execEvsync c s
  | .eret c => Sys2Proof.Machine.execEret c s
  | .trap c u => Sys2Proof.Machine.execTrap c u s
  | .bkpt c => Sys2Proof.Machine.execBkpt c s
  | .rsmode c => Sys2Proof.Machine.execRsmode c s
  | .rdtime c => Sys2Proof.Machine.execRdtime c s
  | .stim c u => Sys2Proof.Machine.execStim c u s
  | .probe c => Sys2Proof.Machine.execProbe c s
  | .tlbwr c => Sys2Proof.Machine.execTlbwr c s
  | .tlbinv c => Sys2Proof.Machine.execTlbinv c s
  | .tlbinva c => Sys2Proof.Machine.execTlbinva c s
  | .ctlrd c k => Sys2Proof.Machine.execCtlrd c k s
  | .ctlwr c k => Sys2Proof.Machine.execCtlwr c k s
  | .ccwWrite c => Sys2Proof.Machine.execCcwWrite c s
  | .asrAccess c wr => Sys2Proof.Machine.execAsrAccess c wr s
  | .ctxLoad c => Sys2Proof.Machine.execCtxLoad c s
  | .ctxNewload c => Sys2Proof.Machine.execCtxNewload c s
  | .ctxPark c => Sys2Proof.Machine.execCtxPark c s
  | .ctxFree c => Sys2Proof.Machine.execCtxFree c s
  | .ctxcmdDone c => Sys2Proof.Machine.execCtxcmdDone c s
  | .spill c store => Sys2Proof.Machine.execSpill c store s
  | .fill c store => Sys2Proof.Machine.execFill c store s
  | .quantumExpiry c => Sys2Proof.Machine.execQuantumExpiry c s
  | .wtimeExpiry c store => Sys2Proof.Machine.execWtimeExpiry c store s
  | .shPost who n v => Sys2Proof.Machine.execShPost who n v s
  | .wakeHoldCommit n => Sys2Proof.Machine.execWakeHoldCommit n s
  | .idleTimeout n => Sys2Proof.Machine.execIdleTimeout n s
  | .shelfGate n => Sys2Proof.Machine.execShelfGate n s
  | .shelfWake w => Sys2Proof.Machine.execShelfWake w s
  | .adAtomicDone c => Sys2Proof.Machine.execAdAtomicDone c s
  | .glTlbinv who v => Sys2Proof.Machine.execGlTlbinv who v s
  | .glTlbinvDone => Sys2Proof.Machine.execGlTlbinvDone s
  | .glTagrgnWrite who v => Sys2Proof.Machine.execGlTagrgnWrite who v s
  | .glTagtabWrite who v => Sys2Proof.Machine.execGlTagtabWrite who v s
  | .exceptionEntry c x => Sys2Proof.Machine.execExceptionEntry c x s
  | .eventEntry c => Sys2Proof.Machine.execEventEntry c s
  | .coreReset c => Sys2Proof.Machine.execCoreReset c s
  | .sourceInputChange b ix level => Sys2Proof.Machine.execSourceInputChange b ix level s
  | .coalesceTimer n ix => Sys2Proof.Machine.execCoalesceTimer n ix s
  | .holdoffExpiry n g => Sys2Proof.Machine.execHoldoffExpiry n g s
  | .evtmrMatch c => Sys2Proof.Machine.execEvtmrMatch c s
  | .wdogExpire c => Sys2Proof.Machine.execWdogExpire c s
  | .evwdogWrite c => Sys2Proof.Machine.execEvwdogWrite c s
  | .evclaim c => Sys2Proof.Machine.execEvclaim c s
  | .eveoi c => Sys2Proof.Machine.execEveoi c s
  | .evCdb who n v => Sys2Proof.Machine.execEvCdb who n v s
  | .tsbpSet c => Sys2Proof.Machine.execTsbpSet c s
  | .etsbSet c => Sys2Proof.Machine.execEtsbSet c s
  | .dtpSet c => Sys2Proof.Machine.execDtpSet c s
  | .tsbpGet c => Sys2Proof.Machine.execTsbpGet c s
  | .etsbGet c => Sys2Proof.Machine.execEtsbGet c s
  | .dtpGet c => Sys2Proof.Machine.execDtpGet c s
  | .eccRewrite n e => Sys2Proof.Machine.execEccRewrite n e s
  | .wedgeStep n => Sys2Proof.Machine.execWedgeStep n s
  | .wedgeStepEnd n fail => Sys2Proof.Machine.execWedgeStepEnd n fail s
  | .shWedgeWrite who n v => Sys2Proof.Machine.execShWedgeWrite who n v s
  | .tamper => Sys2Proof.Machine.execTamper s
  | .wipeDone n ok => Sys2Proof.Machine.execWipeDone n ok s
  | .recallShare p addr rctag => Sys2Proof.Machine.execRecallShare p addr rctag s
  | .recallOwn p addr rctag => Sys2Proof.Machine.execRecallOwn p addr rctag s
  | .ctlRd p caddr size64 rctag => Sys2Proof.Machine.execCtlRd p caddr size64 rctag s
  | .ctlWr p caddr size64 rctag value => Sys2Proof.Machine.execCtlWr p caddr size64 rctag value s
  | .ansDone p rqtag state status => Sys2Proof.Machine.execAnsDone p rqtag state status s
  | .ansEvict p rqtag => Sys2Proof.Machine.execAnsEvict p rqtag s
  | .datFill p rqtag state status poison data => Sys2Proof.Machine.execDatFill p rqtag state status poison data s
  | .homeReservedOpcode p op => Sys2Proof.Machine.execHomeReservedOpcode p op s
  | .grantFetchDone p idx entry => Sys2Proof.Machine.execGrantFetchDone p idx entry s
  | .glHpmapWrite who v => Sys2Proof.Machine.execGlHpmapWrite who v s
  | .glHpmapDone => Sys2Proof.Machine.execGlHpmapDone s
  | .glGrantWrite who v => Sys2Proof.Machine.execGlGrantWrite who v s
  | .glGrinv who v => Sys2Proof.Machine.execGlGrinv who v s
  | .glGrinvDone => Sys2Proof.Machine.execGlGrinvDone s
  | .portCacheFlush who p v => Sys2Proof.Machine.execPortCacheFlush who p v s
  | .portCacheFlushDone p => Sys2Proof.Machine.execPortCacheFlushDone p s
  | .pairMismatch n ix => Sys2Proof.Machine.execPairMismatch n ix s
  | .pairLag n ix => Sys2Proof.Machine.execPairLag n ix s
  | .parityError n phys arr => Sys2Proof.Machine.execParityError n phys arr s
  | .coretestDone n phys pass => Sys2Proof.Machine.execCoretestDone n phys pass s
  | .shPaircfgCommit who n v => Sys2Proof.Machine.execShPaircfgCommit who n v s
  | .draintoExpiry n => Sys2Proof.Machine.execDraintoExpiry n s
  | .pairHandoverSwitch n => Sys2Proof.Machine.execPairHandoverSwitch n s
  | .handoverTimeout n => Sys2Proof.Machine.execHandoverTimeout n s
  | .glSplitokWrite who v => Sys2Proof.Machine.execGlSplitokWrite who v s
  | .dupMismatch u => Sys2Proof.Machine.execDupMismatch u s
  | .wardenWdogReset => Sys2Proof.Machine.execWardenWdogReset s
  | .wardenReset => Sys2Proof.Machine.execWardenReset s
  | .bootTrialTimeout => Sys2Proof.Machine.execBootTrialTimeout s
  | .wdBootReboot who => Sys2Proof.Machine.execWdBootReboot who s
  | .wdBootSvnup who => Sys2Proof.Machine.execWdBootSvnup who s
  | .sensorSample readings => Sys2Proof.Machine.execSensorSample readings s
  | .logRecordCommit who v => Sys2Proof.Machine.execLogRecordCommit who v s
  | .wdViolWrite who v => Sys2Proof.Machine.execWdViolWrite who v s
  | .responderTimeout => Sys2Proof.Machine.execResponderTimeout s
  | .mctpUnsupported b ty => Sys2Proof.Machine.execMctpUnsupported b ty s
  | .setEndpointId b taken eid => Sys2Proof.Machine.execSetEndpointId b taken eid s
  | .getEndpointId b taken => Sys2Proof.Machine.execGetEndpointId b taken s
  | .getEndpointUuid b taken => Sys2Proof.Machine.execGetEndpointUuid b taken s
  | .getMctpVersionSupport b taken => Sys2Proof.Machine.execGetMctpVersionSupport b taken s
  | .getMessageTypeSupport b taken => Sys2Proof.Machine.execGetMessageTypeSupport b taken s
  | .getTid b taken => Sys2Proof.Machine.execGetTid b taken s
  | .getPldmVersion b taken ty => Sys2Proof.Machine.execGetPldmVersion b taken ty s
  | .getPldmTypes b taken => Sys2Proof.Machine.execGetPldmTypes b taken s
  | .getPldmCommands b taken ty => Sys2Proof.Machine.execGetPldmCommands b taken ty s
  | .getPdrRepositoryInfo b taken => Sys2Proof.Machine.execGetPdrRepositoryInfo b taken s
  | .getPdr b taken record => Sys2Proof.Machine.execGetPdr b taken record s
  | .getSensorReading b sensor => Sys2Proof.Machine.execGetSensorReading b sensor s
  | .getStateSensorReadings b taken sensor => Sys2Proof.Machine.execGetStateSensorReadings b taken sensor s
  | .setEventReceiver b taken eid => Sys2Proof.Machine.execSetEventReceiver b taken eid s
  | .queryDeviceIdentifiers b taken => Sys2Proof.Machine.execQueryDeviceIdentifiers b taken s
  | .getFirmwareParameters b taken => Sys2Proof.Machine.execGetFirmwareParameters b taken s
  | .requestUpdate b taken => Sys2Proof.Machine.execRequestUpdate b taken s
  | .passComponentTable b taken comp => Sys2Proof.Machine.execPassComponentTable b taken comp s
  | .updateComponent b taken comp => Sys2Proof.Machine.execUpdateComponent b taken comp s
  | .requestFirmwareData b taken data => Sys2Proof.Machine.execRequestFirmwareData b taken data s
  | .transferComplete b taken => Sys2Proof.Machine.execTransferComplete b taken s
  | .verifyComplete b taken => Sys2Proof.Machine.execVerifyComplete b taken s
  | .applyComplete b taken => Sys2Proof.Machine.execApplyComplete b taken s
  | .activateFirmware b taken => Sys2Proof.Machine.execActivateFirmware b taken s
  | .getStatus b taken => Sys2Proof.Machine.execGetStatus b taken s
  | .cancelUpdateComponent b taken => Sys2Proof.Machine.execCancelUpdateComponent b taken s
  | .cancelUpdate b taken => Sys2Proof.Machine.execCancelUpdate b taken s
  | .getVersion b taken => Sys2Proof.Machine.execGetVersion b taken s
  | .getCapabilities b taken => Sys2Proof.Machine.execGetCapabilities b taken s
  | .negotiateAlgorithms b taken p384 sha384 => Sys2Proof.Machine.execNegotiateAlgorithms b taken p384 sha384 s
  | .getDigests b taken => Sys2Proof.Machine.execGetDigests b taken s
  | .getCertificate b taken slot => Sys2Proof.Machine.execGetCertificate b taken slot s
  | .challenge b taken slot nonce => Sys2Proof.Machine.execChallenge b taken slot nonce s
  | .getMeasurements b taken index => Sys2Proof.Machine.execGetMeasurements b taken index s
  | .regwr target off v => Sys2Proof.Machine.execRegwr target off v s
  | .regrd target off => Sys2Proof.Machine.execRegrd target off s
  | .lcreq target token => Sys2Proof.Machine.execLcreq target token s
  | .recovery image => Sys2Proof.Machine.execRecovery image s
  | .remoteAccess l serial wr off v => Sys2Proof.Machine.execRemoteAccess l serial wr off v s
  | .remoteTimeout => Sys2Proof.Machine.execRemoteTimeout s
  | .wdLcreq who v => Sys2Proof.Machine.execWdLcreq who v s
  | .shRtvecNew who n v => Sys2Proof.Machine.execShRtvecNew who n v s
  | .shRtvecDrained who n v => Sys2Proof.Machine.execShRtvecDrained who n v s
  | .frequencyLoopWindow ix fmeas => Sys2Proof.Machine.execFrequencyLoopWindow ix fmeas s
  | .voltageRequest d code => Sys2Proof.Machine.execVoltageRequest d code s
  | .voltageAck d => Sys2Proof.Machine.execVoltageAck d s
  | .voltageAckTimeout d => Sys2Proof.Machine.execVoltageAckTimeout d s
  | .glPwrWrite who v => Sys2Proof.Machine.execGlPwrWrite who v s
  | .limiterSample g m => Sys2Proof.Machine.execLimiterSample g m s
  | .thermalTrip sensor eighths => Sys2Proof.Machine.execThermalTrip sensor eighths s
  | .coldStart => Sys2Proof.Machine.execColdStart s
  | .coldReset => Sys2Proof.Machine.execColdReset s
  | .pwrgdFall => Sys2Proof.Machine.execPwrgdFall s
  | .shelfStartupTestDone n r => Sys2Proof.Machine.execShelfStartupTestDone n r s
  | .rtgo who n v => Sys2Proof.Machine.execRtgo who n v s
  | .hrdy who v => Sys2Proof.Machine.execHrdy who v s
  | .warmReset => Sys2Proof.Machine.execWarmReset s
  | .shelfReset who n v => Sys2Proof.Machine.execShelfReset who n v s
  | .shelfResetDone n r => Sys2Proof.Machine.execShelfResetDone n r s
  | .pgdTimeout d => Sys2Proof.Machine.execPgdTimeout d s
  | .pgdFall d => Sys2Proof.Machine.execPgdFall d s
  | .refclkLost => Sys2Proof.Machine.execRefclkLost s
  | .refclkRestored => Sys2Proof.Machine.execRefclkRestored s
  | .tsyncIn => Sys2Proof.Machine.execTsyncIn s
  | .tsyncOutPeriod => Sys2Proof.Machine.execTsyncOutPeriod s
  | .vxRead addr hcrc => Sys2Proof.Machine.execVxRead addr hcrc s
  | .vxWrite addr hcrc data dcrc => Sys2Proof.Machine.execVxWrite addr hcrc data dcrc s
  | .vxIdleReset => Sys2Proof.Machine.execVxIdleReset s
  | .openPwd => Sys2Proof.Machine.execOpenPwd s
  | .openCred => Sys2Proof.Machine.execOpenCred s
  | .vxChallengeReady => Sys2Proof.Machine.execVxChallengeReady s
  | .prove => Sys2Proof.Machine.execProve s
  | .close => Sys2Proof.Machine.execClose s
  | .vxLockExpiry => Sys2Proof.Machine.execVxLockExpiry s
  | .vxHalt v => Sys2Proof.Machine.execVxHalt v s
  | .coreHalted c => Sys2Proof.Machine.execCoreHalted c s
  | .vxRun v => Sys2Proof.Machine.execVxRun v s
  | .vxStep v => Sys2Proof.Machine.execVxStep v s
  | .vxStateWrite v => Sys2Proof.Machine.execVxStateWrite v s
  | .vxMemoryRead => Sys2Proof.Machine.execVxMemoryRead s
  | .vxMemoryWrite v => Sys2Proof.Machine.execVxMemoryWrite v s
  | .vxQuarantine v => Sys2Proof.Machine.execVxQuarantine v s
  | .vxQuarantineClear v => Sys2Proof.Machine.execVxQuarantineClear v s
  | .quarantineDone => Sys2Proof.Machine.execQuarantineDone s
  | .quarantineTimeout => Sys2Proof.Machine.execQuarantineTimeout s
  | .traceCollect => Sys2Proof.Machine.execTraceCollect s
  | .vxTrpop => Sys2Proof.Machine.execVxTrpop s
  | .fuseSerial v => Sys2Proof.Machine.execFuseSerial v s
  | .fusePassword v => Sys2Proof.Machine.execFusePassword v s
  | .fuseProgramDone verified => Sys2Proof.Machine.execFuseProgramDone verified s
  | .creditGrant p ch => Sys2Proof.Machine.execCreditGrant p ch s
  | .pgdRise d => Sys2Proof.Machine.execPgdRise d s
  | .entdaa dynAddr => Sys2Proof.Machine.execEntdaa dynAddr s
  | .spiTransferComplete => Sys2Proof.Machine.execSpiTransferComplete s
  | .remoteAccessReply status value => Sys2Proof.Machine.execRemoteAccessReply status value s

end Sys2Proof.Machine
end

