-- ==== Sys2Proof/Safety.lean ====
section
/-! DEFINITION. What a safe run is: every step answers a next state. And the terms in which the statements speak of a core: when an
instruction issues, and what its completion leaves. -/

namespace Sys2Proof

/-- The next `k` steps all answer a next state. -/
def Safe : Nat → Machine.State → Prop
  | 0, _ => True
  | k + 1, s => ∃ t, Machine.step s = .next t ∧ Safe k t

namespace Machine

/-! ## A core at an issue -/

/-- The state in which the next instruction of core `c` acts: its scheduler has chosen a context, a mask window that EVSYNC has ended is shut
(R299), and a product and a round key that are due have landed (R174, R175). -/
def State.issuing (s : State) (c : CoreId) : State := (s.schedule (s.coreKey c)).readied (s.coreKey c)

/-- The context of resident store `r` of core `c` there. -/
def State.at_ (s : State) (c : CoreId) (r : Nat) : Ctx := (s.issuing c).ctx (s.coreKey c) r

/-- No SEG prefix stands before the instruction (R189). -/
def Bare (s : State) (c : CoreId) : Prop := ((s.issuing c).core (s.coreKey c)).seg = none

/-- Bytes of the SEG prefix, if one stands before the instruction. -/
def State.prefixLen (s : State) (c : CoreId) : Nat := b2n ((s.issuing c).core (s.coreKey c)).seg.isSome

/-- What the instruction at hand, with the bytes `code`, is to the one behind it (R166). -/
def State.pairAt (s : State) (c : CoreId) (r : Nat) (code : List Byte) : Pairing :=
  (s.issuing c).pairing (s.coreKey c) (s.at_ c r) (s.prefixLen c) code

/-- A fused pair waits whole for a tag that its second instruction needs (R166, log entry 137). -/
def Pairing.holds : Pairing → Bool
  | .waits _ => true
  | _ => false

/-- Core `c` may issue, its scheduler chooses store `r`, the instruction with the bytes `code` stands at its PC and is fetched (R163, R164,
R187), and no fused pair that it opens waits for a tag. -/
def Issues (s : State) (c : CoreId) (r : Nat) (code : List Byte) : Prop :=
  s.mayIssue (s.coreKey c) = true ∧ ((s.schedule (s.coreKey c)).core (s.coreKey c)).run = some r ∧
    ((s.issuing c).fetchOp (s.coreKey c) (s.at_ c r) (s.prefixLen c) code).isOk = true ∧ (s.pairAt c r code).holds = false

/-- The context once the instruction at hand has gone on at `pc`: a product and a round key that were on their way are in their
registers (R174, R175). -/
def Ctx.goneOn (y x : Ctx) (pc : Nat) : Ctx :=
  { y.land x.prod x.rkeyNext with
    pc := BitVec.ofNat 56 pc
    wait := none }

/-- The context as an instruction finds it, with nothing on its way. -/
def Ctx.found (x : Ctx) : Ctx := { x with prod := none, rkeyNext := none }

/-- The core once an instruction has retired: F has used the lines `ls`, the prefix is used up, the counts rise; a single step is over unless
the instruction `opens` a fused pair (R164, R166, R414). -/
def Core.finished (d : Core) (ls : List Nat) (opens : Bool) : Core :=
  let e := (ls.foldl Core.useLine d).retired opens
  { e with
    step := e.step && e.pair
    haltReq := e.haltReq || (e.step && !e.pair) }

/-- Command `i` completes an instruction of store `r` of core `c`, with the bytes `code`, and goes on at `pc`: `f` gives the context's new
contents, `g` the core's and `h` the rest of the state; no other context and no other core differs from the state at the issue. -/
def RunsTo (i : Instr) (s : State) (c : CoreId) (r : Nat) (code : List Byte) (pc : Nat) (f : Ctx → Ctx) (g : Core → Core) (h : State → State) :
    Prop :=
  ∃ u, exec i s = .next u ∧
    u.ctx (s.coreKey c) r = (f (s.at_ c r).found).goneOn (s.at_ c r) pc ∧
    u.core (s.coreKey c) = (g ((s.issuing c).core (s.coreKey c))).finished
      ((s.issuing c).codeLines (s.coreKey c) (s.at_ c r) (s.prefixLen c + code.length)) (decide (s.pairAt c r code = .opens)) ∧
    (∀ m q, 16 * m + q ≠ 16 * s.coreKey c + r → u.ctx m q = (s.issuing c).ctx m q) ∧
    (∀ j, j ≠ s.coreKey c → u.core j = (s.issuing c).core j) ∧
    { u with ctxs := (s.issuing c).ctxs, cores := (s.issuing c).cores } = h (s.issuing c)

/-- As `RunsTo`, going on behind the bytes of the instruction, with nothing but its own context and core changed. -/
def Runs (i : Instr) (s : State) (c : CoreId) (r : Nat) (code : List Byte) (f : Ctx → Ctx) (g : Core → Core) : Prop :=
  RunsTo i s c r code ((s.at_ c r).pc.toNat + code.length + s.prefixLen c) f g id

/-- The tag that an instruction of the context takes: the lowest one that is not outstanding (R170). -/
def Ctx.nextTag (x : Ctx) : Nat := x.freeTags.headD 0

/-- Some tag is free (R170). -/
def Ctx.tagFree (x : Ctx) : Prop := x.freeTags ≠ []

/-- Command `i` completes a tagged operation: `n` operands give way to a pending slot whose tag already holds its result, which
TAG_RETURN delivers (R168, R169). -/
def RunsTagged (i : Instr) (s : State) (c : CoreId) (r : Nat) (code : List Byte) (rest : List Slot) (d : TagRec) : Prop :=
  RunsTo i s c r code ((s.at_ c r).pc.toNat + code.length + s.prefixLen c)
    (fun x => { x with
      ring := .tag x.nextTag :: rest
      tags := aput x.nextTag { d with
        dpc := x.pc
        gen := (s.issuing c).tagCtr } x.tags })
    id (fun t => { t with tagCtr := t.tagCtr + 1 })

end Machine

end Sys2Proof
end

