-- ==== Sys2Proof/Certificates/Slice0/Obligations.lean ====
section
/-! DEFINITION. The statements about the CE-1024 that the provers prove. `Sys2Proof.Stated` holds the tables that they speak of. -/

open Sys2Proof Sys2Proof.Machine


/-- A party may write register `r` (R12, R373, R443): its port is open, the register's shelf is out of reset, and it has authority. -/
def Sys2Proof.Stated.granted (s : State) (who : Party) (r : Reg) (v : Word) : Prop :=
  s.partyOpen who r.off = true ∧ s.shelfRangeOff r.off = false ∧ s.permitted who r.off true = true ∧
    (who = .warden ∨ s.actsOnWarden r v = false)
/-! ## Stack, literal and integer instructions -/

/-- Stack moves complete on any values with room for what they leave, and change nothing else: each row gives the instruction, how many
words it takes (top first), and what it leaves (top first) (R192, R236). -/
def Sys2Proof.Stated.StackMoves : Prop :=
  ∀ (c : CoreId) (s : State) (r : Nat) (vs : List Word) (rest : List Slot), ∀ p ∈ (
      [(.nop c, [0x00], 0, fun _ => []),
       (.dup c, [0x01], 1, fun l => [l.getD 0 0, l.getD 0 0]),
       (.swap c, [0x03], 2, fun l => [l.getD 1 0, l.getD 0 0]),
       (.over c, [0x04], 2, fun l => [l.getD 1 0, l.getD 0 0, l.getD 1 0]),
       (.rot c, [0x05], 3, fun l => [l.getD 2 0, l.getD 0 0, l.getD 1 0]),
       (.nip c, [0x06], 2, fun l => [l.getD 0 0]),
       (.tuck c, [0x07], 2, fun l => [l.getD 0 0, l.getD 1 0, l.getD 0 0])] : List (Instr × List Byte × Nat × (List Word → List Word))),
    Issues s c r p.2.1 → Bare s c → vs.length = p.2.2.1 → (s.at_ c r).ring = vs.map Slot.val ++ rest →
    rest.length + (p.2.2.2 vs).length ≤ ringSize →
    Runs p.1 s c r p.2.1 (fun x => { x with ring := (p.2.2.2 vs).map Slot.val ++ rest }) id

/-- Two-operand instructions, `a` below and `b` on top, put the stated value in place of their operands, and change nothing else (R192,
R217). -/
def Sys2Proof.Stated.BinaryOps : Prop :=
  ∀ (c : CoreId) (s : State) (r : Nat) (a b : Word) (rest : List Slot), ∀ p ∈ (
      [(.add c, [0x20], BitVec.ofNat 64 (a.toNat + b.toNat)),
       (.sub c, [0x21], BitVec.ofInt 64 (a.toInt - b.toInt)),
       (.and c, [0x22], a &&& b),
       (.or c, [0x23], a ||| b),
       (.xor c, [0x24], a ^^^ b),
       (.shl c, [0x27], BitVec.ofNat 64 (a.toNat * 2 ^ (b.toNat % 64))),
       (.shr c, [0x28], BitVec.ofNat 64 (a.toNat / 2 ^ (b.toNat % 64))),
       (.sar c, [0x29], BitVec.ofInt 64 (a.toInt / 2 ^ (b.toNat % 64))),
       (.rol c, [0x2A], a <<< (b.toNat % 64) ||| a >>> (64 - b.toNat % 64)),
       (.ror c, [0x2B], a >>> (b.toNat % 64) ||| a <<< (64 - b.toNat % 64)),
       (.eq c, [0x30], if a = b then 1 else 0),
       (.lt c, [0x31], if a.toInt < b.toInt then 1 else 0),
       (.ltu c, [0x32], if a.toNat < b.toNat then 1 else 0),
       (.min c, [0x33], if a.toInt < b.toInt then a else b),
       (.max c, [0x34], if a.toInt < b.toInt then b else a),
       (.minu c, [0x35], if a.toNat < b.toNat then a else b),
       (.maxu c, [0x36], if a.toNat < b.toNat then b else a)] : List (Instr × List Byte × Word)),
    Issues s c r p.2.1 → Bare s c → (s.at_ c r).ring = .val b :: .val a :: rest → rest.length < ringSize →
    Runs p.1 s c r p.2.1 (fun x => { x with ring := .val p.2.2 :: rest }) id

/-- One-operand instructions, with their lengths, put the stated value in place of their operand, and change nothing else (R192, R217). -/
def Sys2Proof.Stated.UnaryOps : Prop :=
  ∀ (c : CoreId) (u : BitVec 8) (s : State) (r : Nat) (a : Word) (rest : List Slot), u.toNat < 64 → ∀ p ∈ (
      [(.not c, [0x25], BitVec.ofNat 64 (2 ^ 64 - 1 - a.toNat)),
       (.neg c, [0x26], BitVec.ofInt 64 (- a.toInt)),
       (.popc c, [0x3D], BitVec.ofNat 64 ((List.range 64).countP (fun i => a.getLsbD i))),
       (.clz c, [0x3E], if a = 0 then 64 else BitVec.ofNat 64 (63 - Nat.log2 a.toNat)),
       (.bswap c, [0x3F], bytesWord (wordBytes a).reverse),
       (.sext c u, [0x37, u], BitVec.ofInt 64 ((BitVec.ofNat (u.toNat + 1) a.toNat).toInt)),
       (.zext c u, [0x38, u], BitVec.ofNat 64 (a.toNat % 2 ^ (u.toNat + 1)))] : List (Instr × List Byte × Word)),
    Issues s c r p.2.1 → Bare s c → (s.at_ c r).ring = .val a :: rest → rest.length < ringSize →
    Runs p.1 s c r p.2.1 (fun x => { x with ring := .val p.2.2 :: rest }) id

/-- Literals, DEPTH, the product registers and DEVTIME are pushed where there is room, and nothing else changes (R174, R187, R192, R233). -/
def Sys2Proof.Stated.PushedWords : Prop :=
  ∀ (c : CoreId) (i8 : BitVec 8) (i16 : BitVec 16) (i32 : BitVec 32) (i64 : Word) (s : State) (r : Nat), ∀ p ∈ (
      [(.lit8 c i8, [0x10, i8], BitVec.ofInt 64 i8.toInt),
       (.lit16 c i16, 0x11 :: leBytes 2 i16.toNat, BitVec.ofInt 64 i16.toInt),
       (.lit32 c i32, 0x12 :: leBytes 4 i32.toNat, BitVec.ofInt 64 i32.toInt),
       (.lit64 c i64, 0x13 :: leBytes 8 i64.toNat, i64),
       (.depth c, [0x09], BitVec.ofNat 64 ((s.at_ c r).sp.toNat / 8 + (s.at_ c r).ring.length - (s.at_ c r).wb)),
       (.rdmph c, [0x2E], (s.at_ c r).mph),
       (.rdmpl c, [0x2F], (s.at_ c r).mpl),
       (.rdtime c, [0xF0, 0x08], (s.issuing c).devtime)] : List (Instr × List Byte × Word)),
    Issues s c r p.2.1 → Bare s c → (s.at_ c r).ring.length < ringSize →
    Runs p.1 s c r p.2.1 (fun x => { x with ring := .val p.2.2 :: x.ring }) id

/-- DROP takes any slot, pending or not, and counts a poisoned one in PDROP; PICK copies a value of the window (R169, R173, R192). -/
def Sys2Proof.Stated.DropAndPick : Prop :=
  (∀ (c : CoreId) (s : State) (r : Nat) (v : Slot) (rest : List Slot), Issues s c r [0x02] → Bare s c → (s.at_ c r).ring = v :: rest →
    Runs (.drop c) s c r [0x02] (fun x => { x with
      ring := rest
      pdrop := match v with
        | .poison _ => if x.pdrop = 0xFFFF then x.pdrop else x.pdrop + 1
        | _ => x.pdrop }) id) ∧
  (∀ (c : CoreId) (u : BitVec 8) (s : State) (r : Nat) (v : Word), u.toNat < 32 → Issues s c r [0x08, u] → Bare s c →
    (s.at_ c r).ring[u.toNat]? = some (.val v) → (s.at_ c r).ring.length < ringSize →
    Runs (.pick c u) s c r [0x08, u] (fun x => { x with ring := .val v :: x.ring }) id)

/-- RPUSH, RPOP and RPEEK move an address with the window base to the return stack and an address back (R202, R203, R234). -/
def Sys2Proof.Stated.ReturnStack : Prop :=
  (∀ (c : CoreId) (s : State) (r : Nat) (v : Word) (rest : List Slot), Issues s c r [0x0A] → Bare s c → (s.at_ c r).ring = .val v :: rest →
    (s.at_ c r).rstack.length < 32 →
    Runs (.rpush c) s c r [0x0A] (fun x => { x with
      ring := rest
      rstack := (v.setWidth 56, x.wb) :: x.rstack }) id) ∧
  (∀ (c : CoreId) (s : State) (r : Nat) (a : BitVec 56) (wb : Nat) (more : List (BitVec 56 × Nat)), Bare s c →
    (s.at_ c r).rstack = (a, wb) :: more → (s.at_ c r).rsFloor ≤ more.length → (s.at_ c r).ring.length < ringSize →
    (Issues s c r [0x0B] → Runs (.rpop c) s c r [0x0B] (fun x => { x with
      ring := .val (a.setWidth 64) :: x.ring
      rstack := more }) id) ∧
    (Issues s c r [0x0C] → Runs (.rpeek c) s c r [0x0C] (fun x => { x with ring := .val (a.setWidth 64) :: x.ring }) id))

/-- All of `StackMoves`, `DropAndPick`, `PushedWords`, `ReturnStack`. -/
def Obligations.StackMotion : Prop := Stated.StackMoves ∧ Stated.DropAndPick ∧ Stated.PushedWords ∧ Stated.ReturnStack


/-- MUL and MULS push the low half of the exact product, and its two halves are the product on its way to MPH and MPL (R174, R217). -/
def Sys2Proof.Stated.Products : Prop :=
  ∀ (c : CoreId) (s : State) (r : Nat) (a b : Word) (rest : List Slot), Bare s c →
    (s.at_ c r).ring = .val b :: .val a :: rest → rest.length < ringSize →
    (Issues s c r [0x2C] → ∃ h l : Word, h.toNat * 2 ^ 64 + l.toNat = a.toNat * b.toNat ∧
      Runs (.mul c) s c r [0x2C] (fun x => { x with
        ring := .val l :: rest
        prod := some (h, l)
        latchAt := (s.issuing c).now }) id) ∧
    (Issues s c r [0x2D] → ∃ h l : Word, h.toInt * 2 ^ 64 + (l.toNat : Int) = a.toInt * b.toInt ∧
      Runs (.muls c) s c r [0x2D] (fun x => { x with
        ring := .val l :: rest
        prod := some (h, l)
        latchAt := (s.issuing c).now }) id)

/-- All of `BinaryOps`, `UnaryOps`, `Products`. -/
def Obligations.Arithmetic : Prop := Stated.BinaryOps ∧ Stated.UnaryOps ∧ Stated.Products


/-- A division is an arithmetic tagged operation. Its pending slot's tag holds the quotient or the remainder, truncated toward zero, with
no flag; over 0 the dividend with DZ; and the most negative word over −1 gives itself or 0 with DV. Where the divisor is not 0 and the
quotient can be represented, a = DIV × b + REM (R168, R218, Table 8.1). -/
def Obligations.Divisions : Prop :=
  (∀ a b : Word, b ≠ 0 → ¬ (a = 0x8000000000000000 ∧ b = BitVec.allOnes 64) →
    a = BitVec.ofInt 64 (a.toInt.tdiv b.toInt) * b + BitVec.ofInt 64 (a.toInt.tmod b.toInt)) ∧
  ∀ (c : CoreId) (s : State) (r : Nat) (a b : Word) (rest : List Slot), ∀ p ∈ (
      [(.div c, [0x39], true, BitVec.ofInt 64 (a.toInt.tdiv b.toInt), a),
       (.divu c, [0x3A], false, BitVec.ofNat 64 (a.toNat / b.toNat), a),
       (.rem c, [0x3B], true, BitVec.ofInt 64 (a.toInt.tmod b.toInt), 0),
       (.remu c, [0x3C], false, BitVec.ofNat 64 (a.toNat % b.toNat), 0)] : List (Instr × List Byte × Bool × Word × Word)),
    Issues s c r p.2.1 → Bare s c → (s.at_ c r).tagFree → (s.at_ c r).ring = .val b :: .val a :: rest → rest.length < ringSize →
    RunsTagged p.1 s c r p.2.1 rest { dpc := 0, addr := 0, dest := .stack, arith := true, res := some (
      if b = 0 then .value a fDZ
      else if p.2.2.1 = true ∧ a = 0x8000000000000000 ∧ b = BitVec.allOnes 64 then .value p.2.2.2.2 fDV
      else .value p.2.2.2.1 0) }

/-! ## Control transfer -/

/-- What a branch leaves of the core: with BPEN 1 and DET off its prediction counter moves toward what the branch did, and PMISS counts a
wrong prediction (R165). -/
def Sys2Proof.Stated.learns (s : State) (c : CoreId) (r : Nat) (taken : Bool) (d : Core) : Core :=
  if (s.issuing c).detOn (s.coreKey c) = false ∧ d.bpen = true then
    let i := (((s.at_ c r).seg segC).ea (s.at_ c r).pc.toNat) / 2 % 512
    let n := tget 0 d.bht i
    { (if (2 ≤ n ↔ taken = true) then d else d.count 3) with bht := tset 0 d.bht i (if taken then (if n = 3 then 3 else n + 1) else if n = 0 then 0 else n - 1) }
  else d

/-- A branch takes its operands and goes to the next instruction's address plus its displacement where its condition holds, else on;
beside the prediction table nothing else changes (R165, R187, R200). `a` is the lower operand of two, or the only one. -/
def Sys2Proof.Stated.Branches : Prop :=
  ∀ (c : CoreId) (d : BitVec 16) (s : State) (r : Nat) (a b : Word) (rest : List Slot), ∀ p ∈ (
      [(.beq c d, 0x70 :: leBytes 2 d.toNat, [b, a], a = b),
       (.bne c d, 0x71 :: leBytes 2 d.toNat, [b, a], a ≠ b),
       (.blt c d, 0x72 :: leBytes 2 d.toNat, [b, a], a.toInt < b.toInt),
       (.bltu c d, 0x73 :: leBytes 2 d.toNat, [b, a], a.toNat < b.toNat),
       (.bge c d, 0x74 :: leBytes 2 d.toNat, [b, a], b.toInt ≤ a.toInt),
       (.bgeu c d, 0x75 :: leBytes 2 d.toNat, [b, a], b.toNat ≤ a.toNat),
       (.beqz c d, 0x76 :: leBytes 2 d.toNat, [a], a = 0),
       (.bnez c d, 0x77 :: leBytes 2 d.toNat, [a], a ≠ 0),
       (.bltz c d, 0x78 :: leBytes 2 d.toNat, [a], a.toInt < 0),
       (.bgez c d, 0x79 :: leBytes 2 d.toNat, [a], 0 ≤ a.toInt),
       (.bgtz c d, 0x7A :: leBytes 2 d.toNat, [a], 0 < a.toInt),
       (.blez c d, 0x7B :: leBytes 2 d.toNat, [a], a.toInt ≤ 0)] : List (Instr × List Byte × List Word × Prop)),
    Issues s c r p.2.1 → Bare s c → (s.at_ c r).ring = p.2.2.1.map Slot.val ++ rest →
    (p.2.2.2 → RunsTo p.1 s c r p.2.1 (((((s.at_ c r).pc.toNat + 3 : Nat) : Int) + d.toInt) % 2 ^ 56).toNat (fun x => { x with ring := rest }) (Stated.learns s c r true) id) ∧
    (¬ p.2.2.2 → RunsTo p.1 s c r p.2.1 ((s.at_ c r).pc.toNat + 3) (fun x => { x with ring := rest }) (Stated.learns s c r false) id)

/-- JMP goes to the next instruction's address plus its displacement, and JMPI to the address that it pops (R187, R201). -/
def Sys2Proof.Stated.Jumps : Prop :=
  (∀ (c : CoreId) (d : BitVec 24) (s : State) (r : Nat), Issues s c r (0x7C :: leBytes 3 d.toNat) → Bare s c →
    RunsTo (.jmp c d) s c r (0x7C :: leBytes 3 d.toNat) (((((s.at_ c r).pc.toNat + 4 : Nat) : Int) + d.toInt) % 2 ^ 56).toNat id id id) ∧
  (∀ (c : CoreId) (s : State) (r : Nat) (a : Word) (rest : List Slot), Issues s c r [0x7D] → Bare s c → (s.at_ c r).ring = .val a :: rest →
    RunsTo (.jmpi c) s c r [0x7D] a.toNat (fun x => { x with ring := rest }) id id)

/-- A call pushes the return address with the caller's window base, and its callee's window begins `n` slots below the top; RET goes to
the popped address with the popped window base, but not above the top (R201, R202, R234). -/
def Sys2Proof.Stated.CallsAndReturns : Prop :=
  (∀ (c : CoreId) (n : BitVec 8) (d : BitVec 24) (s : State) (r : Nat), n.toNat < 16 → Issues s c r (0x7E :: n :: leBytes 3 d.toNat) → Bare s c →
    (s.at_ c r).rstack.length < 32 → (s.at_ c r).ring.length < ringSize →
    RunsTo (.call c n d) s c r (0x7E :: n :: leBytes 3 d.toNat) (((((s.at_ c r).pc.toNat + 5 : Nat) : Int) + d.toInt) % 2 ^ 56).toNat
      (fun x => { x with
        rstack := (BitVec.ofNat 56 (x.pc.toNat + 5), x.wb) :: x.rstack
        wb := x.sp.toNat / 8 + x.ring.length - n.toNat }) id id) ∧
  (∀ (c : CoreId) (n : BitVec 8) (s : State) (r : Nat) (a : Word) (rest : List Slot), n.toNat < 16 → Issues s c r [0x7F, n] → Bare s c →
    (s.at_ c r).rstack.length < 32 → (s.at_ c r).ring = .val a :: rest → rest.length + 1 < ringSize →
    RunsTo (.calli c n) s c r [0x7F, n] a.toNat
      (fun x => { x with
        ring := rest
        rstack := (BitVec.ofNat 56 (x.pc.toNat + 2), x.wb) :: x.rstack
        wb := x.sp.toNat / 8 + rest.length - n.toNat }) id id) ∧
  (∀ (c : CoreId) (s : State) (r : Nat) (a : BitVec 56) (wb : Nat) (more : List (BitVec 56 × Nat)), Issues s c r [0x80] → Bare s c →
    (s.at_ c r).rstack = (a, wb) :: more → (s.at_ c r).rsFloor ≤ more.length →
    RunsTo (.ret c) s c r [0x80] a.toNat (fun x => { x with
      rstack := more
      wb := min wb (x.sp.toNat / 8 + x.ring.length) }) id id)

/-- All of `Branches`, `Jumps`, `CallsAndReturns`. -/
def Obligations.ControlFlow : Prop := Stated.Branches ∧ Stated.Jumps ∧ Stated.CallsAndReturns


/-! ## Capability instructions -/

/-- SNARROW, SCOPY, SFIELD and SVOID on segment registers that are neither pending nor poisoned: a narrowed capability is what the
operands say where it lies within the old one, a copy is the same capability, a field is pushed, and a void one loses its tag (R194,
R256). -/
def Sys2Proof.Stated.CapabilityMoves : Prop :=
  (∀ (c : CoreId) (imm : BitVec 8) (s : State) (r : Nat) (base limit rights : Word) (rest : List Slot) (e : Cap),
    imm.toNat < 8 → imm.toNat ≠ segC → Issues s c r [0x68, imm] → Bare s c → (s.at_ c r).ring = .val rights :: .val limit :: .val base :: rest →
    (s.at_ c r).segReady imm.toNat = .ok e → alook imm.toNat (s.at_ c r).segPoison = none → e.tag = true → e.otype = 0 →
    rights.toNat < 256 → rights.setWidth 8 &&& ~~~ e.rights = 0 → e.base.toNat ≤ base.toNat → limit.toNat ≤ e.limit.toNat →
    base.toNat < 2 ^ 56 →
    Runs (.snarrow c imm) s c r [0x68, imm] (fun x => ({ x with ring := rest }).setSeg imm.toNat
      { rights := rights.setWidth 8, otype := 0, limit := limit.setWidth 56, base := base.setWidth 56, tag := true }) id) ∧
  (∀ (c : CoreId) (d n : Nat) (s : State) (r : Nat) (e : Cap), d < 8 → n < 8 → d ≠ segC → Issues s c r [0x69, BitVec.ofNat 8 (16 * d + n)] → Bare s c →
    alook d (s.at_ c r).segPend = none → alook d (s.at_ c r).segPoison = none → (s.at_ c r).segReady n = .ok e →
    Runs (.scopy c (BitVec.ofNat 8 (16 * d + n))) s c r [0x69, BitVec.ofNat 8 (16 * d + n)] (fun x => x.setSeg d e) id) ∧
  (∀ (c : CoreId) (f n : Nat) (s : State) (r : Nat) (e : Cap), f < 5 → n < 8 → Issues s c r [0x6C, BitVec.ofNat 8 (16 * f + n)] → Bare s c →
    (s.at_ c r).segReady n = .ok e → (s.at_ c r).ring.length < ringSize →
    Runs (.sfield c (BitVec.ofNat 8 (16 * f + n))) s c r [0x6C, BitVec.ofNat 8 (16 * f + n)] (fun x => { x with
      ring := .val (if f = 0 then e.base.setWidth 64 else if f = 1 then e.limit.setWidth 64 else if f = 2 then e.rights.setWidth 64
        else if f = 3 then e.otype.setWidth 64 else if e.tag then 1 else 0) :: x.ring }) id) ∧
  (∀ (c : CoreId) (imm : BitVec 8) (s : State) (r : Nat) (e : Cap), imm.toNat < 8 → Issues s c r [0x6D, imm] → Bare s c →
    (s.at_ c r).segReady imm.toNat = .ok e →
    Runs (.svoid c imm) s c r [0x6D, imm] (fun x => x.setSeg imm.toNat { e with tag := false }) id)

/-- SLOCK seals an unsealed capability with a type that the authority covers, and SUNLOCK takes the type of a sealed one off again (R249,
R256). -/
def Sys2Proof.Stated.Sealing : Prop :=
  ∀ (c : CoreId) (d n : Nat) (s : State) (r : Nat) (e a : Cap) (t : Word) (rest : List Slot), d < 8 → n < 8 → d ≠ segC →
    Bare s c → (s.at_ c r).segReady d = .ok e → (s.at_ c r).segReady n = .ok a → e.tag = true →
    a.tag = true → a.otype = 0 → a.s = true → 1 ≤ t.toNat → t.toNat ≤ 255 → a.base.toNat ≤ t.toNat → t.toNat ≤ a.limit.toNat →
    (e.otype = 0 → (s.at_ c r).ring = .val t :: rest → Issues s c r [0x6A, BitVec.ofNat 8 (16 * d + n)] →
      Runs (.slock c (BitVec.ofNat 8 (16 * d + n))) s c r [0x6A, BitVec.ofNat 8 (16 * d + n)]
        (fun x => ({ x with ring := rest }).setSeg d { e with otype := t.setWidth 8 }) id) ∧
    (e.otype.toNat = t.toNat → Issues s c r [0x6B, BitVec.ofNat 8 (16 * d + n)] →
      Runs (.sunlock c (BitVec.ofNat 8 (16 * d + n))) s c r [0x6B, BitVec.ofNat 8 (16 * d + n)] (fun x => x.setSeg d { e with otype := 0 }) id)

/-- All of `CapabilityMoves`, `Sealing`. -/
def Obligations.Capabilities : Prop := Stated.CapabilityMoves ∧ Stated.Sealing


/-! ## Round keys and floating point -/

/-- RKLD puts the 128-bit key on its way to the round-key port; an AES instruction replaces the 16 bytes of two words by one FIPS 197
round of them under the port's key, which is the key before one that is still on its way (R175). -/
def Sys2Proof.Stated.RoundKeys : Prop :=
  ∀ (c : CoreId) (s : State) (r : Nat) (lo hi : Word) (rest : List Slot), s.coreKey c ≠ wardenKey → Bare s c →
    (s.at_ c r).ring = .val hi :: .val lo :: rest → rest.length + 2 ≤ ringSize →
    (Issues s c r [0x98] → Runs (.rkld c) s c r [0x98] (fun x => { x with
      ring := rest
      rkeyNext := some (hi ++ lo)
      latchAt := (s.issuing c).now }) id) ∧
    ∀ p ∈ ([(.aese c, [0x99], aesRound), (.aesel c, [0x9A], aesLast), (.aesd c, [0x9B], aesDecRound), (.aesdl c, [0x9C], aesInvLast)]
        : List (Instr × List Byte × (List Byte → List Byte → List Byte))), Issues s c r p.2.1 →
      Runs p.1 s c r p.2.1 (fun x => { x with
        ring := .val (bytesWord ((p.2.2 (leBytes 16 x.rkey.toNat) (wordBytes lo ++ wordBytes hi)).drop 8)) ::
        .val (bytesWord (p.2.2 (leBytes 16 x.rkey.toNat) (wordBytes lo ++ wordBytes hi))) :: rest }) id

/-- GQRY is a tagged operation that holds a bit for each engine of the asked kind that passes and runs nothing (R199). -/
def Sys2Proof.Stated.EngineQuery : Prop :=
  ∀ (c : CoreId) (s : State) (r : Nat) (v : Word) (rest : List Slot), s.coreKey c ≠ wardenKey → Issues s c r [0x9D] → Bare s c →
    (s.at_ c r).tagFree → (s.at_ c r).ring = .val v :: rest → rest.length < ringSize →
    ∃ w : Word, RunsTagged (.gqry c) s c r [0x9D] rest { dpc := 0, addr := 0, dest := .stack, res := some (.value w 0) } ∧
      ∀ i, i < 64 → w.getLsbD i =
        if v = 0 then decide (i < 4) && (s.issuing c).engineFree (keyShelf (s.coreKey c)) i
        else if v = 1 then decide (i < 2) && (s.issuing c).engineFree (keyShelf (s.coreKey c)) (4 + i)
        else false

/-- All of `RoundKeys`, `EngineQuery`. -/
def Obligations.CryptoInstructions : Prop := Stated.RoundKeys ∧ Stated.EngineQuery


/-- The FP registers belong to the context, and none of those of the immediate is pending or poisoned (R243). -/
def Sys2Proof.Stated.fpReady (s : State) (c : CoreId) (r : Nat) (i : BitVec 8) : Prop :=
  ((s.issuing c).core (s.coreKey c)).fpOwn = some r ∧
  ∀ f, f = fpD i ∨ f = fpS i → alook f ((s.issuing c).core (s.coreKey c)).fpPend = none ∧ alook f ((s.issuing c).core (s.coreKey c)).fpPoison = none

/-- FP register `f` of the core at the issue. -/
def Sys2Proof.Stated.fpr (s : State) (c : CoreId) (f : Nat) : Word := tget 0 ((s.issuing c).core (s.coreKey c)).fpr f

/-- The record of a tag whose result goes to FP register `d`. -/
def Sys2Proof.Stated.fpRec (x : Ctx) (d gen : Nat) (res : TagRes) : TagRec where
  dpc := x.pc
  addr := 0
  dest := .fp d
  arith := true
  fp := true
  gen := gen
  res := some res

/-- FP instructions that complete at once: fd takes the value, and the ASR keeps its bits and gains those that IEEE 754 gives the
operation; the other FP registers stay (R222, R224, R227). -/
def Sys2Proof.Stated.FpQuick : Prop :=
  ∀ (c : CoreId) (f : FpFmt) (i : BitVec 8) (s : State) (r : Nat), Bare s c → Stated.fpReady s c r i → ∀ p ∈ (
      [(.fmin c f i, [fpOpcode f 0x5, i], BitVec.ofNat 64 (fpMinMax (fpShape f) false (Stated.fpr s c (fpD i)).toNat (Stated.fpr s c (fpS i)).toNat).1,
        (fpMinMax (fpShape f) false (Stated.fpr s c (fpD i)).toNat (Stated.fpr s c (fpS i)).toNat).2),
       (.fmax c f i, [fpOpcode f 0x6, i], BitVec.ofNat 64 (fpMinMax (fpShape f) true (Stated.fpr s c (fpD i)).toNat (Stated.fpr s c (fpS i)).toNat).1,
        (fpMinMax (fpShape f) true (Stated.fpr s c (fpD i)).toNat (Stated.fpr s c (fpS i)).toNat).2),
       (.fmov c f i, [fpOpcode f 0xC, i], BitVec.ofNat 64 ((Stated.fpr s c (fpS i)).toNat % 2 ^ (fpShape f).width), 0),
       (.fneg c f i, [fpOpcode f 0xD, i], BitVec.ofNat 64 ((Stated.fpr s c (fpS i) ^^^ fpSign f).toNat % 2 ^ (fpShape f).width), 0),
       (.fabs c f i, [fpOpcode f 0xE, i], BitVec.ofNat 64 ((Stated.fpr s c (fpS i) &&& ~~~ fpSign f).toNat % 2 ^ (fpShape f).width), 0)]
        : List (Instr × List Byte × Word × Word)),
    Issues s c r p.2.1 → Runs p.1 s c r p.2.1 (fun x => { x with asr := x.asr ||| p.2.2.2 }) (fun d => { d with
      fpr := tset 0 d.fpr (fpD i) p.2.2.1
      fpPoison := adel (fpD i) d.fpPoison })

/-- FCMP pushes its relation and records its flags; FMOVO pushes an FP register and FMOVI takes one from the stack (R222, R224, R227). -/
def Sys2Proof.Stated.FpStack : Prop :=
  ∀ (c : CoreId) (f : FpFmt) (i : BitVec 8) (s : State) (r : Nat), Bare s c → Stated.fpReady s c r i →
    ((s.at_ c r).ring.length < ringSize → Issues s c r [fpOpcode f 7, i] →
      Runs (.fcmp c f i) s c r [fpOpcode f 7, i] (fun x => { x with
        ring := .val (BitVec.ofNat 64 (fpCmp ((fpShape f).read (Stated.fpr s c (fpD i)).toNat) ((fpShape f).read (Stated.fpr s c (fpS i)).toNat)).1)
          :: x.ring
        asr := x.asr ||| (fpCmp ((fpShape f).read (Stated.fpr s c (fpD i)).toNat) ((fpShape f).read (Stated.fpr s c (fpS i)).toNat)).2 }) id) ∧
    (fpS i = 0 → (s.at_ c r).ring.length < ringSize → Issues s c r [fpOpcode f 9, i] →
      Runs (.fmovo c f i) s c r [fpOpcode f 9, i] (fun x => { x with
        ring := .val (BitVec.ofNat 64 ((Stated.fpr s c (fpD i)).toNat % 2 ^ (fpShape f).width)) :: x.ring }) id) ∧
    (∀ (v : Word) (rest : List Slot), fpS i = 0 → (s.at_ c r).ring = .val v :: rest → Issues s c r [fpOpcode f 8, i] →
      Runs (.fmovi c f i) s c r [fpOpcode f 8, i] (fun x => { x with ring := rest }) (fun d => { d with
        fpr := tset 0 d.fpr (fpD i) (BitVec.ofNat 64 (v.toNat % 2 ^ (fpShape f).width))
        fpPoison := adel (fpD i) d.fpPoison }))

/-- FP arithmetic and conversions are tagged operations, rounded by the rounding mode that ASR holds at the issue: the tag holds the
result and the flags, and fd is pending until TAG_RETURN (R168, R220, R221, R224). -/
def Sys2Proof.Stated.FpTagged : Prop :=
  ∀ (c : CoreId) (f : FpFmt) (i : BitVec 8) (s : State) (r : Nat), Bare s c → Stated.fpReady s c r i → (s.at_ c r).tagFree →
    (∀ p ∈ (
      let h := fpShape f
      let m := asrRm (s.at_ c r).asr
      let a := h.read (Stated.fpr s c (fpD i)).toNat
      let b := h.read (Stated.fpr s c (fpS i)).toNat
      [(.fadd c f i, [fpOpcode f 0x0, i], fpAdd h m a b),
       (.fsub c f i, [fpOpcode f 0x1, i], fpAdd h m a b.neg),
       (.fmul c f i, [fpOpcode f 0x2, i], fpMul h m a b),
       (.fdiv c f i, [fpOpcode f 0x3, i], fpDiv h m a b),
       (.fsqrt c f i, [fpOpcode f 0x4, i], fpSqrt h m b),
       (.fcvt c f i, [fpOpcode f 0xF, i], fpConvert h m ((match f with | .f64 => fp32 | .f32 => fp64).read (Stated.fpr s c (fpS i)).toNat))]
        : List (Instr × List Byte × Nat × Word)), Issues s c r p.2.1 →
      RunsTo p.1 s c r p.2.1 ((s.at_ c r).pc.toNat + 2 + s.prefixLen c)
        (fun x => { x with
          tags := aput x.nextTag (Stated.fpRec x (fpD i) (s.issuing c).tagCtr (.value (BitVec.ofNat 64 p.2.2.1) p.2.2.2)) x.tags })
        (fun d => { d with
          fpPend := aput (fpD i) (s.at_ c r).nextTag d.fpPend
          fpPoison := adel (fpD i) d.fpPoison })
        (fun t => { t with tagCtr := t.tagCtr + 1 })) ∧
    (∀ (v : Word) (rest : List Slot), fpS i = 0 → (s.at_ c r).ring = .val v :: rest → Issues s c r [fpOpcode f 0xA, i] →
      RunsTo (.fcvti c f i) s c r [fpOpcode f 0xA, i] ((s.at_ c r).pc.toNat + 2 + s.prefixLen c)
        (fun x => { x with
          ring := rest
          tags := aput x.nextTag (Stated.fpRec x (fpD i) (s.issuing c).tagCtr (.value
            (BitVec.ofNat 64 (fpOfInt (fpShape f) (asrRm x.asr) (fpInt f v)).1) (fpOfInt (fpShape f) (asrRm x.asr) (fpInt f v)).2)) x.tags })
        (fun d => { d with
          fpPend := aput (fpD i) (s.at_ c r).nextTag d.fpPend
          fpPoison := adel (fpD i) d.fpPoison })
        (fun t => { t with tagCtr := t.tagCtr + 1 })) ∧
    (fpS i = 0 → (s.at_ c r).ring.length < ringSize → Issues s c r [fpOpcode f 0xB, i] →
      RunsTagged (.fcvtf c f i) s c r [fpOpcode f 0xB, i] (s.at_ c r).ring { dpc := 0, addr := 0, dest := .stack, arith := true, fp := true, res := some (.value
        (fpLow f (BitVec.ofInt 64 (fpToInt (fpShape f).width ((fpShape f).read (Stated.fpr s c (fpD i)).toNat)).1))
        (fpToInt (fpShape f).width ((fpShape f).read (Stated.fpr s c (fpD i)).toNat)).2) })

/-- All of `FpQuick`, `FpStack`, `FpTagged`. -/
def Obligations.FloatingPoint : Prop := Stated.FpQuick ∧ Stated.FpStack ∧ Stated.FpTagged


/-! ## System instructions and core control numbers -/

/-- CTLRD pushes the register that its number names: the context's own registers, and under SYSCTL authority those of the core and of
translation; ASR_ACCESS reads ASR. Nothing else changes (R212, R228, R275). -/
def Sys2Proof.Stated.ControlReads : Prop :=
  ∀ (c : CoreId) (s : State) (r : Nat), Bare s c → (s.at_ c r).ring.length < ringSize → (s.at_ c r).sysctl = true →
    (s.at_ c r).arithTag = none →
    let x := s.at_ c r
    let d := (s.issuing c).core (s.coreKey c)
    ∀ p ∈ (
      [(.ctlrd c 0x011, 0xF1 :: leBytes 2 0x011, bitIf 1 d.bpen ||| bitIf 0 d.fuse),
       (.ctlrd c 0x020, 0xF1 :: leBytes 2 0x020, x.mph),
       (.ctlrd c 0x021, 0xF1 :: leBytes 2 0x021, x.mpl),
       (.ctlrd c 0x050, 0xF1 :: leBytes 2 0x050, x.asr),
       (.asrAccess c false, 0xF1 :: leBytes 2 0x050, x.asr),
       (.ctlrd c 0x061, 0xF1 :: leBytes 2 0x061, x.wtime),
       (.ctlrd c 0x080, 0xF1 :: leBytes 2 0x080, x.pkeys),
       (.ctlrd c 0x081, 0xF1 :: leBytes 2 0x081, x.xlat),
       (.ctlrd c 0x082, 0xF1 :: leBytes 2 0x082, x.s1root),
       (.ctlrd c 0x083, 0xF1 :: leBytes 2 0x083, x.s2root),
       (.ctlrd c 0x084, 0xF1 :: leBytes 2 0x084, x.walka1),
       (.ctlrd c 0x085, 0xF1 :: leBytes 2 0x085, x.walka2),
       (.ctlrd c 0x406, 0xF1 :: leBytes 2 0x406, d.evtmr)] : List (Instr × List Byte × Word)),
    Issues s c r p.2.1 → Runs p.1 s c r p.2.1 (fun y => { y with ring := .val p.2.2 :: y.ring }) id

/-- CTLWR takes one word to the register that its number names, in the bits that the register has; CCW_WRITE and ASR_ACCESS are writes of
CCW and ASR. Nothing else changes (R213, R228, R231, R275). -/
def Sys2Proof.Stated.ControlWrites : Prop :=
  ∀ (c : CoreId) (s : State) (r : Nat) (v : Word) (rest : List Slot), s.coreKey c ≠ wardenKey → Bare s c →
    (s.at_ c r).ring = .val v :: rest → (s.at_ c r).sysctl = true → (s.at_ c r).arithTag = none → ∀ p ∈ (
      [(.ctlwr c 0x050, 0xF2 :: leBytes 2 0x050, fun y => { y with asr := asrWrite y.asr v }),
       (.asrAccess c true, 0xF2 :: leBytes 2 0x050, fun y => { y with asr := asrWrite y.asr v }),
       (.ctlwr c 0x061, 0xF2 :: leBytes 2 0x061, fun y => { y with wtime := v }),
       (.ctlwr c 0x080, 0xF2 :: leBytes 2 0x080, fun y => { y with pkeys := v &&& 0x7777777777777777 }),
       (.ctlwr c 0x081, 0xF2 :: leBytes 2 0x081, fun y => { y with xlat := v &&& 0xCFFFFFFF00000000 }),
       (.ctlwr c 0x082, 0xF2 :: leBytes 2 0x082, fun y => { y with s1root := v &&& 0x7FFFFFFFFF000 }),
       (.ctlwr c 0x083, 0xF2 :: leBytes 2 0x083, fun y => { y with s2root := v &&& 0x7FFFFFFFFF000 }),
       (.ctlwr c 0x060, 0xF2 :: leBytes 2 0x060, fun y => { y with
          prio := BitVec.ofNat 2 (fld v 58 57)
          ct := bitAt v 56
          rsm := bitAt v 55
          wmask := BitVec.ofNat 4 (fld v 54 51) }),
       (.ccwWrite c, 0xF2 :: leBytes 2 0x060, fun y => { y with
          prio := BitVec.ofNat 2 (fld v 58 57)
          ct := bitAt v 56
          rsm := bitAt v 55
          wmask := BitVec.ofNat 4 (fld v 54 51) })] : List (Instr × List Byte × (Ctx → Ctx))),
    Issues s c r p.2.1 → Runs p.1 s c r p.2.1 (fun y => p.2.2 { y with ring := rest }) id

/-- The exception `e` of an instruction whose bytes F has fetched: it is taken in the state at the issue, in which F has used the lines, and a
single step ends (R164, R191, R414). -/
def Sys2Proof.Stated.raised (s : State) (c : CoreId) (r : Nat) (code : List Byte) (e : ExcReport) : State :=
  ((((((s.issuing c).modCtx (s.coreKey c) r Ctx.found).modCtx (s.coreKey c) r (fun y => y.land (s.at_ c r).prod (s.at_ c r).rkeyNext)).modCore
    (s.coreKey c) (fun d => ((s.issuing c).codeLines (s.coreKey c) (s.at_ c r) (s.prefixLen c + code.length)).foldl Core.useLine d)).takeExc
      (s.coreKey c) r e).stepped (s.coreKey c))

/-- A number that no chapter defines, or a capability transfer by CTLRD, is an illegal instruction; a number that needs SYSCTL authority raises CF with cause SYSCTL without it, and the instruction does nothing else (R188, R212, R250). -/
def Sys2Proof.Stated.ControlRefusals : Prop :=
  ∀ (c : CoreId) (s : State) (r : Nat) (f : BitVec 16), Bare s c →
    let rd : List Byte := 0xF1 :: leBytes 2 f.toNat
    let wr : List Byte := 0xF2 :: leBytes 2 f.toNat
    ((0x1000 ≤ f.toNat ∨ ctlNum f.toNat = false) →
      (Issues s c r rd → exec (.ctlrd c f) s = .next (Stated.raised s c r rd ilReport)) ∧
      (Issues s c r wr → exec (.ctlwr c f) s = .next (Stated.raised s c r wr ilReport))) ∧
    (capNum f.toNat = true → Issues s c r rd → exec (.ctlrd c f) s = .next (Stated.raised s c r rd ilReport)) ∧
    (f.toNat < 0x1000 → ctlNum f.toNat = true → capNum f.toNat = false → sysctlNum f.toNat = true → (s.at_ c r).sysctl = false →
      (Issues s c r rd → exec (.ctlrd c f) s = .next (Stated.raised s c r rd (cfReport cSysctl kOther segT 0))) ∧
      (Issues s c r wr → exec (.ctlwr c f) s = .next (Stated.raised s c r wr (cfReport cSysctl kOther segT 0))))

/-- All of `ControlReads`, `ControlWrites`, `ControlRefusals`. -/
def Obligations.CoreControls : Prop := Stated.ControlReads ∧ Stated.ControlWrites ∧ Stated.ControlRefusals


/-- A capability transfer moves a whole capability between segment register `d`, which the operand names, and TSBP, ETSB or, under SYSCTL
authority, DTP, whose write takes DAUTH from seg.t (R281, R301). -/
def Obligations.CapabilityTransfers : Prop :=
  ∀ (c : CoreId) (s : State) (r d : Nat) (e t : Cap) (rest : List Slot), d < 8 → Bare s c →
    (s.at_ c r).ring = .val (BitVec.ofNat 64 d) :: rest → (s.at_ c r).sysctl = true →
    ((s.at_ c r).segReady d = .ok e →
      (Issues s c r (0xF2 :: leBytes 2 0x090) → Runs (.tsbpSet c) s c r (0xF2 :: leBytes 2 0x090) (fun y => { y with
        ring := rest
        tsbp := e }) id) ∧
      (Issues s c r (0xF2 :: leBytes 2 0x091) → Runs (.etsbSet c) s c r (0xF2 :: leBytes 2 0x091) (fun y => { y with
        ring := rest
        etsb := e }) id) ∧
      ((s.at_ c r).segReady segT = .ok t → Issues s c r (0xF2 :: leBytes 2 0x092) →
        Runs (.dtpSet c) s c r (0xF2 :: leBytes 2 0x092) (fun y => { y with ring := rest }) (fun k => { k with
          dtp := e
          dauth := t }))) ∧
    (d ≠ segC → alook d (s.at_ c r).segPend = none → alook d (s.at_ c r).segPoison = none →
      (Issues s c r (0xF2 :: leBytes 2 0x098) → Runs (.tsbpGet c) s c r (0xF2 :: leBytes 2 0x098) (fun y => { y.setSeg d y.tsbp with ring := rest }) id) ∧
      (Issues s c r (0xF2 :: leBytes 2 0x099) → Runs (.etsbGet c) s c r (0xF2 :: leBytes 2 0x099) (fun y => { y.setSeg d y.etsb with ring := rest }) id) ∧
      (Issues s c r (0xF2 :: leBytes 2 0x09A) → Runs (.dtpGet c) s c r (0xF2 :: leBytes 2 0x09A) (fun y => { y.setSeg d ((s.issuing c).core (s.coreKey c)).dtp with ring := rest }) id))

/-- PIPECFG_ICINV empties the instruction cache and writes the two switches; EVSYNC ends the mask window; RSMODE sets the return-stack
mode; YIELD with no other context to run goes on, and else leaves its context READY; one that is marked for holding is held there (R164, R203, R237,
R299, R353). -/
def Sys2Proof.Stated.PipelineControls : Prop :=
  (∀ (c : CoreId) (s : State) (r : Nat) (v : Word) (rest : List Slot), Issues s c r (0xF2 :: leBytes 2 0x011) → Bare s c → (s.at_ c r).sysctl = true →
    (s.at_ c r).ring = .val v :: rest → v.getLsbD 2 = true →
    Runs (.pipecfgIcinv c) s c r (0xF2 :: leBytes 2 0x011) (fun y => { y with ring := rest }) (fun k => { k with
      bpen := v.getLsbD 1
      fuse := v.getLsbD 0
      icache := [] })) ∧
  (∀ (c : CoreId) (s : State) (r : Nat), Issues s c r [0xF0, 0x03] → Bare s c →
    Runs (.evsync c) s c r [0xF0, 0x03] id (fun k => { k with window := k.window.map (fun w => (w.1, w.2.1, true)) })) ∧
  (∀ (c : CoreId) (s : State) (r : Nat) (v : Word) (rest : List Slot), Issues s c r [0xF0, 0x07] → Bare s c → (s.at_ c r).ring = .val v :: rest →
    v.toNat < 2 → Runs (.rsmode c) s c r [0xF0, 0x07] (fun y => { y with
      ring := rest
      rsm := v == 1 }) id) ∧
  (∀ (c : CoreId) (s : State) (r : Nat), Issues s c r [0xF0, 0x01] → Bare s c → (s.at_ c r).hold = false →
    ((∀ i, i < 16 → i ≠ r → (s.issuing c).runnable (s.coreKey c) i = true →
        ((s.issuing c).ctx (s.coreKey c) i).prio.toNat < (s.at_ c r).prio.toNat) →
      Runs (.yield c) s c r [0xF0, 0x01] id id) ∧
    (∀ i, i < 16 → i ≠ r → (s.issuing c).runnable (s.coreKey c) i = true →
      (s.at_ c r).prio.toNat ≤ ((s.issuing c).ctx (s.coreKey c) i).prio.toNat → ((s.issuing c).core (s.coreKey c)).rps = [] →
      Runs (.yield c) s c r [0xF0, 0x01] (fun y => { y with st := .ready }) (fun k => { k with run := none }))) ∧
  (∀ (c : CoreId) (s : State) (r : Nat), Issues s c r [0xF0, 0x01] → Bare s c → (s.at_ c r).hold = true → (s.at_ c r).tags = [] →
    ∃ u, exec (.yield c) s = .next u ∧ (u.ctx (s.coreKey c) r).held = true ∧ (u.ctx (s.coreKey c) r).st ≠ .running ∧
      (u.core (s.coreKey c)).run = none ∧ (u.ctx (s.coreKey c) r).pc = BitVec.ofNat 56 ((s.at_ c r).pc.toNat + 2) ∧ u.mem = (s.issuing c).mem)

/-- WAIT with a pending enabled source, or with none enabled, goes on; a source that becomes pending with it abandons the sleep and sets WWON;
else its context sleeps and the core is free (R241). -/
def Sys2Proof.Stated.WaitSleeps : Prop :=
  ∀ (c : CoreId) (s : State) (r : Nat), Issues s c r [0xF0, 0x00] → Bare s c → (s.at_ c r).hold = false →
    (((s.at_ c r).pend &&& (s.at_ c r).wmask ≠ 0 ∨ (s.at_ c r).wmask = 0) → Runs (.wait c 0) s c r [0xF0, 0x00] id id) ∧
    (∀ same : BitVec 4, (s.at_ c r).pend &&& (s.at_ c r).wmask = 0 → same &&& (s.at_ c r).wmask ≠ 0 →
      Runs (.wait c same) s c r [0xF0, 0x00] (fun y => { y with wwon := true }) id) ∧
    ((s.at_ c r).pend &&& (s.at_ c r).wmask = 0 → (s.at_ c r).wmask ≠ 0 →
      ∃ u, exec (.wait c 0) s = .next u ∧ (u.ctx (s.coreKey c) r).st = .sleeping ∧
        (u.ctx (s.coreKey c) r).pc = BitVec.ofNat 56 ((s.at_ c r).pc.toNat + 2) ∧ (u.core (s.coreKey c)).run = none ∧ u.mem = (s.issuing c).mem)

/-- All of `PipelineControls`, `WaitSleeps`. -/
def Obligations.PipelineAndWaits : Prop := Stated.PipelineControls ∧ Stated.WaitSleeps


/-- The packet that STIM places in the FIFO. -/
def Sys2Proof.Stated.stimPkt (now k port : Nat) (ctx : BitVec 20) (v : Word) (drops : Nat) : TracePkt where
  time := now
  shelf := keyShelf k
  slot := keySlot k
  port := port
  kind := 0
  ctx := ctx
  value := v
  drops := drops

/-- STIM takes a word, and where the trace and its port are on a packet with it enters the core's FIFO of 16, or is counted as dropped
when the FIFO is full (R419). -/
def Sys2Proof.Stated.StimPackets : Prop :=
  ∀ (c : CoreId) (u : BitVec 8) (s : State) (r : Nat) (v : Word) (rest : List Slot), u.toNat < 32 → Issues s c r [0xF0, 0x09, u] → Bare s c →
    (s.at_ c r).ring = .val v :: rest →
    ((getB (s.issuing c) .vxTrcfg 63 && getB (s.issuing c) .vxTrcfg u.toNat) = false →
      Runs (.stim c u) s c r [0xF0, 0x09, u] (fun y => { y with ring := rest }) id) ∧
    ((getB (s.issuing c) .vxTrcfg 63 && getB (s.issuing c) .vxTrcfg u.toNat) = true → ((s.issuing c).core (s.coreKey c)).stim.length < 16 →
      Runs (.stim c u) s c r [0xF0, 0x09, u] (fun y => { y with ring := rest }) (fun k => { k with
        drops := 0
        stim := k.stim ++ [Stated.stimPkt (s.issuing c).now (s.coreKey c) u.toNat (s.at_ c r).ctx v k.drops] }))

/-- BKPT with HALTBK set halts its core at the BKPT, where a trigger reaches it; else it raises descriptor 11 (R411). -/
def Sys2Proof.Stated.Breakpoints : Prop :=
  ∀ (c : CoreId) (s : State) (r : Nat), Issues s c r [0xF0, 0x06] → Bare s c →
    (getB (s.issuing c) .vxCtl 63 = true → (s.issuing c).haltable (s.coreKey c) = true → (∀ g ∈ (s.issuing c).groupsOf (s.coreKey c), g = 0) →
      RunsTo (.bkpt c) s c r [0xF0, 0x06] (s.at_ c r).pc.toNat id (fun k => { k with haltReq := k.haltReq || !k.halted }) id) ∧
    ((getB (s.issuing c) .vxCtl 63 = false ∨ (s.issuing c).haltable (s.coreKey c) = false) →
      exec (.bkpt c) s = .next (Stated.raised s c r [0xF0, 0x06] (plainReport dBK)))

/-- All of `StimPackets`, `Breakpoints`. -/
def Obligations.DebugInstructions : Prop := Stated.StimPackets ∧ Stated.Breakpoints


/-! ## Loads, stores and atomics -/

/-- The access of `z` bytes that the instruction makes at offset `off` passes the check of Table 10.3 and lies at address `a` of the
core's own memory, on a page without side effects, and no buffered store covers a byte of it. -/
def Sys2Proof.Stated.reaches (s : State) (c : CoreId) (r : Nat) (kind : AKind) (off z al a : Nat) : Prop :=
  (∃ ea, (s.issuing c).checkAccess (s.coreKey c) (s.at_ c r).found ((s.issuing c).dataSeg (s.coreKey c)) kind off z al false =
    .ok [⟨.mem a, false, ea, z⟩]) ∧ isLocal (s.coreKey c) (.mem a) = true ∧
  (∀ i, i < z → bufferedByte ((s.issuing c).core (s.coreKey c)).sbuf (.mem (a + i)) = none) ∧ (s.issuing c).badIn a z = false

/-- A load of the core's own memory puts the zero- or sign-extended bytes, the lowest first, in place of its offset, with or without a SEG
prefix, and changes nothing else, no byte of memory in particular (R6, R167, R189). -/
def Obligations.LocalLoads : Prop :=
  ∀ (c : CoreId) (s : State) (r a : Nat) (off : Word) (rest : List Slot), (s.at_ c r).ring = .val off :: rest → ∀ p ∈ (
      [(.ldb c, [0x40], 1, fun v => BitVec.ofNat 64 v),
       (.ldbs c, [0x41], 1, fun v => BitVec.ofInt 64 (BitVec.ofNat 8 v).toInt),
       (.ldh c, [0x42], 2, fun v => BitVec.ofNat 64 v),
       (.ldhs c, [0x43], 2, fun v => BitVec.ofInt 64 (BitVec.ofNat 16 v).toInt),
       (.ldw c, [0x44], 4, fun v => BitVec.ofNat 64 v),
       (.ldws c, [0x45], 4, fun v => BitVec.ofInt 64 (BitVec.ofNat 32 v).toInt),
       (.ld c, [0x46], 8, fun v => BitVec.ofNat 64 v)] : List (Instr × List Byte × Nat × (Nat → Word))),
    Stated.reaches s c r .load off.toNat p.2.2.1 1 a →
    Issues s c r p.2.1 → Runs p.1 s c r p.2.1 (fun x => { x with ring := .val (p.2.2.2 (leNat ((s.issuing c).bytes a p.2.2.1))) :: rest }) id

/-- A store whose access passes enters the store buffer when that has room, with its low bytes, the lowest first, and takes its operands;
memory changes only when the entry drains (R6, R176). -/
def Sys2Proof.Stated.BufferedStores : Prop :=
  ∀ (c : CoreId) (s : State) (r : Nat) (v off : Word) (rest : List Slot) (ps : List Piece),
    (s.at_ c r).ring = .val off :: .val v :: rest → (s.issuing c).detOn (s.coreKey c) = false → ∀ p ∈ (
      [(.stb c, [0x48], 1), (.sth c, [0x49], 2), (.stw c, [0x4A], 4), (.st c, [0x4B], 8)] : List (Instr × List Byte × Nat)),
    (s.issuing c).checkAccess (s.coreKey c) (s.at_ c r).found ((s.issuing c).dataSeg (s.coreKey c)) .store off.toNat p.2.2 = .ok ps →
    let buf := appendEnts false ((s.issuing c).core (s.coreKey c)).sbuf
      (((s.issuing c).modCtx (s.coreKey c) r Ctx.found).storeEnts (s.coreKey c) r ps (leBytes p.2.2 v.toNat) none)
    sbufCount buf ≤ sbufSize →
    Issues s c r p.2.1 → Runs p.1 s c r p.2.1 (fun x => { x with ring := rest }) (fun d => { d with sbuf := buf })

/-- STORE_DRAIN takes the oldest entry of a core's buffer, one with which no other drains, to its block of shelf memory or SRAM: each byte of
the entry is there, and every byte outside it is as it was (R176). -/
def Sys2Proof.Stated.StoreDrains : Prop :=
  ∀ (c : CoreId) (s : State) (a : Nat) (e : StoreEnt) (more : List StoreEnt), s.coreLive (s.coreKey c) = true →
    (s.core (s.coreKey c)).sbuf = e :: more → e.sent = false → e.block = .mem a → (0x8000000 ≤ a ∨ s.shelfGone (a / 0x200000) = false) →
    (e.bytes.map (·.1)).Nodup → (∀ o, more.head? = some o → o.joined = false ∧ o.tied = false) →
    ∃ u, exec (.storeDrain c) s = .next u ∧ (u.core (s.coreKey c)).sbuf = more ∧
      (∀ q ∈ e.bytes, u.byte (a + q.1) = q.2) ∧ (∀ b, (∀ q ∈ e.bytes, b ≠ a + q.1) → u.byte b = s.byte b)

/-- FENCE with an empty buffer and no store on its way pushes the count of store errors and clears it (R177). -/
def Sys2Proof.Stated.FenceCompletes : Prop :=
  ∀ (c : CoreId) (s : State) (r : Nat), Issues s c r [0xF0, 0x02] → Bare s c → ((s.issuing c).core (s.coreKey c)).sbuf = [] →
    (s.issuing c).storePending (s.coreKey c) = false → (s.at_ c r).ring.length < ringSize →
    Runs (.fence c) s c r [0xF0, 0x02] (fun x => { x with
      ring := .val (BitVec.ofNat 64 x.storeErrs) :: x.ring
      storeErrs := 0 }) id

/-- All of `BufferedStores`, `StoreDrains`, `FenceCompletes`. -/
def Obligations.StoresAndFences : Prop := Stated.BufferedStores ∧ Stated.StoreDrains ∧ Stated.FenceCompletes


/-- An atomic on an aligned word of the core's own memory puts the old word in place of its operands and stores the new one: the eight
bytes at that address are the new word's, and every other byte of memory is as it was (R215). -/
def Obligations.LocalAtomics : Prop :=
  ∀ (c : CoreId) (s : State) (r a : Nat) (off e n v : Word) (rest : List Slot),
    let old := (s.issuing c).word a
    ∀ p ∈ (
      [(.cas c, [0x4C], [n, e, off], if old = e then n else old),
       (.aadd c, [0x4D], [v, off], old + v),
       (.aor c, [0x4E], [v, off], old ||| v),
       (.aand c, [0x4F], [v, off], old &&& v)] : List (Instr × List Byte × List Word × Word)),
    (s.at_ c r).ring = p.2.2.1.map Slot.val ++ rest → Stated.reaches s c r .atomic off.toNat 8 8 a → Issues s c r p.2.1 →
    ∃ u, exec p.1 s = .next u ∧ (u.ctx (s.coreKey c) r).ring = .val old :: rest ∧
      (u.ctx (s.coreKey c) r).pc = BitVec.ofNat 56 ((s.at_ c r).pc.toNat + 1 + s.prefixLen c) ∧ u.word a = p.2.2.2 ∧
      (∀ b, b < a ∨ a + 8 ≤ b → u.byte b = (s.issuing c).byte b) ∧ u.regs = (s.issuing c).regs

/-- LDC from the core's own memory loads a capability with the tag of its granule; STC enters the store buffer with the tag (R252, R256). -/
def Obligations.CapabilityLoadsAndStores : Prop :=
  (∀ (c : CoreId) (d : BitVec 3) (s : State) (r a : Nat) (off : Word) (rest : List Slot), d.toNat ≠ segC → Issues s c r [0x50 + d.setWidth 8] →
    alook d.toNat (s.at_ c r).segPend = none → alook d.toNat (s.at_ c r).segPoison = none → (s.at_ c r).ring = .val off :: rest →
    Stated.reaches s c r .ldc off.toNat 16 16 a →
    Runs (.ldc c d) s c r [0x50 + d.setWidth 8] (fun x => ({ x with ring := rest }).setSeg d.toNat
      (capOfWords ((s.issuing c).word a) ((s.issuing c).word (a + 8)) ((s.issuing c).tagAt a))) id) ∧
  (∀ (c : CoreId) (n : BitVec 3) (s : State) (r : Nat) (off : Word) (rest : List Slot) (e : Cap) (ps : List Piece), Issues s c r [0x58 + n.setWidth 8] →
    (s.at_ c r).segReady n.toNat = .ok e → e.g = true → (s.at_ c r).ring = .val off :: rest → (s.issuing c).detOn (s.coreKey c) = false →
    (s.issuing c).checkAccess (s.coreKey c) (s.at_ c r).found ((s.issuing c).dataSeg (s.coreKey c)) .stc off.toNat 16 16 false = .ok ps →
    let buf := appendEnts false ((s.issuing c).core (s.coreKey c)).sbuf
      (((s.issuing c).modCtx (s.coreKey c) r Ctx.found).storeEnts (s.coreKey c) r ps (fromWords e.words) (some e.tag))
    sbufCount buf ≤ sbufSize →
    Runs (.stc c n) s c r [0x58 + n.setWidth 8] (fun x => { x with ring := rest }) (fun d => { d with sbuf := buf }))

/-! ## Long instructions -/

/-- A long instruction over no byte, or over no word, completes at once: BMOVE and BFILL leave nothing, CRC64 the value that it began
with (R204, R209). -/
def Sys2Proof.Stated.EmptyLong : Prop :=
  ∀ (c : CoreId) (s : State) (r : Nat) (x y : Word) (rest : List Slot), Bare s c →
    (∀ (d q : Nat), d < 8 → q < 8 → (s.at_ c r).ring = .val 0 :: .val y :: .val x :: rest →
      let two := BitVec.ofNat 8 (16 * d + q)
      let one := BitVec.ofNat 8 q
      (Issues s c r [0x81, two] → Runs (.bmove c two) s c r [0x81, two] (fun z => { z with ring := rest }) id) ∧
      (Issues s c r [0x82, one] → Runs (.bfill c one) s c r [0x82, one] (fun z => { z with ring := rest }) id) ∧
      (Issues s c r [0x83, one] → Runs (.crc64 c one) s c r [0x83, one] (fun z => { z with ring := .val x :: rest }) id)) ∧
    ((s.at_ c r).ring = .val y :: rest → (s.at_ c r).mprog = 0 → (s.at_ c r).mbuf = [] → rest.length < ringSize →
      (Issues s c r [0x84, 0, 0] → Runs (.stm c 0) s c r [0x84, 0, 0] (fun z => { z with ring := rest }) id) ∧
      (Issues s c r [0x85, 0, 0] → Runs (.ldm c 0) s c r [0x85, 0, 0] (fun z => { z with ring := rest }) id))

/-- The last element of a CRC64 leaves the CRC over its bytes; any other element leaves what is still to do in place of the operands, and
the instruction stands (R204, R207). The element ends at the next multiple of 16. -/
def Sys2Proof.Stated.CrcElements : Prop :=
  ∀ (c : CoreId) (q : Nat) (s : State) (r a ea : Nat) (n off crc : Word) (rest : List Slot) (e : Cap), q < 8 →
    Issues s c r [0x83, BitVec.ofNat 8 q] → Bare s c →
    (s.at_ c r).ring = .val n :: .val off :: .val crc :: rest → n ≠ 0 → (s.at_ c r).readBad = none →
    (s.at_ c r).checkCap q .load off.toNat n.toNat 1 false = .ok (e, ea) →
    let m := min n.toNat (16 - ea % 16)
    (s.issuing c).checkPages (s.coreKey c) (s.at_ c r).found e q .load ea m = .ok [⟨.mem a, false, ea, m⟩] →
    isLocal (s.coreKey c) (.mem a) = true →
    (∀ i, i < m → bufferedByte ((s.issuing c).core (s.coreKey c)).sbuf (.mem (a + i)) = none) →
    ((s.issuing c).shelf (a / 0x200000)).phase = .active → (s.issuing c).isRetired (a / 0x200000) = false →
    (s.issuing c).badIn a m = false →
    (m = n.toNat → ∃ u, exec (.crc64 c (BitVec.ofNat 8 q)) s = .next u ∧
      (u.ctx (s.coreKey c) r).ring = .val (((s.issuing c).bytes a m).foldl crc64Byte crc) :: rest ∧
      (u.ctx (s.coreKey c) r).pc = BitVec.ofNat 56 ((s.at_ c r).pc.toNat + 2) ∧ u.mem = (s.issuing c).mem) ∧
    (m < n.toNat → ∃ u, exec (.crc64 c (BitVec.ofNat 8 q)) s = .next u ∧
      (u.ctx (s.coreKey c) r).ring = .val (n - BitVec.ofNat 64 m) :: .val (off + BitVec.ofNat 64 m) ::
        .val (((s.issuing c).bytes a m).foldl crc64Byte crc) :: rest ∧
      (u.ctx (s.coreKey c) r).pc = (s.at_ c r).pc ∧ u.mem = (s.issuing c).mem)

/-- All of `EmptyLong`, `CrcElements`. -/
def Obligations.LongInstructions : Prop := Stated.EmptyLong ∧ Stated.CrcElements


/-- QWR by an owner with authority puts 32 bytes of memory at word `i` of its staged item, and nothing else of memory changes (R214). -/
def Obligations.QueueWrites : Prop :=
  ∀ (c : CoreId) (s : State) (r a n q i : Nat) (off : Word) (rest : List Slot) (e : Cap) (t : Staged), s.coreKey c ≠ wardenKey →
    n < 64 → q < 1024 → i < 256 → Issues s c r [0x89] →
    (s.at_ c r).ring = .val (BitVec.ofNat 64 (1024 * n + q)) :: .val (BitVec.ofNat 64 i) :: .val off :: rest →
    (s.at_ c r).segReady segX1 = .ok e → e.queueAuth true (1024 * n + q) = true → (s.at_ c r).readBad = none →
    Stated.reaches s c r .load off.toNat 32 32 a → ((s.issuing c).shelf (a / 0x200000)).phase = .active →
    (s.issuing c).isRetired (a / 0x200000) = false → (s.issuing c).qAbsent n q = false → ((s.issuing c).shelf n).phase ≠ .gated →
    ((s.issuing c).queue n q).stagedOf (.ctx (s.coreKey c) r) = some t → i < t.len → t.voided = false →
    ∃ u, exec (.qwr c) s = .next u ∧ (u.ctx (s.coreKey c) r).ring = rest ∧
      (∀ j, j < 32 → u.byte (areaAddr n t.off i + j) = (s.issuing c).byte (a + j)) ∧
      (∀ b, b < areaAddr n t.off i ∨ areaAddr n t.off i + 32 ≤ b → u.byte b = (s.issuing c).byte b)

/-! ## Queue, ledger and global instructions -/

/-- Command `i`, an instruction with the bytes `code`, completes an operation on queue `q` of shelf `n`: a pending slot whose tag holds `w`
stands where its operands were, and the queue is `y`; nothing else changes. -/
def Sys2Proof.Stated.queueRuns (i : Instr) (s : State) (c : CoreId) (r : Nat) (code : List Byte) (n q : Nat) (rest : List Slot) (y : Queue)
    (w : Word) : Prop :=
  RunsTo i s c r code ((s.at_ c r).pc.toNat + code.length + s.prefixLen c)
    (fun x => { x with
      ring := .tag x.nextTag :: rest
      tags := aput x.nextTag { dpc := x.pc, addr := 0, dest := .stack, gen := (s.issuing c).tagCtr, res := some (.value w 0) } x.tags })
    id (fun t => { t.setQueue n q y with tagCtr := t.tagCtr + 1 })

/-- Queue instructions with authority at a queue that is present and whose shelf is awake, without a reader that owns it and without event
sources bound to it: what the queue and the status word become (R96, R97, R99, R100, R196). QRES, QWR and QCOMMIT need W, and QPOP, QREL and
QFLUSH need R; without it the status is NOAUTH and no queue changes. A QCOMMIT after a QWR without authority answers NOAUTH and frees what
the producer had staged. -/
def Obligations.QueueInstructions : Prop :=
  ∀ (c : CoreId) (s : State) (r n q : Nat) (rest : List Slot) (e : Cap), s.coreKey c ≠ wardenKey → n < 64 → q < 1024 →
    Bare s c → (s.at_ c r).tagFree → rest.length < ringSize → (s.at_ c r).segReady segX1 = .ok e →
    let t := s.issuing c
    let x := t.queue n q
    let o := QOwner.ctx (s.coreKey c) r
    let id := BitVec.ofNat 64 (1024 * n + q)
    let word := fun (st : QStatus) => queueWord x.epoch.toNat 0 st
    let answers := fun (i : Instr) (code : List Byte) (st : QStatus) =>
      Issues s c r code → RunsTagged i s c r code rest { dpc := 0, addr := 0, dest := .stack, res := some (.value (word st) 0) }
    let gone := { x with staged := dropFirst (fun u => u.owner == o) x.staged, denied := x.denied.filter (· != o) }
    let lacks := x.denied.contains o = true ∨ ∃ g, x.stagedOf o = some g ∧ g.noauth = true
    (∀ (len : Word) (a : Nat), (s.at_ c r).ring = .val len :: .val id :: rest →
      (e.queueAuth true (1024 * n + q) = false → answers (.qres c) [0x88] .noAuth) ∧
      (e.queueAuth true (1024 * n + q) = true → t.qAbsent n q = true → answers (.qres c) [0x88] .absent) ∧
      (e.queueAuth true (1024 * n + q) = true → t.qAbsent n q = false → (t.shelf n).phase ≠ .gated →
        (1 ≤ len.toNat → len.toNat ≤ t.qMax n q → x.slots + x.waiting.length < t.qStage n q → t.qArea n q len.toNat = some a →
          Issues s c r [0x88] → Stated.queueRuns (.qres c) s c r [0x88] n q rest
            (Queue.served { x with staged := x.staged ++ [{ owner := o, off := a, len := len.toNat }] } n o) (word .ok)) ∧
        (t.qMax n q < len.toNat → answers (.qres c) [0x88] .tooBig) ∧
        (1 ≤ len.toNat → len.toNat ≤ t.qMax n q → (t.qStage n q ≤ x.slots + x.waiting.length ∨ t.qArea n q len.toNat = none) →
          answers (.qres c) [0x88] .busy))) ∧
    ((s.at_ c r).ring = .val id :: rest →
      (e.queueAuth true (1024 * n + q) = false → ¬ lacks → answers (.qcommit c) [0x8A] .noAuth) ∧
      (e.queueAuth false (1024 * n + q) = false → ∀ b, answers (.qpop ⟨c, b⟩) [0x8B] .noAuth ∧ answers (.qrel c) [0x8C] .noAuth ∧
        answers (.qflush ⟨c, b⟩) [0x8D] .noAuth) ∧
      (e.queueAuth true (1024 * n + q) = true → t.qAbsent n q = false → (t.shelf n).phase ≠ .gated → Issues s c r [0x8A] →
        (∀ g, ¬ lacks → x.stagedOf o = some g → g.voided = false → x.items.length < t.qDepth n q → x.popAt ≠ some t.now →
          t.qOwner n q 0 = none → (∀ j, j < 192 → (t.src n (64 + j)).queue.toNat ≠ q) →
          Stated.queueRuns (.qcommit c) s c r [0x8A] n q rest (Queue.served { gone with
            items := x.items ++ [{ off := g.off, len := g.len, ct := (s.at_ c r).ct, byGlaze := false }] } n o) (word .ok)) ∧
        (lacks → Stated.queueRuns (.qcommit c) s c r [0x8A] n q rest (gone.served n o) (word .noAuth)) ∧
        (∀ g, ¬ lacks → x.stagedOf o = some g → g.voided = true →
          Stated.queueRuns (.qcommit c) s c r [0x8A] n q rest (gone.served n o) (word .flushed)) ∧
        (∀ g, ¬ lacks → x.stagedOf o = some g → g.voided = false → t.qDepth n q ≤ x.items.length →
          Stated.queueRuns (.qcommit c) s c r [0x8A] n q rest (x.served n o) (word .full))) ∧
      (e.queueAuth false (1024 * n + q) = true → t.qAbsent n q = false → (t.shelf n).phase ≠ .gated →
        (∀ i more (same : Bool), x.items = i :: more → (∀ j, j < 192 → (t.src n (64 + j)).queue.toNat ≠ q) → Issues s c r [0x8B] →
          Stated.queueRuns (.qpop ⟨c, same⟩) s c r [0x8B] n q rest (Queue.served { x with
            items := more
            popped := x.popped ++ [(o, i)]
            popAt := if same then some t.now else x.popAt } n o) (queueWord i.off i.len .ok)) ∧
        (∀ same, x.items = [] → answers (.qpop ⟨c, same⟩) [0x8B] .empty) ∧
        (x.popped.any (fun p => p.1 == o) = true → Issues s c r [0x8C] → Stated.queueRuns (.qrel c) s c r [0x8C] n q rest
          (Queue.served { x with popped := dropFirst (fun p => p.1 == o) x.popped } n o) (word .ok)) ∧
        (∀ merged : Bool, (merged = false ∨ x.flushAt ≠ some t.now) → Issues s c r [0x8D] →
          Stated.queueRuns (.qflush ⟨c, merged⟩) s c r [0x8D] n q rest
            { x with
              items := []
              staged := x.staged.map (fun g => { g with voided := true })
              epoch := x.epoch + 1
              flushAt := some t.now }
            (queueWord (x.epoch + 1).toNat 0 .ok))))

/-- The reference of the tag that an instruction of store `r` takes. -/
def Sys2Proof.Stated.ref (s : State) (c : CoreId) (r : Nat) : TagRef where
  core := s.coreKey c
  store := r
  tag := (s.at_ c r).nextTag
  gen := (s.issuing c).tagCtr

/-- LEDRD gives the word of the entry that its TXN names, or 0; LEDSET of an OPEN origin's transaction to ISSUED commits the new image, with
its DEADLINE, where the unit has no mirror target, and BADSTATE or STALE changes no entry (R49, R51, R62, R197). -/
def Sys2Proof.Stated.LedgerInstructions : Prop :=
  ∀ (c : CoreId) (s : State) (r : Nat) (txn v : Word) (rest : List Slot), s.coreKey c ≠ wardenKey → Bare s c →
    (s.at_ c r).tagFree → rest.length < ringSize → (s.at_ c r).ring = .val v :: .val txn :: rest →
    let t := s.issuing c
    let u := keyShelf (s.coreKey c)
    let i := txnIdx txn.toNat
    (Issues s c r [0x92] → RunsTagged (.ledrd c) s c r [0x92] rest { dpc := 0, addr := 0, dest := .stack, res := some (.value (
      if txn.toNat < 2 ^ 48 ∧ txnShelf txn.toNat ∈ t.ledRegions u ∧ (t.ent (txnShelf txn.toNat) i).gen.toNat = txnGen txn.toNat ∧
          v.toNat ≤ 0x38 ∧ v.toNat % 8 = 0
        then ((t.ent (txnShelf txn.toNat) i).words (txnShelf txn.toNat) i).getD (v.toNat / 8) 0 else 0) 0) }) ∧
    (Issues s c r [0x91] → t.named u txn = none →
      RunsTagged (.ledset c) s c r [0x91] rest { dpc := 0, addr := 0, dest := .stack, res := some (.value 3 0) }) ∧
    (∀ e, Issues s c r [0x91] → t.named u txn = some (u, i, e) → e.role = .origin →
      (e.st = .opened → v = 3 → RunsTagged (.ledset c) s c r [0x91] rest { dpc := 0, addr := 0, dest := .stack, res := some (.value 2 0) }) ∧
      (e.st = .opened → v = 2 → (t.shelf u).commits = [] → (t.shelf u).mode = .none → (t.shelf u).adopt = none → t.adopted u = false → t.shelfGone u = false →
        (t.vol u i).lost = false → (t.vol u i).want = none →
        ∃ w, exec (.ledset c) s = .next w ∧ (w.ctx (s.coreKey c) r).ring = .tag (s.at_ c r).nextTag :: rest ∧
          w.ent u i = { e with st := .issued, prep := false, word30 := t.newDeadline u } ∧
          (∀ j, j ≠ i → w.ent u j = t.ent u j) ∧ w.mem = t.mem))

/-- LEDOPEN of a good image whose stream is open, in memory of the core's own, on a unit without a mirror target: the lowest free entry
becomes the OPEN transaction of the issuer, the record's NEXTOUT goes past its packets, and two pending slots stand for TXN and status
(R44, R50, R54, R197). -/
def Sys2Proof.Stated.LedgerOpens : Prop :=
  ∀ (c : CoreId) (s : State) (r a i ri : Nat) (off : Word) (rest : List Slot), s.coreKey c ≠ wardenKey → Issues s c r [0x90] → Bare s c →
    2 ≤ (s.at_ c r).freeTags.length → rest.length + 2 ≤ ringSize → (s.at_ c r).ring = .val off :: rest →
    let t := s.issuing c
    let u := keyShelf (s.coreKey c)
    let words := toWords 8 (t.bytes a 64)
    let im := entryOf words
    let rec_ := t.entNext u ri
    (∃ ea, t.checkBlock (s.coreKey c) r .load off.toNat 64 = .ok [⟨.mem a, false, ea, 64⟩]) → (s.at_ c r).readBad = none →
    (∀ j, j < 64 → bufferedByte (t.core (s.coreKey c)).sbuf (.mem (a + j)) = none) → (t.shelf (a / 0x200000)).phase = .active →
    t.isRetired (a / 0x200000) = false → t.badIn a 64 = false →
    im.role ≠ .stream → badImage words im = false → t.findStream u true im.partner.toNat im.localEp.toNat im.stream.toNat = some (u, ri) →
    rec_.st = .opened → (t.svol u ri).closing = false → ownsStream (s.at_ c r).ctx rec_ = true → (t.svol u ri).seqEnd = false →
    rec_.seqFirst.toNat + im.npkt.toNat < 2 ^ 48 → t.freeEntry u .origin = some i →
    (t.shelf u).commits = [] → (t.shelf u).mode = .none → (t.shelf u).adopt = none → t.adopted u = false → t.shelfGone u = false →
    (t.vol u i).lost = false → (t.vol u i).want = none → i ≠ ri → rec_.role = .stream →
    ∃ w, exec (.ledopen c) s = .next w ∧
      (w.ctx (s.coreKey c) r).ring = .tag ((s.at_ c r).freeTags.getD 1 0) :: .tag ((s.at_ c r).freeTags.getD 0 0) :: rest ∧
      (w.ent u i).st = .opened ∧ (w.ent u i).role = .origin ∧ (w.ent u i).gen = (t.entNext u i).gen + 1 ∧ (w.ent u i).ctx = (s.at_ c r).ctx ∧
      (w.ent u i).seqFirst = rec_.seqFirst ∧ (w.ent u i).npkt = im.npkt ∧ (w.ent u i).partner = im.partner ∧
      (w.ent u ri).seqFirst = rec_.seqFirst + BitVec.ofNat 48 im.npkt.toNat ∧ w.mem = t.mem

/-- All of `LedgerInstructions`, `LedgerOpens`. -/
def Obligations.LedgerOperations : Prop := Stated.LedgerInstructions ∧ Stated.LedgerOpens


/-- GBAR and GRED join an instance that they open and that waits for more; GBCAST at a root without children completes a broadcast of no
byte at once; GRECV without a payload at hand waits for the next; a tag above 15 is BADARG (R129, R130, R198). -/
def Obligations.GlobalInstructions : Prop :=
  ∀ (c : CoreId) (s : State) (r : Nat) (n : Word) (rest : List Slot), s.coreKey c ≠ wardenKey → Bare s c → (s.at_ c r).tagFree →
    rest.length + 2 ≤ ringSize →
    let t := s.issuing c
    let g := t.gop n.toNat
    let nt := (s.at_ c r).nextTag
    (Issues s c r [0x94] → (s.at_ c r).ring = .val n :: rest → 15 < n.toNat →
      RunsTagged (.gbar c) s c r [0x94] rest { dpc := 0, addr := 0, dest := .stack, res := some (.value 4 0) }) ∧
    (Issues s c r [0x94] → (s.at_ c r).ring = .val n :: rest → n.toNat ≤ 15 → g.status ≠ 1 → 1 < t.localN n.toNat →
      ∃ w, exec (.gbar c) s = .next w ∧ (w.ctx (s.coreKey c) r).ring = .tag nt :: rest ∧ (w.gop n.toNat).status = 1 ∧
        (w.gop n.toNat).reduce = false ∧ (w.gop n.toNat).locals = [{ tag := Stated.ref s c r, value := 0, op := 256 }] ∧
        (∀ m, m ≠ n.toNat → w.gop m = t.gop m) ∧ w.mem = t.mem) ∧
    (∀ (op : BitVec 8) (v : Word), op.toNat ≤ 4 → Issues s c r [0x95, op] → 2 ≤ (s.at_ c r).freeTags.length →
      (s.at_ c r).ring = .val n :: .val v :: rest → n.toNat ≤ 15 → g.status ≠ 1 → 1 < t.localN n.toNat →
      ∃ w, exec (.gred c op) s = .next w ∧
        (w.ctx (s.coreKey c) r).ring = .tag ((s.at_ c r).freeTags.getD 1 0) :: .tag ((s.at_ c r).freeTags.getD 0 0) :: rest ∧
        (w.gop n.toNat).status = 1 ∧ (w.gop n.toNat).reduce = true ∧ (w.gop n.toNat).op = op.toNat ∧ (w.gop n.toNat).acc = some v ∧
        (∀ m, m ≠ n.toNat → w.gop m = t.gop m) ∧ w.mem = t.mem) ∧
    (∀ off : Word, Issues s c r [0x96] → (s.at_ c r).ring = .val n :: .val 0 :: .val off :: rest → n.toNat ≤ 15 → t.sys.root = true →
      g.status ≠ 1 → t.childLinks = [] → g.recv = [] →
      ∃ w, exec (.gbcast c) s = .next w ∧ (w.ctx (s.coreKey c) r).ring = .tag nt :: rest ∧ (w.gop n.toNat).status = 2 ∧
        (w.gop n.toNat).inst = (if g.status = 0 then g.inst else g.inst + 1) ∧ (w.gop n.toNat).bcast = some [] ∧
        (w.gop n.toNat).bcastTaken = false ∧ (∀ m, m ≠ n.toNat → w.gop m = t.gop m) ∧ w.mem = t.mem) ∧
    (∀ (off : Word) (ps : List Piece), Issues s c r [0x97] → (s.at_ c r).ring = .val n :: .val off :: rest → n.toNat ≤ 15 → g.status ≠ 3 →
      g.untaken = none → t.checkBlock (s.coreKey c) r .store off.toNat 8192 = .ok ps → piecesSe ps = false →
      t.mustDrain (s.coreKey c) ps = false →
      ∃ w, exec (.grecv c) s = .next w ∧ (w.ctx (s.coreKey c) r).ring = .tag nt :: rest ∧
        (w.gop n.toNat).recv = g.recv ++ [(Stated.ref s c r, BitVec.ofNat 12 (xlatVmid (s.at_ c r).xlat), ps.map Piece.key)] ∧
        (∀ m, m ≠ n.toNat → w.gop m = t.gop m) ∧ w.mem = t.mem)

/-! ## Pipeline events -/

/-- A returned tag fills the slot that waits for it, and is free again; the flags of arithmetic join the ASR (R169, R228). -/
def Sys2Proof.Stated.TagReturns : Prop :=
  ∀ (c : CoreId) (s : State) (r : Fin 16) (t : Fin 8) (d : TagRec) (v f : Word),
    let x := s.ctx (s.coreKey c) r.val
    alook t.val x.tags = some d → d.res = some (.value v f) → d.dest = .stack → d.tsbAt = [] → x.spilled = [] → x.st ≠ .waiting →
    ∃ w, exec (.tagReturn c r t) s = .next w ∧
      w.ctx (s.coreKey c) r.val = (Ctx.wakeWait { x with
        ring := x.ring.map (fun o => if o = .tag t.val then .val v else o)
        asr := x.asr ||| f
        tags := adel t.val x.tags } (fun y => y == .tag t.val || y == .tagLimit)) ∧
      (∀ m q, 16 * m + q ≠ 16 * s.coreKey c + r.val → w.ctx m q = s.ctx m q) ∧ w.mem = s.mem ∧ w.regs = s.regs

/-- SEG puts its register before the next instruction and does nothing else; a second prefix is an illegal instruction (R189). WAIT_SWITCH
takes a context that has waited 32 ic for a result off the core; QUANTUM_EXPIRY lets another context of the same priority run;
ICACHE_FILL gives the line that a fetch has missed (R164, R171, R237). -/
def Sys2Proof.Stated.PipelineEvents : Prop :=
  (∀ (c : CoreId) (n : BitVec 3) (s : State) (r : Nat), s.mayIssue (s.coreKey c) = true →
    let t := s.schedule (s.coreKey c)
    (t.core (s.coreKey c)).run = some r →
    (t.fetchOp (s.coreKey c) (t.ctx (s.coreKey c) r) (b2n (t.core (s.coreKey c)).seg.isSome) [0x60 + n.setWidth 8]).isOk = true →
    ((t.core (s.coreKey c)).seg = none → exec (.seg c n) s = .next (t.modCore (s.coreKey c) (fun d => { d with seg := some n }))) ∧
    ((t.core (s.coreKey c)).seg.isSome = true → exec (.seg c n) s = .next ((t.takeExc (s.coreKey c) r ilReport).stepped (s.coreKey c)))) ∧
  (∀ (c : CoreId) (s : State) (r i : Nat) (w : WaitWhy), s.coreLive (s.coreKey c) = true → (s.core (s.coreKey c)).run = some r →
    (s.ctx (s.coreKey c) r).wait = some w → w.long = true → i < 16 → i ≠ r → s.runnable (s.coreKey c) i = true →
    (s.core (s.coreKey c)).rps = [] → (s.ctx (s.coreKey c) r).waitSince + s.icNs (s.coreKey c) 32 ≤ s.now →
    ∃ u, exec (.waitSwitch c) s = .next u ∧ (u.ctx (s.coreKey c) r).st = .waiting ∧ (u.core (s.coreKey c)).run ≠ some r ∧ u.mem = s.mem) ∧
  (∀ (c : CoreId) (s : State) (r : Nat), s.coreLive (s.coreKey c) = true → (s.core (s.coreKey c)).run = some r →
    let q := if s.coreKey c = wardenKey then 4 else getF s (.shSchcfg (keyShelf (s.coreKey c))) 47 40
    q ≠ 0 → (s.core (s.coreKey c)).chosenAt + s.icNs (s.coreKey c) (q * 256) ≤ s.now →
    exec (.quantumExpiry c) s = .next (s.modCore (s.coreKey c) (fun d => { d with quantumOut := true }))) ∧
  (∀ (c : CoreId) (s : State) (l : Nat), (s.core (s.coreKey c)).fetchMiss = some l → (s.core (s.coreKey c)).cached l = none →
    (l < 2 ^ 60 → (64 * l < 0x8000000 → s.shelfGone (64 * l / 0x200000) = false) →
      ∃ u d, exec (.icacheFill c) s = .next u ∧ (u.core (s.coreKey c)).cached l = some d ∧ d.data = s.bytes (64 * l) 64 ∧
        (u.core (s.coreKey c)).fetchMiss = none ∧ u.ctxs = s.ctxs ∧ u.mem = s.mem) ∧
    (∀ b, 2 ^ 60 ≤ l → s.hostBytes (64 * (l - 2 ^ 60)) 64 = some b →
      ∃ u d, exec (.icacheFill c) s = .next u ∧ (u.core (s.coreKey c)).cached l = some d ∧ d.data = b ∧
        (u.core (s.coreKey c)).fetchMiss = none ∧ u.ctxs = s.ctxs ∧ u.mem = s.mem ∧ u.regs = s.regs))

/-- All of `TagReturns`, `PipelineEvents`. -/
def Obligations.TagsAndPipelineEvents : Prop := Stated.TagReturns ∧ Stated.PipelineEvents


/-! ## Translation instructions -/

/-- PROBE gives the class of the entry that a port holds and binds WALKA to a leaf, and an address of 2^48 or more gives 4; TLBWR writes the
lowest free entry and removes those that it overlaps, or sets ERR and writes nothing; TLBINV and TLBINVA remove (R265, R266, R268, R269). -/
def Sys2Proof.Stated.TranslationInstructions : Prop :=
  ∀ (c : CoreId) (s : State) (r : Nat) (ctl va : Word) (rest : List Slot), Bare s c → (s.at_ c r).sysctl = true →
    let t := s.issuing c
    (Issues s c r [0xF0, 0x10] → (s.at_ c r).ring = .val ctl :: .val va :: rest → (s.at_ c r).tagFree → rest.length < ringSize →
      let level := fld ctl 1 0
      let stage := fld ctl 2 2
      let a := fld ctl 50 12 * 4096 + 8 * (va.toNat / 2 ^ (39 - 9 * level) % 512)
      (2 ^ 48 ≤ va.toNat → ∃ u, exec (.probe c) s = .next u ∧ (u.ctx (s.coreKey c) r).ring = .tag (s.at_ c r).nextTag :: rest ∧
        (alook (s.at_ c r).nextTag (u.ctx (s.coreKey c) r).tags).map (·.res) = some (some (.value (probeWord 4 stage level 0) 0)) ∧
        u.mem = t.mem) ∧
      (∀ b, va.toNat < 2 ^ 48 → t.hostBytes a 8 = some b →
        ∃ u, exec (.probe c) s = .next u ∧ (u.ctx (s.coreKey c) r).ring = .tag (s.at_ c r).nextTag :: rest ∧
          (alook (s.at_ c r).nextTag (u.ctx (s.coreKey c) r).tags).map (·.res) =
            some (some (.value (probeWord (probeRes (bytesWord b) level) stage level (bytesWord b)) 0)) ∧
          (u.ctx (s.coreKey c) r).walka1 = (if probeRes (bytesWord b) level = 1 ∧ stage = 0 then walkaWord a else (s.at_ c r).walka1) ∧
          (u.ctx (s.coreKey c) r).walka2 = (if probeRes (bytesWord b) level = 1 ∧ stage ≠ 0 then walkaWord a else (s.at_ c r).walka2) ∧
          u.mem = t.mem)) ∧
    (∀ pte : Word, Issues s c r [0xF0, 0x11] → (s.at_ c r).ring = .val ctl :: .val va :: .val pte :: rest →
      (tlbwrBad (s.at_ c r) pte ctl = true →
        Runs (.tlbwr c) s c r [0xF0, 0x11] (fun x => { x with ring := rest }) (fun d => { d with tlbErr := true })) ∧
      (∀ i, tlbwrBad (s.at_ c r) pte ctl = false →
        let e := newEntry (s.at_ c r) pte va ctl
        firstFree 64 ((t.core (s.coreKey c)).tlb.filter (fun o => !o.2.displacedBy e)) = some i →
        Runs (.tlbwr c) s c r [0xF0, 0x11] (fun x => { x with ring := rest }) (fun d => { d with
          tlb := aput i e (d.tlb.filter (fun o => !o.2.displacedBy e)) }))) ∧
    (Issues s c r [0xF0, 0x12] → (s.at_ c r).ring = .val ctl :: .val va :: rest →
      Runs (.tlbinv c) s c r [0xF0, 0x12] (fun x => { x with ring := rest }) (fun d => { d with
        tlb := d.tlb.filter (fun o => !o.2.inScope (fld ctl 1 0) (va.toNat % 2 ^ 48) (fld ctl 47 32) (fld ctl 59 48)) })) ∧
    (Issues s c r [0xF0, 0x13] → Runs (.tlbinva c) s c r [0xF0, 0x13] id (fun d => { d with tlb := [] }))

/-- An AD atomic that nothing refuses, on leaves that are owned and valid, sets its bits in the entry of the TLB; GL_TLBINV removes a scope
from every core and is BUSY until no access through it is outstanding; GL_TAGRGN and GL_TAGTAB take a value while VALID is 0 (R269, R270,
R276). -/
def Sys2Proof.Stated.TranslationEvents : Prop :=
  (∀ (c : CoreId) (s : State) (i a : Nat) (bits : Word) (e : TlbEntry) (b : List Byte),
    (s.core (s.coreKey c)).adWait = some (i, bits) → alook i (s.core (s.coreKey c)).tlb = some e → e.leaves = [a] →
    (∀ x ∈ s.leafChecks e, x.2 ≠ .fail ∧ ∀ j, x.2 ≠ .fetch j) → s.ownedLine (a / 64) = true → s.hostBytes a 8 = some b →
    bitAt (bytesWord b) 0 = true → bitAt (bytesWord b) 1 = false →
    ∃ u, exec (.adAtomicDone c) s = .next u ∧ (u.core (s.coreKey c)).adWait = none ∧
      (u.core (s.coreKey c)).tlb = (s.core (s.coreKey c)).tlb.map (fun o => if o.1 = i then (i, { o.2 with pte := o.2.pte ||| bits }) else o) ∧
      u.mem = s.mem) ∧
  (∀ (who : Party) (v : Word) (s : State), Stated.granted s who .glTlbinv v → getB s .glTlbinv 62 = false → bitAt v 63 = true →
    ∃ u, exec (.glTlbinv who v) s = .next u ∧
      (∀ k, (u.core k).tlb = (s.core k).tlb.filter (fun o =>
        !o.2.inScope (fld v 61 60) (getF s .glTlbva 47 12 * 4096) (fld v 47 32) (fld v 59 48))) ∧
      u.tlbGone = (s.cores.flatMap (fun d => d.2.tlb.map (·.2))).filter (fun o =>
        o.inScope (fld v 61 60) (getF s .glTlbva 47 12 * 4096) (fld v 47 32) (fld v 59 48)) ∧
      rdReg u .glTlbinv = (bitIf 62 true ||| (v &&& fmask 61 32)) ∧ u.ctxs = s.ctxs ∧ u.mem = s.mem) ∧
  (∀ s : State, getB s .glTlbinv 62 = true → s.removalPending = false → exec .glTlbinvDone s = .next { wrReg s .glTlbinv 0 with tlbGone := [] }) ∧
  (∀ (who : Party) (v : Word) (s : State), getB s .glTagrgn 63 = false →
    (Stated.granted s who .glTagrgn v → exec (.glTagrgnWrite who v) s = .next (s.plainWrite .glTagrgn v)) ∧
    (Stated.granted s who .glTagtab v → exec (.glTagtabWrite who v) s = .next (s.plainWrite .glTagtab v))) ∧
  (∀ (who : Party) (v : Word) (s : State), getB s .glTagrgn 63 = true →
    (Stated.granted s who .glTagrgn v → bitAt v 63 = true → exec (.glTagrgnWrite who v) s = .next s) ∧
    (Stated.granted s who .glTagtab v → exec (.glTagtabWrite who v) s = .next s))

/-- All of `TranslationInstructions`, `TranslationEvents`. -/
def Obligations.Translation : Prop := Stated.TranslationInstructions ∧ Stated.TranslationEvents


/-! ## Exceptions and events -/

/-- The entry that state `b` makes in store `r` of core `k` leaves `w` (R278, R281, R283): the saved state is in the TSB at `a`, whose bytes
end with the buffer of a long move; the context goes on where descriptor `d` says, with its capabilities, and keeps its ring and its
return stack, on an empty stack segment above a floor. -/
def Sys2Proof.Stated.entered (b w : State) (k r a pc : Nat) (d : Desc) (cause finfo faddr : Word) : Prop :=
  let x := b.ctx k r
  let y := w.ctx k r
  y.pc.toNat = fld d.flags 55 0 ∧ y.tsbp = d.tsb ∧ y.etsb = x.tsbp ∧ y.seg segC = d.code ∧ y.seg segS = d.stack ∧
    y.ring = x.ring ∧ y.sp = 0 ∧ y.rstack = x.rstack ∧ y.rsFloor = x.rstack.length ∧
    (w.core k).gateOpen = ((b.core k).gateOpen && !bitAt d.flags 60) ∧
    w.word (a + 8) = BitVec.ofNat 64 pc ∧ w.word (a + 0x10) = cause ∧ w.word (a + 0x18) = finfo ∧ w.word (a + 0x20) = faddr ∧
    w.word (a + 0x28) = x.asr ∧ (∀ j, j < a ∨ a + max 512 (0x188 + 8 * x.mbuf.length) ≤ j → w.byte j = b.byte j)

/-- An entry of descriptor `n` from state `b` meets its conditions (R277, R280): TSBP names the TSB at `a`, DTP a table apart from it, and
the descriptor reads as the valid `d`. -/
def Sys2Proof.Stated.canEnter (b : State) (k r a n : Nat) (d : Desc) : Prop :=
  n < 64 ∧ tsbAddr k (b.ctx k r).tsbp = some a ∧ ∃ t, dtpAddr k (b.core k).dtp = some t ∧
    (a + max 512 (0x188 + 8 * (b.ctx k r).mbuf.length) ≤ t ∨ t + 4096 ≤ a) ∧ b.badIn (t + 64 * n) 64 = false ∧
    b.readDesc (t + 64 * n) = d ∧ d.valid k = true

/-- TRAP enters descriptor 32 + u with the next instruction's address saved; EXCEPTION_ENTRY enters the descriptor of the exception that the
instruction at the PC has found; EVENT_ENTRY enters descriptor 16 + PRIO, pushes PRIO and names the source for EVCLAIM (R278 to R283,
R293). -/
def Sys2Proof.Stated.Entries : Prop :=
  (∀ (c : CoreId) (u : BitVec 8) (s : State) (r a : Nat) (d : Desc), u.toNat < 32 → Issues s c r [0xF0, 0x05, u] → Bare s c →
    Stated.canEnter (s.issuing c) (s.coreKey c) r a (32 + u.toNat) d →
    ∃ w, exec (.trap c u) s = .next w ∧ (w.core (s.coreKey c)).lastDesc.toNat = 32 + u.toNat ∧
      Stated.entered (s.issuing c) w (s.coreKey c) r a (((s.at_ c r).pc.toNat + 3) % 2 ^ 56) d
        (ecause 0 0 false false 0 false (32 + u.toNat)) 0 0) ∧
  (∀ (c : CoreId) (e : ExcReport) (s : State) (r a : Nat) (d : Desc), e.ok = true → s.mayIssue (s.coreKey c) = true →
    let b := s.schedule (s.coreKey c)
    (b.core (s.coreKey c)).run = some r → Stated.canEnter b (s.coreKey c) r a e.desc d →
    ∃ w, exec (.exceptionEntry c e) s = .next w ∧ (w.core (s.coreKey c)).lastDesc.toNat = e.desc ∧
      Stated.entered b w (s.coreKey c) r a (((b.ctx (s.coreKey c) r).pc.toNat + if 32 ≤ e.desc then 3 else 0) % 2 ^ 56) d
        (ecause 0 0 false false 0 false e.desc) e.finfo e.faddr) ∧
  (∀ (c : CoreId) (s : State) (r a i p : Nat) (d : Desc), s.mayEnter (s.coreKey c) = true → s.delivering (s.coreKey c) = some (i, p) →
    p < 16 →
    let b := s.schedule (s.coreKey c)
    (b.core (s.coreKey c)).run = some r → Stated.canEnter b (s.coreKey c) r a (16 + p) d →
    ∃ w, exec (.eventEntry c) s = .next w ∧ (w.core (s.coreKey c)).rps = BitVec.ofNat 4 p :: (b.core (s.coreKey c)).rps ∧
      (w.core (s.coreKey c)).claim = some i ∧
      Stated.entered b w (s.coreKey c) r a (b.ctx (s.coreKey c) r).pc.toNat d (ecause 0 0 false false p true (16 + p)) 0 0)

/-- ERET with the frame's slots in the ring restores what the TSB that ETSB names holds, and cuts the ring to the frame; PRIO and XLAT come
back only under SYSCTL authority of the handler (R284, R285). No byte of memory changes. -/
def Sys2Proof.Stated.ExceptionReturn : Prop :=
  ∀ (c : CoreId) (s : State) (r a : Nat), Issues s c r [0xF0, 0x04] → Bare s c →
    tsbAddr (s.coreKey c) (s.at_ c r).etsb = some a → (s.issuing c).tsbBad a = none → (s.at_ c r).sp = 0 →
    let b := s.issuing c
    let x := s.at_ c r
    ∃ w, exec (.eret c) s = .next w ∧
      let y := w.ctx (s.coreKey c) r
      y.pc.toNat = fld (b.word (a + 8)) 55 0 ∧ y.tsbp = x.etsb ∧ y.etsb = b.loadCap (a + 0x70) ∧
      (∀ i, i < 8 → y.seg i = b.loadCap (a + 0x80 + 16 * i)) ∧
      y.ring = x.ring.drop (x.ring.length - fld (b.word (a + 0x60)) 63 58) ∧ y.sp.toNat = fld (b.word (a + 0x68)) 55 0 ∧
      y.asr = (b.word (a + 0x28) &&& 0x37F) ∧ y.mph = b.word (a + 0x50) ∧ y.mpl = b.word (a + 0x58) ∧
      y.rsFloor = fld (b.word (a + 0x60)) 45 40 ∧
      y.prio = (if x.sysctl then BitVec.ofNat 2 (fld (b.word a) 58 57) else x.prio) ∧
      y.xlat = (if x.sysctl then b.word (a + 0x38) &&& 0xCFFFFFFF00000000 else x.xlat) ∧ w.mem = b.mem

/-- All of `Entries`, `ExceptionReturn`. -/
def Obligations.Exceptions : Prop := Stated.Entries ∧ Stated.ExceptionReturn


/-- EVCLAIM of a source that is pending returns its number, EDGES and SAT, makes it active and empties EDGES; EVEOI pops the running
priority and ends the source; EVWDOG_WRITE starts the watchdog anew (R289, R295). -/
def Sys2Proof.Stated.EventRegisters : Prop :=
  ∀ (c : CoreId) (s : State) (r : Nat), Bare s c → (s.at_ c r).sysctl = true → s.coreKey c ≠ wardenKey →
    let b := s.issuing c
    let k := s.coreKey c
    (∀ i, Issues s c r [0xF1, 0x00, 0x04] → (b.core k).claim = some i → (i < 6 ∨ (16 ≤ i ∧ reservedShared i = false)) → (b.bankSrc k i).pending (coreData k i) = true →
      (s.at_ c r).ring.length < ringSize →
      ∃ w, exec (.evclaim c) s = .next w ∧
        (w.ctx k r).ring = .val (bitIf 24 (b.bankSrc k i).sat ||| place 23 16 (b.bankSrc k i).edges.toNat ||| place 8 0 i) :: (s.at_ c r).ring ∧
        w.bankSrc k i = { b.bankSrc k i with act := true, edges := 0, sat := false, dpend := false } ∧
        (∀ j, j ≠ i → w.bankSrc k j = b.bankSrc k j) ∧ w.mem = b.mem) ∧
    (∀ (v : Word) (rest : List Slot), (s.at_ c r).ring = .val v :: rest →
      (∀ p more, Issues s c r [0xF2, 0x01, 0x04] → (b.core k).rps = p :: more → fld v 8 0 < 6 → (b.bankSrc k (fld v 8 0)).act = true →
        ∃ w, exec (.eveoi c) s = .next w ∧ (w.ctx k r).ring = rest ∧ (w.core k).rps = more ∧ (w.core k).eoiErr = (b.core k).eoiErr ∧
          (w.bankSrc k (fld v 8 0)).act = false) ∧
      (Issues s c r [0xF2, 0x01, 0x04] → (b.core k).rps = [] → fld v 8 0 < 256 → (b.bankSrc k (fld v 8 0)).act = false →
        Runs (.eveoi c) s c r [0xF2, 0x01, 0x04] (fun y => { y with ring := rest }) (fun d => { d with eoiErr := true })) ∧
      (Issues s c r [0xF2, 0x07, 0x04] → (tget {} (b.core k).srcs 1).sense = 0 →
        ∃ w, exec (.evwdogWrite c) s = .next w ∧ (w.ctx k r).ring = rest ∧ (w.core k).wexp = false ∧
        (w.core k).wcount = BitVec.ofNat 32 (fld v 31 0) ∧
        (w.core k).wexpAt = (if fld v 31 0 = 0 then none else some (b.now + b.icNs k (fld v 31 0)))))

/-- Inputs and timers of the event controller: a level reaches its source, coalescing and hold-off end when their time has come, the timer
and the watchdog of a core assert, and EV_CDB pulses CDB of one core (R289, R291, R294). -/
def Sys2Proof.Stated.EventInputs : Prop :=
  (∀ (n : Fin 64) (i : Fin 256) (level : Bool) (s : State), s.shelfGone n.val = false → 16 ≤ i.val → i.val < 64 →
    reservedShared i.val = false → (s.src n.val i.val).sense = 0 → (s.src n.val i.val).qcnt < 1000 →
    ∃ u, exec (.sourceInputChange (.shared n) i level) s = .next u ∧ (u.src n.val i.val).input = level ∧
      (u.src n.val i.val).pending false = (level && !(s.src n.val i.val).act) ∧
      (∀ m j, 256 * m + j ≠ 256 * n.val + i.val → u.src m j = s.src m j) ∧ u.regs = s.regs ∧ u.mem = s.mem) ∧
  (∀ (n : Fin 64) (i : Fin 256) (s : State) (d : Nat), 64 ≤ i.val → (s.src n.val i.val).coalDue = some d → d ≤ s.now →
    (s.src n.val i.val).qcnt < 1000 →
    ∃ u, exec (.coalesceTimer n i) s = .next u ∧ (u.src n.val i.val).dpend = true ∧ (u.src n.val i.val).counted = 0 ∧
      (u.src n.val i.val).coalDue = none ∧ (∀ m j, 256 * m + j ≠ 256 * n.val + i.val → u.src m j = s.src m j) ∧ u.regs = s.regs) ∧
  (∀ (n : Fin 64) (g : Fin 16) (s : State), tget 0 s.holdoff (16 * n.val + g.val) ≤ s.now →
    exec (.holdoffExpiry n g) s = .next { s with holdoff := tdel (16 * n.val + g.val) s.holdoff }) ∧
  (∀ (c : CoreId) (s : State), s.coreKey c ≠ wardenKey → (s.core (s.coreKey c)).halted = false → (tget {} (s.core (s.coreKey c)).srcs 0).sense = 0 →
    (tget {} (s.core (s.coreKey c)).srcs 0).qcnt < 1000 →
    ∃ u, exec (.evtmrMatch c) s = .next u ∧ (tget {} (u.core (s.coreKey c)).srcs 0).input =
      ((s.core (s.coreKey c)).evtmr != 0 && decide ((s.core (s.coreKey c)).evtmr.toNat ≤ s.now)) ∧ u.ctxs = s.ctxs ∧ u.mem = s.mem) ∧
  (∀ (c : CoreId) (s : State) (d : Nat), s.coreKey c ≠ wardenKey → (s.core (s.coreKey c)).wexp = false →
    (s.core (s.coreKey c)).wexpAt = some d → d ≤ s.now → (tget {} (s.core (s.coreKey c)).srcs 1).sense = 0 →
    (tget {} (s.core (s.coreKey c)).srcs 1).qcnt < 1000 →
    ∃ u, exec (.wdogExpire c) s = .next u ∧ (u.core (s.coreKey c)).wexp = true ∧ (u.core (s.coreKey c)).wcount = 0 ∧
      (tget {} (u.core (s.coreKey c)).srcs 1).input = true ∧ u.ctxs = s.ctxs ∧ u.mem = s.mem) ∧
  (∀ (who : Party) (n : Fin 64) (v : Word) (s : State), Stated.granted s who (.evCdb n.val) v → bitAt v 63 = true →
    let k := 16 * n.val + s.routed n.val (fld v 3 0)
    (tget {} (s.core k).srcs 4).sense = 1 → (tget {} (s.core k).srcs 4).input = false → (tget {} (s.core k).srcs 4).edges.toNat < 255 → (tget {} (s.core k).srcs 4).qcnt < 1000 →
    ∃ u, exec (.evCdb who n v) s = .next u ∧ (tget {} (u.core k).srcs 4).edges = (tget {} (s.core k).srcs 4).edges + 1 ∧
      (tget {} (u.core k).srcs 4).pending false = true ∧ u.ctxs = s.ctxs ∧ u.mem = s.mem)

/-- All of `EventRegisters`, `EventInputs`. -/
def Obligations.EventController : Prop := Stated.EventRegisters ∧ Stated.EventInputs


/-! ## Contexts -/

/-- A command of CTXCMD for another store: LOAD and NEWLOAD mark a free store LOADING, FREE empties a store, PARK also writes the state of a
context with an empty ring to its TSB, and each leaves the command BUSY (R232). -/
def Sys2Proof.Stated.ContextCommands : Prop :=
  ∀ (c : CoreId) (s : State) (r : Nat) (v : Word) (rest : List Slot), r < 16 → Issues s c r [0xF2, 0x00, 0x07] → Bare s c →
    (s.at_ c r).sysctl = true → (s.at_ c r).ring = .val v :: rest →
    let b := s.issuing c
    let k := s.coreKey c
    let dk := b.cmdCore k v
    let dr := fld v 51 48
    (b.core k).mov = none → b.handingOver k = false → (dk ≠ k ∨ dr ≠ r) →
    (∀ p ∈ ([(.ctxLoad c, 1), (.ctxNewload c, 2)] : List (Instr × Nat)), ∀ ps, fld v 63 60 = p.2 → (b.ctx dk dr).st = .free →
      b.slotClosed dk = false → b.coreLive dk = true → b.checkAccess k (s.at_ c r).found segX3 .load 0 512 = .ok ps →
      ∃ w, exec p.1 s = .next w ∧ (w.ctx k r).ring = rest ∧ w.ctx dk dr = { st := .loading, ctx := BitVec.ofNat 20 (fld v 19 0) } ∧
        (w.core k).ctxRes = ctxresWord true 0 (fld v 19 0) ∧
        (w.core k).mov = some {
          op := p.2
          core := dk
          store := dr
          ctx := BitVec.ofNat 20 (fld v 19 0)
          src := ps.map (fun q => (q.place, q.len))
          ea := ((s.at_ c r).seg segX3).base.toNat } ∧ w.mem = b.mem) ∧
    (fld v 63 60 = 4 → (b.ctx dk dr).st ≠ .free → (b.ctx dk dr).st ≠ .loading → (b.ctx dk dr).tags = [] →
      ∃ w, exec (.ctxFree c) s = .next w ∧ (w.ctx k r).ring = rest ∧ w.ctx dk dr = {} ∧
        (w.core k).ctxRes = ctxresWord true 0 (b.ctx dk dr).ctx.toNat ∧
        (w.core k).mov = some { op := 4, core := dk, store := dr, ctx := (b.ctx dk dr).ctx } ∧ w.mem = b.mem) ∧
    (∀ a ea, fld v 63 60 = 3 → (b.ctx dk dr).st ≠ .free → (b.ctx dk dr).st ≠ .loading → (b.ctx dk dr).tags = [] → (b.ctx dk dr).ring = [] →
      (b.ctx dk dr).spilled = [] → capFault (b.ctx dk dr).tsbp .store 0 512 = none →
      b.checkPages dk (b.ctx dk dr) (b.ctx dk dr).tsbp 0 .store (b.ctx dk dr).tsbp.base.toNat 512 = .ok [⟨.mem a, false, ea, 512⟩] →
      (0x8000000 ≤ a ∨ b.shelfGone (a / 0x200000) = false) → (b.core dk).fpOwn ≠ some dr →
      ∃ w, exec (.ctxPark c) s = .next w ∧ (w.ctx k r).ring = rest ∧ w.ctx dk dr = {} ∧
        (w.core k).mov = some { op := 3, core := dk, store := dr, ctx := (b.ctx dk dr).ctx } ∧
        w.word a = ({ b.ctx dk dr with st := .parked } : Ctx).ccw dr ∧ w.word (a + 8) = (b.ctx dk dr).pc.setWidth 64 ∧
        w.word (a + 0x28) = (b.ctx dk dr).asr ∧
        (∀ j, j < a ∨ a + max 512 (0x188 + 8 * (b.ctx dk dr).mbuf.length) ≤ j → w.byte j = b.byte j))

/-- Context moves end with RESULT OK: a load whose TSB is at hand makes its context READY. SPILL writes the oldest ring slot to the stack
segment and FILL reads the newest one back; FP_HANDOVER saves the registers of the owner and loads those of the context that waits
(R232, R235, R243). -/
def Sys2Proof.Stated.ContextEvents : Prop :=
  (∀ (c : CoreId) (s : State) (m : CtxMove), (s.core (s.coreKey c)).mov = some m → m.later = none →
    (2 < m.op → exec (.ctxcmdDone c) s = .next (s.modCore (s.coreKey c) (fun d => { d with
      ctxRes := ctxresWord false 0 m.ctx.toNat
      mov := none }))) ∧
    (∀ b tags, m.op ≤ 2 → (s.ctx m.core m.store).st = .loading → s.srcBad m.src = none → s.placesBytes m.src = some b → s.tsbTags m.src = some tags →
      (s.ctx m.core m.store).lateWakes = [] → fld (wordIn b 0x68) 55 0 = 0 → m.core ≠ wardenKey →
      ∃ u, exec (.ctxcmdDone c) s = .next u ∧ (u.ctx m.core m.store).st = .ready ∧ (u.ctx m.core m.store).ctx = m.ctx ∧
        (u.ctx m.core m.store).pc.toNat = fld (wordIn b 8) 55 0 ∧ (u.ctx m.core m.store).ring = [] ∧
        (u.core (s.coreKey c)).mov = none ∧ (u.core (s.coreKey c)).ctxRes = ctxresWord false 0 m.ctx.toNat ∧ u.mem = s.mem)) ∧
  (∀ (c : CoreId) (r : Fin 16) (s : State) (a ea : Nat),
    let x := s.ctx (s.coreKey c) r.val
    s.coreLive (s.coreKey c) = true → x.resident = true → x.st ≠ .loading →
    (∀ w0, 40 < x.ring.length → x.wait ≠ some .fill → x.ring.getLast? = some (.val w0) →
      s.checkAccess (s.coreKey c) x segS .spill x.sp.toNat 8 = .ok [⟨.mem a, false, ea, 8⟩] →
      (0x8000000 ≤ a ∨ s.shelfGone (a / 0x200000) = false) →
      ∃ u, exec (.spill c r) s = .next u ∧ u.word a = w0 ∧ (∀ j, j < a ∨ a + 8 ≤ j → u.byte j = s.byte j) ∧
        u.ctx (s.coreKey c) r.val = { x with
          ring := x.ring.dropLast
          sp := x.sp + 8
          spilled := x.spilled.filter (fun e => e.1 ≠ ea) }) ∧
    ((x.ring.length < 8 ∨ (x.wait = some .fill ∧ x.ring.length < ringSize)) → x.stacked ≠ 0 → alook ea x.spilled = none → s.badIn a 8 = false →
      s.checkAccess (s.coreKey c) x segS .fill (x.sp.toNat - 8) 8 = .ok [⟨.mem a, false, ea, 8⟩] →
      exec (.fill c r) s = .next (s.modCtx (s.coreKey c) r.val (fun y => { y with
        ring := y.ring ++ [.val (s.word a)]
        sp := y.sp - 8
        spilled := y.spilled.filter (fun e => e.1 ≠ ea) })))) ∧
  (∀ (c : CoreId) (s : State) (r a : Nat), s.coreLive (s.coreKey c) = true → (s.core (s.coreKey c)).run = some r →
    (s.ctx (s.coreKey c) r).wait = some .fpOwner → s.fprAddr (s.coreKey c) r = some a →
    ((s.core (s.coreKey c)).fpOwn = none →
      ∃ u, exec (.fpHandover c) s = .next u ∧ (u.core (s.coreKey c)).fpOwn = some r ∧ u.mem = s.mem ∧
        ∀ i, i < 16 → tget 0 (u.core (s.coreKey c)).fpr i = s.word (a + 8 * i)) ∧
    (∀ o b, (s.core (s.coreKey c)).fpOwn = some o → (s.ctx (s.coreKey c) o).tags.all (fun e => !e.2.fp) = true →
      s.fprAddr (s.coreKey c) o = some b →
      ∃ u, exec (.fpHandover c) s = .next u ∧ (u.core (s.coreKey c)).fpOwn = some r ∧
        (∀ i, i < 16 → u.word (b + 8 * i) = tget 0 (s.core (s.coreKey c)).fpr i) ∧
        (∀ j, j < b ∨ b + 128 ≤ j → u.byte j = s.byte j)))

/-- All of `ContextCommands`, `ContextEvents`. -/
def Obligations.ContextMoves : Prop := Stated.ContextCommands ∧ Stated.ContextEvents


/-- Wakes: WTIME gives TMR once, SH_POST gives SYNC with its code to a resident context, a held wake enters the wake queue, and a shelf that
has been idle long enough asks to be gated (R238, R239, R241, R242). -/
def Obligations.Wakes : Prop :=
  (∀ (c : CoreId) (r : Fin 16) (s : State),
    let x := s.ctx (s.coreKey c) r.val
    x.resident = true → x.wtime ≠ 0 → x.wtime.toNat ≤ s.now →
    ∃ u, exec (.wtimeExpiry c r) s = .next u ∧ u.ctx (s.coreKey c) r.val = { x.wake wakeTMR 0 with wtime := 0 } ∧
      (∀ m q, 16 * m + q ≠ 16 * s.coreKey c + r.val → u.ctx m q = s.ctx m q) ∧ u.cores = s.cores ∧ u.mem = s.mem) ∧
  (∀ (who : Party) (n : Fin 64) (v : Word) (s : State) (k r : Nat), Stated.granted s who (.shPost n.val) v → bitAt v 63 = true →
    fld v 47 32 ≠ 0xFFFF → s.findCtx (BitVec.ofNat 20 (fld v 19 0)) = some (k, r) →
    ∃ u, exec (.shPost who n v) s = .next u ∧ u.ctx k r = (s.ctx k r).wake wakeSYNC (BitVec.ofNat 16 (fld v 47 32)) ∧
      (∀ m q, 16 * m + q ≠ 16 * k + r → u.ctx m q = s.ctx m q) ∧ u.cores = s.cores ∧ u.mem = s.mem) ∧
  (∀ (x : Ctx) (src : BitVec 4) (code : BitVec 16), x.st ≠ .loading →
    (x.wake src code).pend = x.pend ||| src ∧
    (x.wake src code).st = (if x.st = .sleeping ∧ (x.pend ||| src) &&& x.wmask ≠ 0 then .ready else x.st)) ∧
  (∀ (n : Fin 64) (s : State) (w : HeldWake) (more : List HeldWake) (a : Nat),
    let q := getF s (.shSchcfg n.val) 57 48
    let x := s.queue n.val q
    (s.shelf n.val).holdList = w :: more → s.shelfActive n.val = true → getB s (.shSchcfg n.val) 63 = true → s.qAbsent n.val q = false →
    x.items ≠ [] → x.items.length < s.qDepth n.val q → x.stagedOf (.unit unitSched) = none →
    (x.bound.contains unitSched || x.mayBind n.val (s.qStage n.val q) unitSched) = true → 1 ≤ s.qMax n.val q →
    x.denied.contains (.unit unitSched) = false → s.qArea n.val q 1 = some a → (∀ j, j < 192 → (s.src n.val (64 + j)).queue.toNat ≠ q) →
    ∃ u, exec (.wakeHoldCommit n) s = .next u ∧ (u.shelf n.val).holdList = more ∧
      (u.queue n.val q).items = x.items ++ [{ off := a, len := 1, ct := false, byGlaze := false }] ∧
      u.word (areaAddr n.val a 0) = wakeItem w.ctx w.src w.code) ∧
  (∀ (n : Fin 64) (s : State), s.shelfActive n.val = true → s.shelfIdle n.val = true → getF s (.shSchcfg n.val) 39 24 ≠ 0 →
    (s.shelf n.val).idleSince + s.icNs (16 * n.val) (getF s (.shSchcfg n.val) 39 24 * 64) ≤ s.now →
    exec (.idleTimeout n) s = .next (s.modShelf n.val (fun h => { h with idleAsked := true })))

/-! ## Control space -/

/-- Rows that stand for a write of one register through the gate of control space: with authority the write acts, through a shut cell or at
a shelf in reset it is ignored, and without authority it is ignored and counted in WD_VIOL (R12, R334, R373, R443). A write of SH_RTVEC by the warden waits for the warden's earlier stores to that shelf (R372). -/
def Obligations.GatedWrites : Prop :=
  ∀ (who : Party) (n : Fin 64) (e : Fin 256) (q : Fin 1024) (p : Fin 16) (g : Fin 65536) (v : Word) (merged : Bool) (reserved : BitVec 44) (s : State),
    ∀ x ∈ (
      [(.shPost who n v, .shPost n, v, fun t => t.writePost n v),
       (.evCdb who n v, .evCdb n, v, fun t => t.writeCdb n v),
       (.shDetcfgCommit who n v, .shDetcfg n, v, fun t => t.writeDetcfg n v),
       (.shPaircfgCommit who n v, .shPaircfg n, v, fun t => t.writePaircfg n v),
       (.glSplitokWrite who v, .glSplitok, v, fun t => t.writeSplitok who v),
       (.shGlcfgWrite who n v, .shGlcfg n, v, fun t => t.writeGlcfg n v),
       (.glEpWrite who e v, .glEp e, v, fun t => t.writeEp e v),
       (.glSysSysrst who v, .glSys, v, fun t => t.writeGlSys v),
       (.glSysSnap who v, .glSys, v, fun t => t.writeGlSys v),
       (.portCacheFlush who p v, .hpCtl p, v, fun t => t.writeHpctl p v),
       (.glHpmapWrite who v, .glHpmap, v, fun t => t.writeHpmap v),
       (.glGrantWrite who v, .glGrant, v, fun t => t.writeGrant v),
       (.glGrinv who v, .glGrinv, v, fun t => t.writeGrinv v),
       (.linkEnable who e v, .lkCfg e, v, fun t => t.writeLkCfg e v),
       (.linkDisable who e v, .lkCfg e, v, fun t => t.writeLkCfg e v),
       (.glPartinv who v, .glPartinv, v, fun t => if bitAt v 63 then t.partInv (BitVec.ofNat 20 (fld v 19 0)) else t),
       (.glPwrWrite who v, .glPwr, v, fun t => t.plainWrite .glPwr v),
       (.ringEnable who g reserved, .glRingcmd, ringCmd 1 g ||| place 59 16 reserved.toNat,
         fun t => t.writeRingcmd (ringCmd 1 g ||| place 59 16 reserved.toNat)),
       (.ringDisable who g, .glRingcmd, ringCmd 2 g, fun t => t.writeRingcmd (ringCmd 2 g)),
       (.ringFlush who g, .glRingcmd, ringCmd 3 g, fun t => t.writeRingcmd (ringCmd 3 g)),
       (.ringQuery who g, .glRingcmd, ringCmd 4 g, fun t => t.writeRingcmd (ringCmd 4 g)),
       (.glRingtabWrite who v, .glRingtab, v, fun t => t.writeRingtab v),
       (.shQflush who n ⟨v, merged⟩, .shQflush n, v, fun t => t.writeQflush n v merged),
       (.shQcfgWrite who n q v, .shQcfg n q, v, fun t => t.writeQcfg n q v),
       (.shLedfbWrite who n v, .shLedfb n, v, fun t => t.writeLedfb n v),
       (.shLedcfgWrite who n v, .shLedcfg n, v, fun t => t.plainWrite (.shLedcfg n) v),
       (.shWedgeWrite who n v, .shWedge n, v, fun t => t.writeWedge n v),
       (.hrdy who v, .glBootstat, v, fun t => t.writeBootstat v),
       (.glTlbinv who v, .glTlbinv, v, fun t => t.writeTlbinv v),
       (.glTagrgnWrite who v, .glTagrgn, v, fun t => t.writeTagrgn v),
       (.glTagtabWrite who v, .glTagtab, v, fun t => t.writeTagtab v),
       (.wdBootReboot who, .wdBoot, s.bootBit 63, fun t => t.writeWdBoot who (s.bootBit 63)),
       (.wdBootSvnup who, .wdBoot, s.bootBit 57, fun t => t.writeWdBoot who (s.bootBit 57)),
       (.logRecordCommit who v, .wdLogw 3, v, fun t => t.writeLogw 3 v),
       (.wdViolWrite who v, .wdViol, v, fun t => wrReg t .wdViol 0),
       (.wdLcreq who v, .wdLcreq, v, fun t => t.writeLcreq who v),
       (.shRtvecNew who n v, .shRtvec n, v, fun t => t.writeRtvec who n v),
       (.shRtvecDrained who n v, .shRtvec n, v, fun t => t.writeRtvec who n v)] : List (Instr × Reg × Word × (State → State))),
    (who = .warden → (.shRtvec n : Reg) = x.2.1 → s.windowOwed n = false) →
    (Stated.granted s who x.2.1 x.2.2.1 → exec x.1 s = .next (x.2.2.2 s)) ∧
    ((s.partyOpen who x.2.1.off = false ∨ s.shelfRangeOff x.2.1.off = true) → exec x.1 s = .next s) ∧
    (s.partyOpen who x.2.1.off = true → s.shelfRangeOff x.2.1.off = false → s.permitted who x.2.1.off true = false →
      exec x.1 s = .next (s.violate who true x.2.1.off))

/-- A register write acts on the register at its offset, with what hardware does to its fields in the same cycle; without authority, or in a
size or alignment that R12 does not accept, the write is ignored and counted, and hardware's part stands; at an unassigned offset nothing
happens. A read answers the register without its write-only fields, and 0 without authority. A counted violation names the party in
WD_VIOLREC and raises the warden's source 25 (R8, R12, R35, R373, R440, R443). -/
def Obligations.ControlSpace : Prop :=
  (∀ (who : Party) (off : Fin 67108864) (acc : Access) (v hm hv : Word) (s : State),
    let w := Instr.controlRegisterWrite who off acc v hm hv
    (s.partyOpen who off.val = false → exec w s = .next s) ∧
    (s.partyOpen who off.val = true →
      (Reg.at off.val = none → exec w s = .next s) ∧
      (∀ r, Reg.at off.val = some r → s.shelfRangeOff off.val = false →
        (accLegal acc off.val = true → s.permitted who off.val true = true →
          (who = .warden ∨ s.actsOnWarden r (s.fullVal r acc v) = false) →
          exec w s = .next (s.writeReg who r (s.fullVal r acc v) (accLanes acc) hm hv)) ∧
        ((accLegal acc off.val = false ∨ s.permitted who off.val true = false ∨
            (who ≠ .warden ∧ s.actsOnWarden r (s.fullVal r acc v) = true)) →
          exec w s = .next ((s.violate who true off.val).reactAlone r hm hv)) ∧
        (hm = 0 → (s.violate who true off.val).reactAlone r hm hv = s.violate who true off.val)) ∧
      (∀ r, Reg.at off.val = some r → s.shelfRangeOff off.val = true → exec w s = .next s))) ∧
  (∀ (who : Party) (v m hm hv : Word) (s : State),
    s.writeReg who .glTlbva v m hm hv = wrReg s .glTlbva (regWriteBoth (Reg.glTlbva).fields v m hm hv (rdReg s .glTlbva))) ∧
  (∀ (who : Party) (off : Nat) (a : Access) (r : Reg) (s : State), Reg.at off = some r → s.shelfRangeOff off = false →
    (accLegal a off = true → s.permitted who off false = true → r ≠ .glKeyfloor →
      (s.ctlRead who off a).1 = laneRead a ((s.openRead r).view r &&& ~~~ accMask r.fields .wo)) ∧
    ((accLegal a off = false ∨ s.permitted who off false = false) → s.ctlRead who off a = (0, s.violate who false off))) ∧
  (∀ (p : Fin 16) (caddr : BitVec 26) (size64 : Bool) (rctag : BitVec 8) (v : Word) (s : State), s.power.block ≠ .unpowered →
    (∀ st, s.ctlStatus caddr.toNat = some st →
      exec (.ctlRd p caddr size64 rctag) s = .next (s.emit (.host p.val (.ctlData rctag st 0))) ∧
      exec (.ctlWr p caddr size64 rctag v) s = .next (s.emit (.host p.val (.ctlAck rctag st)))) ∧
    (s.ctlStatus caddr.toNat = none →
      let a := ctlAccess size64 caddr.toNat
      let q := s.ctlRead (.host p) caddr.toNat a
      let t := s.ctlWrite (.host p) caddr.toNat a v
      exec (.ctlRd p caddr size64 rctag) s = .next (q.2.sendMsg p.val (.ctlData rctag 0 q.1)) ∧
      (t.ackLater caddr.toNat = false → exec (.ctlWr p caddr size64 rctag v) s = .next (t.sendMsg p.val (.ctlAck rctag 0))) ∧
      (t.ackLater caddr.toNat = true →
        exec (.ctlWr p caddr size64 rctag v) s = .next { t with hpmapReply := t.hpmapReply ++ [(p.val, rctag)] })))

/-- Link management logic takes the packet `x` that stands first on channel 3 of link `l` for this device, and acts in state `t`: a packet
routed by its path is not validated, and the link damper has passed any other (R123, R127). -/
def Sys2Proof.Stated.mgmtTaken (s : State) (l : Nat) (x : RxPkt) (t : State) : Prop :=
  s.rxHead l (fun p => cmdClass p.cmd == some .management && s.forMe p) = some x ∧
    ((x.pkt.byPath = true ∧ t = s.takeRx l x.vc) ∨
     (x.pkt.byPath = false ∧ (s.damperIn l (s.servingShelf l) x).2 = .pass ∧
       t = ((s.damperIn l (s.servingShelf l) x).1.heardFrom (s.servingShelf l) x.pkt.src).takeRx l x.vc))

/-- Vexek frames and management's register access: a frame with a bad header CRC is not answered, a read answers the register, a write
acts where its data CRC is good, else DCRC is set; the warden and the root reach every register that Table 15.10 gives them, and another
device's answer or its absence ends a remote access (R378, R379, R404, R405). -/
def Obligations.FramesAndRemoteAccess : Prop :=
  (∀ (addr : BitVec 23) (hcrc : BitVec 8) (data : Word) (dcrc : BitVec 8) (s : State), s.power.block ≠ .unpowered →
    let off := 8 * addr.toNat
    (hcrc ≠ vxHcrc 1 addr.toNat → exec (.vxRead addr hcrc) s = .next (s.emit (.vexek .silent))) ∧
    (hcrc = vxHcrc 1 addr.toNat → s.vxFaulty = true → exec (.vxRead addr hcrc) s = .next (s.emit (.vexek .fault))) ∧
    (hcrc = vxHcrc 1 addr.toNat → s.vxFaulty = false → s.vexek.pendingRead = none → off ≠ (Reg.vxStdata).off → off ≠ (Reg.vxMdata).off →
      let q := s.ctlRead .debugger off .full
      exec (.vxRead addr hcrc) s = .next (q.2.emit (.vexek (.ok (some q.1))))) ∧
    (hcrc = vxHcrc 2 addr.toNat → s.vxFaulty = false → s.vexek.pendingRead = none → s.vxNeedsHalt off = false →
      (dcrc = crc8 64 data.toNat →
        exec (.vxWrite addr hcrc data dcrc) s = .next ((s.emit (.vexek (.ok none))).ctlWrite .debugger off .full data)) ∧
      (dcrc ≠ crc8 64 data.toNat →
        exec (.vxWrite addr hcrc data dcrc) s = .next (setB (s.emit (.vexek (.ok none))) .vxStat 63 true)))) ∧
  (∀ s : State, exec .vxIdleReset s = .next s) ∧
  (∀ (off : Fin 67108864) (v : Word) (s : State), s.wardenUp = true → s.fwAsked = true →
    (off.val % 8 = 0 →
      exec (.regwr .here off v) s = .next ((s.ctlWrite .warden off.val .full v).fwReply opRegwr 0 []) ∧
      exec (.regrd .here off) s = .next ((s.ctlRead .warden off.val .full).2.fwReply opRegrd 0 [(s.ctlRead .warden off.val .full).1]) ∧
      (∀ d, s.warden.remote = none →
        let t := fun (rd : Bool) => s.modWarden (fun w => { w with remote := some (s.now, rd) })
        exec (.regwr (.device d) off v) s = .next ((t false).sendAccess (.device d) (.access (.device d) true off v)) ∧
        exec (.regrd (.device d) off) s = .next ((t true).sendAccess (.device d) (.access (.device d) false off 0)))) ∧
    (off.val % 8 ≠ 0 →
      exec (.regwr .here off v) s = .next ((s.ctlWrite .warden off.val .full v).fwReply opRegwr stBadArg []) ∧
      exec (.regrd .here off) s = .next ((s.ctlRead .warden off.val .full).2.fwReply opRegrd stBadArg []))) ∧
  (∀ (l : Fin 256) (serial : Word) (wr : Bool) (off : Fin 67108864) (v : Word) (s b : State) (x : RxPkt), Stated.mgmtTaken s l.val x b →
    b.wardenUp = true →
    let t := b.wsrc 19 EvSrc.pulse
    (serial ≠ t.sys.rootSer → exec (.remoteAccess l serial wr off v) s = .next (t.violate .remote wr off.val)) ∧
    (serial = t.sys.rootSer →
      exec (.remoteAccess l serial true off v) s = .next ((t.ctlWrite .remote off.val .full v).sendMgmt l.val (.accessReply 0 0)) ∧
      exec (.remoteAccess l serial false off v) s =
        .next ((t.ctlRead .remote off.val .full).2.sendMgmt l.val (.accessReply 0 (t.ctlRead .remote off.val .full).1)))) ∧
  (∀ (status : BitVec 8) (v : Word) (s b : State) (l : Nat) (x : RxPkt) (t0 : Nat) (rd : Bool), s.mgmtLink = some l →
    Stated.mgmtTaken s l x b → b.warden.remote = some (t0, rd) → b.wardenUp = true →
    let t := b.modWarden (fun w => { w with remote := none })
    exec (.remoteAccessReply status v) s =
      .next (t.fwReply (if rd then opRegrd else opRegwr) status.toNat (if rd = true ∧ status = 0 then [v] else []))) ∧
  (∀ (s : State) (t0 : Nat) (rd : Bool), s.warden.remote = some (t0, rd) → s.wardenUp = true → t0 + 1000000 ≤ s.now →
    exec .remoteTimeout s = .next ((s.modWarden (fun w => { w with remote := none })).fwReply (if rd then opRegrd else opRegwr) stTimeout []))

/-! ## Shelves, rings and queue registers -/

/-- A shelf that is retired loses its contexts and queues until cold start, and a fault of its router moves the warden's traffic; a flue
message reaches its attachment, is held at the router of a gated shelf, which wakes, or goes back to its source from a shelf that is gone; its
unit reports the return, and one of a PREPARE loses the mirror; a link whose home shelf is gone moves to its alternate, or goes down with it, and
returns (R20, R22, R23, R25, R28, R30, R58, R348). -/
def Obligations.ShelvesAndFlue : Prop :=
  (∀ (n : Fin 64) (cause : RetireCause) (s : State),
    let bad := if cause = .router then s.routerBad ||| BitVec.ofNat 64 (2 ^ n.val) else s.routerBad
    let gone : State := { s with
      routerBad := bad
      retired := s.retired ||| BitVec.ofNat 64 (2 ^ n.val) }
    (s.isRetired n.val = false →
      exec (.shelfRetire ⟨n, cause⟩) s = .next ((gone.shelfLeaves n.val).reaction n.val 2 (rdReg s (.shFtstat n.val)))) ∧
    (s.isRetired n.val = true → exec (.shelfRetire ⟨n, cause⟩) s = .next { s with routerBad := bad }) ∧
    (s.isRetired n.val = false → s.shelfGone (buddy n.val) = true → (s.shelf n.val).rehomed = [] →
      ∃ u, exec (.shelfRetire ⟨n, cause⟩) s = .next u ∧ u.retired = (s.retired ||| BitVec.ofNat 64 (2 ^ n.val)) ∧ u.routerBad = bad ∧
        (∀ i r, i < 16 → r < 16 → u.ctx (16 * n.val + i) r = {}) ∧ u.mem = s.mem)) ∧
  (∀ (dst : Attach) (s t : State) (m : FlueMsg), s.flueNext dst = some (t, m) →
    ((∀ n, dst = .shelf n → t.shelfGone n.val = false ∧ (t.shelf n.val).phase ≠ .gated) →
      exec (.flueMessage dst) s = .next { t.takeFlue m with arrived := t.arrived ++ [m] }) ∧
    (∀ n, dst = .shelf n → t.shelfGone n.val = true → exec (.flueMessage dst) s = .next { t.takeFlue m with returned := t.returned ++ [m] }) ∧
    (∀ n, dst = .shelf n → t.shelfGone n.val = false → (t.shelf n.val).phase = .gated →
      exec (.flueMessage dst) s = .next (t.wakeShelf n.val)) ∧
    m ∈ t.flue ∧ ((∀ x ∈ s.flue, ∀ h ∈ x.path, h < 64) → m.dst = dst) ∧ t.flue.length = s.flue.length ∧ t.mem = s.mem) ∧
  (∀ (src : Attach) (s : State) (m : FlueMsg), s.returned.find? (fun x => x.src == src) = some m →
    let t := { s with returned := dropFirst (fun x => x.src == src) s.returned }.reportAbsent src
    ((∀ id ms, m.body ≠ .prepare id ms) → exec (.notPresent src) s = .next t) ∧
    (∀ n id ms, src = .shelf n → m.body = .prepare id ms →
      exec (.notPresent src) s = .next (if t.shelfGone n.val = true then t else t.mirrorLost n.val))) ∧
  (∀ (l : Fin 256) (s : State), s.shelfGone (l.val / 4) = true →
    (s.onAlt l.val = false → s.shelfGone (altShelf l.val) = false →
      ∃ u, exec (.linkRehome l) s = .next u ∧ u.onAlt l.val = true ∧ l.val ∈ (u.shelf (altShelf l.val)).rehomed ∧
        (∀ x ∈ (u.link l.val).txq, x.partly = false) ∧ (u.link l.val).rxFifo.map (fun x => x.pkt) = (s.link l.val).rxFifo.map (fun x => x.pkt) ∧
        u.mem = s.mem) ∧
    (s.shelfGone (altShelf l.val) = true → (s.link l.val).st = .active → exec (.linkRehome l) s = .next (s.linkDown l.val .detect))) ∧
  (∀ (l : Fin 256) (s : State), s.onAlt l.val = true → s.shelfActive (l.val / 4) = true →
    ∃ u, exec (.linkReturn l) s = .next u ∧ u.onAlt l.val = false ∧ l.val ∉ (u.shelf (altShelf l.val)).rehomed ∧
      (∀ x ∈ (u.link l.val).txq, x.partly = false) ∧ u.mem = s.mem)

/-- Host rings: a good packet is fetched from a SUBMIT ring; a doorbell moves P by what it says, or counts an overrun; a notice that the
queue cannot take is held and committed later; ENABLE, DISABLE, FLUSH and QUERY do what Table 3.12 says (R84, R88, R89, R92, R95, R103). -/
def Obligations.HostRings : Prop :=
  ∀ (k : Fin 65536) (s : State),
    let r := s.ring k.val
    (∀ (slot : List Word) (rest : List (List Word)) (dst : BitVec 21), slot.length = 8 → r.en = true → r.ty = 0 → r.fetched ≠ r.p → r.runs = [] →
      let ns := fld (slot.getD 0 0) 7 0
      rest.length = ns - 1 → (∀ x ∈ rest, x.length = 8) → ns ≠ 0 → ns = nslotOf (fld (slot.getD 3 0) 13 0) → ns ≤ r.size →
      cmdClass (fld (slot.getD 1 0) 7 0) = some .ledger → (s.freeMover r.noticeShelf).isSome = true →
      exec (.submitSlotFetch k ⟨slot, rest, dst⟩) s = .next ((s.setRing k.val { r with
        fetched := r.fetched + BitVec.ofNat 64 ns
        runs := [{ first := r.fetched.toNat, slots := ns, stream := fld (slot.getD 2 0) 15 0, partner := fld (slot.getD 1 0) 35 16, released := false }]
        }).store (shelfAddr r.noticeShelf dst.toNat) ((fromWords (slot.drop 1) ++ rest.flatMap fromWords).take (32 + fld (slot.getD 3 0) 13 0)))) ∧
    (∀ (p : Fin 16) (v : Word), s.power.block = .hostReady → r.en = true → fld (r.word 1) (48 + p.val) (48 + p.val) = 1 →
      let x := if r.ty = 0 then r.p else r.c
      let d := (fld v 31 0 + 2 ^ 32 - x.toNat % 2 ^ 32) % 2 ^ 32
      let room := if r.ty = 0 then r.size - r.fill else r.fill
      ((d = 0 ∨ 2 ^ 31 ≤ d) → exec (.doorbell p k v) s = .next s) ∧
      (d ≠ 0 → d < 2 ^ 31 → room < d →
        exec (.doorbell p k v) s = .next (s.setRing k.val { r with ovr := if r.ovr = 0xFFFF then r.ovr else r.ovr + 1 })) ∧
      (d ≠ 0 → d < 2 ^ 31 → d ≤ room → r.ty = 2 → r.rx = [] →
        exec (.doorbell p k v) s = .next (s.setRing k.val { r with c := r.c + BitVec.ofNat 64 d })) ∧
      (d ≠ 0 → d < 2 ^ 31 → d ≤ room → r.ty = 0 →
        exec (.doorbell p k v) s = .next ((s.setRing k.val { r with p := r.p + BitVec.ofNat 64 d }).notice k.val))) ∧
    (∀ h a, r.held = some h →
      let n := r.noticeShelf
      let q := r.noticeQueue
      let x := s.queue n q
      s.qAbsent n q = false → x.items ≠ [] → x.items.length < s.qDepth n q → x.stagedOf (.unit unitRing) = none →
      x.denied.contains (.unit unitRing) = false → (s.shelf n).phase ≠ .gated → 1 ≤ s.qMax n q →
      (x.bound.contains unitRing || x.mayBind n (s.qStage n q) unitRing) = true → s.qArea n q 1 = some a → (∀ j, j < 192 → (s.src n (64 + j)).queue.toNat ≠ q) → s.qOwner n q 1 = none →
      ∃ u, exec (.heldNoticeCommit k) s = .next u ∧ (u.ring k.val).held = none ∧ u.word (areaAddr n a 0) = noticeItem k.val r.p ∧
        (u.queue n q).items = x.items ++ [{ off := a, len := 1, ct := false, byGlaze := false }]) ∧
    (∀ d, r.evDue = some d → d ≤ s.now → exec (.ringEventTimer k) s = .next (s.sendRingEvent k.val)) ∧
    (∀ (who : Party) (reserved : BitVec 44), Stated.granted s who .glRingcmd (ringCmd 1 k.val ||| place 59 16 reserved.toNat) →
      getB s .glRingstat 63 = false →
      (getB s .glRingtab 0 = true → exec (.ringEnable who k reserved) s = .next ((wrReg s .glRingstat (bitIf 63 true ||| place 47 32 k.val)).readTable
        (.ringDesc k.val) (getF s .glRingtab 51 22 * 2 ^ 22 + 64 * k.val))) ∧
      (getB s .glRingtab 0 = false → ∃ u, exec (.ringEnable who k reserved) s = .next u ∧ u.rings = s.rings ∧ getF u .glRingstat 62 60 = 3)) ∧
    (∀ desc : List Word, getB s .glRingstat 63 = true → getF s .glRingstat 47 32 = k.val →
      (badDesc desc = false → r.en = false → (s.ringDescArrived k.val desc).ring k.val = { en := true, desc := desc } ∧
        getF (s.ringDescArrived k.val desc) .glRingstat 62 60 = 0) ∧
      (badDesc desc = true → (s.ringDescArrived k.val desc).rings = s.rings ∧ getF (s.ringDescArrived k.val desc) .glRingstat 62 60 = 1) ∧
      (badDesc desc = false → r.en = true → (s.ringDescArrived k.val desc).rings = s.rings ∧
        getF (s.ringDescArrived k.val desc) .glRingstat 62 60 = 2)) ∧
    (∀ who : Party, getB s .glRingstat 63 = false →
      (Stated.granted s who .glRingcmd (ringCmd 2 k.val) → s.ringNamed k.val = false →
        ∃ u, exec (.ringDisable who k) s = .next u ∧ (u.ring k.val).en = false ∧ getF u .glRingstat 62 60 = 0) ∧
      (Stated.granted s who .glRingcmd (ringCmd 3 k.val) → r.en = true → r.ty = 0 →
        ∃ u, exec (.ringFlush who k) s = .next u ∧ (u.ring k.val).c = r.p ∧ (u.ring k.val).runs = [] ∧ getF u .glRingstat 62 60 = 0) ∧
      (Stated.granted s who .glRingcmd (ringCmd 4 k.val) →
        ∃ u, exec (.ringQuery who k) s = .next u ∧ getF u .glRingidx 63 32 = r.p.toNat % 2 ^ 32 ∧ getF u .glRingidx 31 0 = r.c.toNat % 2 ^ 32 ∧
          u.rings = s.rings)) ∧
    (∀ (who : Party) (n : Fin 64) (v : Word) (merged : Bool), Stated.granted s who (.shQflush n.val) v → bitAt v 63 = true →
      s.qAbsent n.val (fld v 9 0) = false →
      let x := s.queue n.val (fld v 9 0)
      ((merged = false ∨ x.flushAt ≠ some s.now) → exec (.shQflush who n ⟨v, merged⟩) s = .next (s.setQueue n.val (fld v 9 0) { x with
        items := []
        staged := x.staged.map (fun g => { g with voided := true })
        epoch := x.epoch + 1
        flushAt := some s.now })) ∧
      (merged = true → x.flushAt = some s.now → exec (.shQflush who n ⟨v, merged⟩) s = .next s))

/-- A RECEIVE ring that writes no packet takes a delivered one, which needs NSLOT slots. Without room the packet waits, its entry cannot reach
DATA-DONE, and a doorbell that frees room lets it go on. With room P passes its slots, the later slots are written and the first one only after
the host port has completed those; the packet is in the ring when the first slot's write has completed too; a refused write switches the ring off (R83, R87, R326, R331). That the device
writes the packet when it is delivered, or when a doorbell frees room, and what LEDSET answers meanwhile, is the model's choice (log entry 120). -/
def Obligations.ReceiveRing : Prop :=
  ∀ (k : Fin 65536) (p : Packet) (cring region idx : Nat) (s : State),
    let r := s.ring k.val
    let n := nslotOf p.len
    let i := r.p.toNat % 2 ^ 32
    let x : RxWrite := { packet := p, cring := cring, htag := s.free.setWidth 32, region := region, idx := idx }
    r.en = true → r.ty = 2 →
    (n = if p.len ≤ 24 then 1 else 1 + (p.len - 24 + 63) / 64) ∧
    (r.rx = [] → r.size - r.fill < n → s.rxPut k.val p cring region idx = s.drawn.setRing k.val { r with rx := [x] }) ∧
    (r.rx = [] → n ≤ r.size - r.fill → ((s.rxPut k.val p cring region idx).ring k.val).p = r.p + BitVec.ofNat 64 n) ∧
    (r.rx = [] → 1 ≤ r.size - r.fill → n = 1 →
      let t := s.drawn.setRing k.val { r with p := r.p + 1, rx := [{ x with first := some i, shown := true }] }
      let w := t.hostWrite (.slot k.val i) 2 (some r.grant) none (r.slotAddr i) (rxFirst r x i)
      (w.2 = .refused → s.rxPut k.val p cring region idx = w.1.ringOff k.val) ∧
      (w.2 = .wait → ∃ u, s.rxPut k.val p cring region idx = u ∧ u.ports = w.1.ports ∧
        u.ring k.val = { r with p := r.p + 1, rx := [{ x with first := some i, shown := true, left := [i] }] } ∧
        u.slotWrites = w.1.slotWrites ++ [{ ring := k.val, index := i, shelf := 0, idx := noEntry, acked := false }])) ∧
    (r.rx = [] → 2 ≤ r.size - r.fill → n = 2 →
      let j := (i + 1) % 2 ^ 32
      let t := s.drawn.setRing k.val { r with p := r.p + 2, rx := [{ x with first := some i }] }
      let w := t.hostWrite (.slot k.val j) 2 (some r.grant) none (r.slotAddr j) (rxLater p 0)
      w.2 = .wait → ∃ u, s.rxPut k.val p cring region idx = u ∧ u.ports = w.1.ports ∧
        u.ring k.val = { r with p := r.p + 2, rx := [{ x with first := some i, left := [j] }] } ∧
        u.slotWrites = w.1.slotWrites ++ [{ ring := k.val, index := j, shelf := 0, idx := noEntry, acked := false }]) ∧
    (∀ (y : RxWrite) (a j : Nat), r.rx = [{ y with first := some a, left := [j], shown := false }] →
      let t := s.setRing k.val { r with rx := [{ y with first := some a, left := [], shown := true }] }
      let w := t.hostWrite (.slot k.val a) 2 (some r.grant) none (r.slotAddr a) (rxFirst r y a)
      w.2 = .wait → ∃ u, s.rxDone k.val j = u ∧ u.ports = w.1.ports ∧
        u.ring k.val = { r with rx := [{ y with first := some a, left := [a], shown := true }] }) ∧
    (∀ (y : RxWrite) (a : Nat), r.rx = [{ y with first := some a, left := [a], shown := true }] →
      ∃ u, s.rxDone k.val a = u ∧ u.ring k.val = { r with rx := [] } ∧ u.ports = s.ports ∧ u.slotWrites = s.slotWrites) ∧
    (∀ (q : Fin 16) (v : Word), s.power.block = .hostReady → fld (r.word 1) (48 + q.val) (48 + q.val) = 1 →
      let d := (fld v 31 0 + 2 ^ 32 - r.c.toNat % 2 ^ 32) % 2 ^ 32
      d ≠ 0 → d < 2 ^ 31 → d ≤ r.fill →
        exec (.doorbell q k v) s = .next ((s.setRing k.val { r with c := r.c + BitVec.ofNat 64 d }).rxGo k.val)) ∧
    (∀ (u i : Nat) (e : Entry) (t : TagRef), e.sring.toNat = k.val → r.rx.any (fun y => y.region == region && y.idx == i) = true →
      s.setTargetDone u region i e t = s.setRes t 2)

/-! ## The ledger's commits and timers -/

/-- A flue message as it enters the router of its source (R20, R23). -/
def Sys2Proof.Stated.onWay (s : State) (src dst : Attach) (b : FlueBody) : FlueMsg :=
  { src := src, dst := dst, body := b, inp := 64 + attNo src, path := s.fluePath src dst }

/-- The two-phase commit: PREPARE puts images with PREP 1 into the mirror and is answered, RESEND sends the images again once, PREPARED
reaches the commit point, which writes the image, starts DEADLINE and sends COMMIT, and COMMIT clears PREP; RESYNC ends in HOST mode;
adoption of an empty mirror, and its end (R54 to R58, R62, R66). -/
def Sys2Proof.Stated.LedgerCommits : Prop :=
  (∀ (n : Fin 64) (s : State) (m : FlueMsg) (id : Nat) (ms : List Image),
    s.arrived.find? (fun m => m.dst == attShelf n.val && (match m.body with | .prepare _ _ => true | _ => false)) = some m →
    m.body = .prepare id ms → (s.shelf n.val).adopt = none →
    ∃ u v, exec (.prepare n true) s = .next u ∧ exec (.prepare n false) s = .next v ∧
      u.flue = s.flue ++ [Stated.onWay s m.dst m.src (.prepared id)] ∧ v.flue = s.flue ++ [Stated.onWay s m.dst m.src (.resend id)] ∧
      (u.shelf n.val).mirror = ms.foldl (fun t m => tset {} t m.idx { m.entry with prep := true, retries := 0 }) (s.shelf n.val).mirror ∧
      (v.shelf n.val).mirror = (s.shelf n.val).mirror ∧ u.mem = s.mem) ∧
  (∀ (n : Fin 64) (s : State) (m : FlueMsg) (ms : List Image),
    s.arrived.find? (fun m => m.dst == attShelf n.val && (match m.body with | .commit _ => true | _ => false)) = some m → m.body = .commit ms →
    (s.shelf n.val).adopt = none →
    ∃ u, exec (.commit n) s = .next u ∧ u.flue = s.flue ∧
      (u.shelf n.val).mirror = ms.foldl (fun t m => tset {} t m.idx { m.entry with prep := false, retries := 0 }) (s.shelf n.val).mirror) ∧
  (∀ (n : Fin 64) (s : State) (m : FlueMsg) (c : Commit),
    s.arrived.find? (fun m => m.dst == attShelf n.val && (match m.body with | .resend _ => true | _ => false)) = some m → m.body = .resend c.id →
    (s.shelf n.val).commits = [c] → n.val ∈ c.awaiting → c.resent = false →
    ∃ u, exec (.resend n) s = .next u ∧ (u.shelf n.val).commits = [{ c with resent := true }] ∧
      u.flue = s.flue ++ [Stated.onWay s (attShelf n.val) (attShelf (buddy n.val)) (.prepare c.id ((c.images.filter (fun m => m.region == n.val)).map (s.prepImage n.val)))]) ∧
  (∀ (n : Fin 64) (s : State) (a : FlueMsg) (c : Commit) (m : Image),
    s.arrived.find? (fun m => m.dst == attShelf n.val && (match m.body with | .prepared _ => true | _ => false)) = some a → a.body = .prepared c.id →
    s.shelfGone n.val = false →
    (s.shelf n.val).commits = [c] → c.images = [m] → c.awaiting = [n.val] → c.held = false → c.requester = [] → c.pkt = none →
    (s.shelf n.val).mode = .buddy → (s.shelf n.val).adopt = none → s.adopted n.val = false → m.region = n.val → m.entry.role = .origin →
    m.entry.st = .issued → (s.ent n.val m.idx).st = .opened → (s.vol n.val m.idx).lost = false → (s.vol n.val m.idx).want = none →
    ∃ u, exec (.prepared n) s = .next u ∧ (u.shelf n.val).commits = [] ∧
      u.ent n.val m.idx = { m.entry with
        prep := false
        retries := if (s.ent n.val m.idx).gen = m.entry.gen then (s.ent n.val m.idx).retries else 0
        word30 := s.newDeadline n.val } ∧
      (∃ i, u.flue = s.flue ++ [Stated.onWay s (attShelf n.val) (attShelf (buddy n.val)) (.commit [i])] ∧ i.idx = m.idx ∧ i.entry.st = .issued) ∧ u.mem = s.mem) ∧
  (∀ (n : Fin 64) (s : State), (s.shelf n.val).mode = .resync → s.copying n.val = false → (s.shelf n.val).resyncBuddy = false →
    exec (.mirrorResyncDone n) s = .next (ledRun (s.setMode n.val .host) [.pump n.val]) ∧
      ((s.setMode n.val .host).shelf n.val).mode = .host) ∧
  (∀ (n : Fin 64) (s : State), s.shelfGone (buddy n.val) = true → (s.shelf n.val).adopt = none → s.shelfActive n.val = true →
    (s.shelf n.val).mirror = [] → (s.shelf (buddy n.val)).commits = [] → s.fbValid n.val = false →
    ∃ u, exec (.ledgerAdopt n) s = .next u ∧ (u.shelf n.val).adopt = some (buddy n.val) ∧ (u.shelf n.val).preps = 0 ∧ u.mem = s.mem) ∧
  (∀ (n : Fin 64) (s : State) (r : Nat), (s.shelf n.val).adopt = some r → s.shelfActive r = true → r ≠ n.val →
    (s.shelf n.val).mirror.all (fun e => e.2.role == .stream || e.2.st == .retired) = true →
    (s.shelf n.val).commits.all (fun c => c.images.all (fun m => m.region ≠ r)) = true →
    ∃ u, exec (.adoptionEnd n) s = .next u ∧ (u.shelf n.val).adopt = none ∧ (u.shelf n.val).mirror = mirrorCopy (u.shelf r).entries ∧ u.mem = s.mem)

/-- Timers of the ledger: ACKTO counts a retry and raises RETX on the entry's context, DEADLINE finishes the entry with reason 3, TGTTO
discards the OPEN entries of the stream; an acknowledged completion write retires its entry (R51, R62, R63). -/
def Sys2Proof.Stated.LedgerTimers : Prop :=
  ∀ (n : Fin 64) (i : Fin 4096) (s : State),
    let e := s.ent n.val i.val
    let v := s.vol n.val i.val
    (∀ d k r, e.role = .origin → (e.st = .issued ∨ e.st = .dataDone) → v.ackDue = some d → d ≤ s.now → v.heldAck = false → v.want = none →
      s.adopted n.val = false → s.findCtx e.ctx = some (k, r) →
      ∃ u, exec (.ackTimeout n i) s = .next u ∧
        u.ent n.val i.val = { e with retries := if e.retries = 0xFF then e.retries else e.retries + 1 } ∧
        (u.vol n.val i.val).ackDue = some (d + v.ackStep) ∧ u.ctx k r = (s.ctx k r).wake wakeSYNC 0xFFFF ∧ u.mem = s.mem) ∧
    (e.role = .origin → (e.st = .issued ∨ e.st = .dataDone) → e.word30.toNat ≤ s.now →
      exec (.deadlineExpiry n i) s = .next (ledRun s [.finish n.val i.val 3])) ∧
    (∀ d rr ri, e.role = .target → e.st = .opened → v.idleDue = some d → d ≤ s.now →
      s.findStream (s.ledUnit n.val) false e.partner.toNat e.localEp.toNat e.stream.toNat = some (rr, ri) →
      exec (.targetIdleTimeout n i) s = .next (ledThen (s.discardOpen (s.ledUnit n.val) rr ri))) ∧
    (∀ (k : Fin 65536) (w : SlotWrite), s.slotWrites.find? (fun x => x.ring == k.val && x.acked) = some w →
      let t := { s with slotWrites := dropFirst (fun x => x.ring == k.val && x.acked) s.slotWrites }
      (w.idx = noEntry → exec (.completionWriteAck k) s = .next (t.countSlot k.val)) ∧
      (w.shelf = n.val → w.idx = i.val → w.idx ≠ noEntry → s.shelfGone n.val = false → e.st = .complete → e.role = .origin → e.cidx.toNat = w.index % 2 ^ 32 → (s.ring k.val).en = false →
        (s.shelf n.val).commits = [] → (s.shelf n.val).mode = .none → (s.shelf n.val).adopt = none → s.adopted n.val = false →
        s.findStream n.val true e.partner.toNat e.localEp.toNat e.stream.toNat = none → v.heldSet = none →
        ∃ u, exec (.completionWriteAck k) s = .next u ∧ (u.ent n.val i.val).st = .retired ∧ u.mem = s.mem))

/-- All of `LedgerCommits`, `LedgerTimers`. -/
def Obligations.LedgerEvents : Prop := Stated.LedgerCommits ∧ Stated.LedgerTimers


/-! ## Packets that arrive and leave -/

/-- Ledger-class packets that pass their checks in order: the payload of a good packet of an OPEN transaction goes to the target queue; one
before FRONTIER is counted as a duplicate, one after it is answered NAK-GAP (R60, R81, R120, R123). -/
def Obligations.LedgerPackets : Prop :=
  ∀ (l : Fin 256) (s t : State) (x : RxPkt) (rr ri : Nat), ∀ p ∈ (
      [(.data l, fun c => c == 0x01), (.request l, fun c => c == 0x02), (.programCommand l, fun c => decide (0x80 ≤ c ∧ c ≤ 0xBF))]
        : List (Instr × (Nat → Bool))),
    s.rxHead l (fun q => p.2 q.cmd && s.forMe q) = some x →
    let k := x.pkt
    let u := s.epUnit (pidEp k.dst)
    (getB s (.glEp (pidEp k.dst)) 63 = false → exec p.1 s = .next ((s.takeRx l x.vc).dropCnt l)) ∧
    (getB s (.glEp (pidEp k.dst)) 63 = true → s.damperIn l u x = (t, .pass) →
      t.findStream u false k.src (pidEp k.dst) k.stream = some (rr, ri) →
      let h := t.heardFrom u k.src
      (h.svol rr ri).closing = false →
      (k.seq < (h.svol rr ri).frontier.toNat → k.ackreq = false → exec p.1 s = .next ((h.takeRx l x.vc).dups u)) ∧
      ((h.svol rr ri).frontier.toNat < k.seq → exec p.1 s = .next ((h.takeRx l x.vc).sendNakGap rr ri (h.svol rr ri).frontier.toNat)) ∧
      (∀ plain r i e, k.seq = (h.svol rr ri).frontier.toNat → x.glazed = some (.ok plain) →
        h.findOtxn u (h.entNext rr ri) k.txn = some (r, i, e) → h.entBusy r i = false → (h.ent r i).st = .opened →
        exec p.1 s = .next (ledThen (h.deliver u rr ri r i (k.opened plain) l))))

/-- Replies, stream commands and global packets that pass the damper act, one that fails it is counted, and one whose partner is being
fetched waits; the partner of a packet that passes has been heard (R61, R123, R125, R128 to R133, R444). -/
def Obligations.ReceivedPackets : Prop :=
  ∀ (l : Fin 256) (s t : State) (x : RxPkt),
    let u := s.epUnit (pidEp x.pkt.dst)
    let led := s.ledUnit (txnShelf x.pkt.txn)
    let here := s.servingShelf l.val
    let err := fun (a : State) => a.damperr l.val
    ∀ p ∈ (
      [(.ack l, 0x18, led, err, fun a => a.gotAck led x.pkt),
       (.streamState l, 0x1B, led, err, fun a => a.gotStreamState led x.pkt),
       (.nakGap l, 0x19, u, err, fun a => a.gotNakGap u x.pkt),
       (.nakClosed l, 0x1A, u, err, fun a => a.gotNakClosed u x.pkt),
       (.streamOpen l, 0x10, u, fun a => a.badStream l u x.pkt, fun a => a.gotStreamOpen u x.pkt),
       (.streamClose l, 0x11, u, fun a => a.badStream l u x.pkt, fun a => a.gotStreamClose u x.pkt),
       (.streamQuery l, 0x12, u, fun a => a.badStream l u x.pkt, fun a => a.gotStreamQuery u x.pkt),
       (.barrier l, 0x20, here, err, fun a => a.upPacket l x.pkt.stream false x.pkt),
       (.reduce l, 0x21, here, err, fun a => a.upPacket l x.pkt.stream true x.pkt),
       (.result l, 0x26, here, err, fun a => a.gotResult l x.pkt),
       (.broadcast l, 0x22, here, err, fun a => a.gotBcast l x.pkt),
       (.sysreset l, 0x24, here, err, fun a => if a.treeRole l = 1 then a.startSysreset else a),
       (.snapshot l, 0x23, here, err, fun a => a.gotSnapshot l x.pkt),
       (.timesync l, 0x25, here, err, fun a => a.gotTimesync l x.pkt),
       (.gabort l, 0x27, here, err, fun a => a.gotGabort l x.pkt)] : List (Instr × Nat × Nat × (State → State) × (State → State))),
    s.rxHead l (fun q => q.cmd == p.2.1 && s.forMe q) = some x →
    (p.2.1 = 0x10 → s.recordBusy u x.pkt.src (pidEp x.pkt.dst) x.pkt.stream = false) →
    (p.2.1 ∈ [0x19, 0x1A, 0x10, 0x11, 0x12] → getB s (.glEp (pidEp x.pkt.dst)) 63 = true) →
    (s.damperIn l p.2.2.1 x = (t, .pass) → exec p.1 s = .next (p.2.2.2.2 ((t.heardFrom p.2.2.1 x.pkt.src).takeRx l x.vc))) ∧
    (s.damperIn l p.2.2.1 x = (t, .fail) → exec p.1 s = .next (p.2.2.2.1 (t.takeRx l x.vc))) ∧
    (s.damperIn l p.2.2.1 x = (t, .waits) → exec p.1 s = .next t)

/-- What replies, stream commands and global packets do: an ACK of an ISSUED entry is held, a stale or a second one counts as a duplicate, as
does a STREAM-STATE that names no record of its GEN; a query of a stream is answered with NEXTIN; a RESULT makes its tag DONE, a child's packet joins its instance once, an abort ends the tag and
clears TREEOK, and a time packet sets the correction (R61, R129, R132, R133, R444). -/
def Obligations.PacketEffects : Prop :=
  ∀ (l : Fin 256) (s : State) (k : Packet),
    (∀ u, (s.ledRegions u).contains (txnShelf k.txn) = true →
      let e := s.ent (txnShelf k.txn) (txnIdx k.txn)
      e.role = .origin →
      (e.gen.toNat = txnGen k.txn → (s.vol (txnShelf k.txn) (txnIdx k.txn)).heldAck = true → s.gotAck u k = s.dups u) ∧
      (e.gen.toNat = txnGen k.txn → e.st = .issued → (s.vol (txnShelf k.txn) (txnIdx k.txn)).heldAck = false →
        ((s.gotAck u k).vol (txnShelf k.txn) (txnIdx k.txn)).heldAck = true ∧ (s.gotAck u k).ent (txnShelf k.txn) (txnIdx k.txn) = e) ∧
      (e.gen.toNat ≠ txnGen k.txn → s.gotAck u k = s.dups u)) ∧
    (∀ u, (s.ent (txnShelf k.txn) (txnIdx k.txn)).gen.toNat ≠ txnGen k.txn → s.gotStreamState u k = s.dups u) ∧
    (∀ u rr ri, s.findStream u false k.src (pidEp k.dst) k.stream = some (rr, ri) →
      s.gotStreamQuery u k = s.sendHw (pidEp k.dst) k.src 0x1B k.stream (s.ent rr ri).ackSeq.toNat k.txn) ∧
    (s.treeRole l.val = 2 → k.stream < 16 → (s.gop k.stream).status = 1 → (s.gop k.stream).inst.toNat = k.seq → l.val ∉ (s.gop k.stream).children →
      (s.gop k.stream).locals.length < s.localN k.stream →
      ((s.upPacket l.val k.stream false k).gop k.stream).children = (s.gop k.stream).children ++ [l.val]) ∧
    (s.treeRole l.val = 2 → k.stream < 16 → (s.gop k.stream).status = 1 → (s.gop k.stream).inst.toNat = k.seq → l.val ∈ (s.gop k.stream).children →
      s.upPacket l.val k.stream false k = s) ∧
    (s.treeRole l.val = 1 → k.stream < 16 → (s.gop k.stream).status = 1 → (s.gop k.stream).inst.toNat = k.seq → (s.gop k.stream).held = [] →
      ((s.gotResult l.val k).gop k.stream).status = 2) ∧
    ((s.treeRole l.val = 1 ∨ s.treeRole l.val = 2) → (k.payload.getD 0 0).toNat < 16 →
      ((s.gotGabort l.val k).gop (k.payload.getD 0 0).toNat).status = 3 ∧ (s.gotGabort l.val k).sys.treeOk = false) ∧
    (s.treeRole l.val = 1 → (s.gotTimesync l.val k).sys.slew =
      (((wordIn k.payload 0).toNat + ((wordIn k.payload 8).toNat + (s.link l.val).delay) : Nat) : Int) - (s.now : Int))

/-- Packets on their way out: one for another device waits for the damper of its route's port with one hop fewer, and one routed by its path
goes to the port that its path names next; the port takes the first packet, in the order of the channels, that the damper lets through, one that
waits holding none back; a ledger packet leaves its queue, is held until its turn has come, and its entry notes it; a storm ends
(R46, R53, R79, R80, R108, R119, R121, R122). -/
def Obligations.PacketsOut : Prop :=
  ∀ (l : Fin 256) (s : State),
    (∀ x, s.rxHead l (fun q => !s.forMe q) = some x → x.pkt.byPath = false →
      (∀ o b, (s.takeRx l x.vc).route (pidDev x.pkt.dst) = some (o, b) →
        exec (.packetForward l) s = .next ((s.takeRx l x.vc).modLink o (fun k => { k with
          fwdq := k.fwdq ++ [({ x.pkt with w0 := setFld x.pkt.w0 63 56 (x.pkt.hops - 1) } : Packet).fixHchk] }))) ∧
      ((s.takeRx l x.vc).route (pidDev x.pkt.dst) = none → exec (.packetForward l) s = .next ((s.takeRx l x.vc).dropCnt l))) ∧
    (∀ x, s.rxHead l (fun q => !s.forMe q) = some x → x.pkt.byPath = true →
      exec (.packetForward l) s = .next (s.forwardPath l x (Config.pathHop x.pkt.payload).toNat)) ∧
    (∀ w p more t,
      let n := s.servingShelf l
      (s.link l).st = .active → s.outHeads l = (w, p) :: more → (w = .held → s.ledgerLets p = true) →
      (s.damperOut l n p (w == .forward) = .leaves t →
        let u := (t.modLink l (fun k => k.without w p)).sysresetGo
        exec (.damperRelease l) s = .next (if w = .held then u.noteOut l p else u)) ∧
      (s.damperOut l n p (w == .forward) = .drops t → exec (.damperRelease l) s = .next ((t.modLink l (fun k => k.without w p)).sysresetGo)) ∧
      (s.damperOut l n p (w == .forward) = .waits t → (State.tryOut l n more t).2 = true →
        exec (.damperRelease l) s = .next (State.tryOut l n more t).1)) ∧
    (∀ p more, (s.link l).st = .active → s.outHeads l = (.held, p) :: more → s.ledgerLets p = false →
      exec (.damperRelease l) s = .next ((s.modLink l (fun k => k.without .held p)).badTx (s.servingShelf l))) ∧
    (∀ i more t,
      let n := s.servingShelf l
      let q := s.feedQueue l
      let p := { packetOf (s.itemBytes n i) with bad := s.itemBad n i }
      (s.link l).st = .active → s.outHeads l = [] → (s.queue n q).items = i :: more → s.linkOpen l 0 = true →
      (i.byGlaze = true → s.ledgerLets p = true → s.inTurn p = true → s.damperOut l n p false = .leaves t →
        exec (.damperRelease l) s = .next ((t.popFeed l n q).noteOut l p)) ∧
      (i.byGlaze = true → s.ledgerLets p = true → s.inTurn p = false →
        exec (.damperRelease l) s = .next ((s.popFeed l n q).modLink l (fun k => { k with heldOut := k.heldOut ++ [p] }))) ∧
      ((i.byGlaze = false ∨ s.ledgerLets p = false) → exec (.damperRelease l) s = .next ((s.popFeed l n q).badTx n))) ∧
    (∀ d, (s.link l).stormUntil = some d → d ≤ s.now →
      ∃ u, exec (.stormEnd l) s = .next u ∧ (u.link l).stormUntil = none ∧ (u.link l).bucketAt = s.now ∧
        (u.link l).bucket = refill (s.linkRate l) (getF s (.lkDamp l) 55 48) (s.link l).bucket (s.link l).bucketAt s.now ∧ u.mem = s.mem)

/-! ## Links and partners -/

/-- Link states of Table 4.6: each event moves its link from the state that it belongs to, a time-out once its time is over; training starts at
PRESET and follows the far end's request; PARAM brings the link up, but for another serial and for too many errors at 56.25 GBd under AUTO,
which lead to DETECT, the latter at 53.125 GBd (R104, R105, R113 to R115, R117). -/
def Sys2Proof.Stated.LinkStates : Prop :=
  ∀ (l : Fin 256) (preset : BitVec 3) (steps : List Int) (precode : Bool) (p : LinkParam) (s : State),
    let k := s.link l
    (k.st = .detect → exec (.symbolLock l) s = .next (s.toEq l)) ∧
    (s.toEq l = (s.linkGoto l .eq).modLink l (fun k => { k with
      preset := BitVec.ofNat 3 (getF s (.lkCfg l) 60 58)
      taps := presetTaps (BitVec.ofNat 3 (getF s (.lkCfg l) 60 58)) })) ∧
    (k.st = .lock → exec (.lockDone l) s = .next (((s.linkGoto l .param).aligned l).sendParam l)) ∧
    (k.st = .retrain → k.since + 2000000 ≤ s.now → exec (.retrainTimeout l) s = .next (s.toEq l)) ∧
    (k.st = .failed → k.since + 10000000 ≤ s.now → exec (.failedTimeout l) s = .next (s.linkGoto l .detect)) ∧
    (∀ x ∈ ([(.eqTimeout l, .eq, 60000000), (.lockTimeout l, .lock, 1000000), (.paramTimeout l, .param, 100000)] : List (Instr × LinkSt × Nat)),
      k.st = x.2.1 → k.since + x.2.2 ≤ s.now →
      exec x.1 s = .next ((s.linkGoto l .failed).modLink l (fun k => { k with fell := k.fell || getF s (.lkCfg l) 62 61 == 0 }))) ∧
    (∀ st, ((s.linkGoto l st).link l).st = st ∧ ((s.linkGoto l st).link l).since = s.now ∧ (s.linkGoto l st).mem = s.mem) ∧
    (((s.linkGoto l .detect).link l).slow = (getF s (.lkCfg l) 62 61 == 1 || (getF s (.lkCfg l) 62 61 == 0 && k.fell))) ∧
    (k.st = .eq → exec (.eqDone l ⟨preset, steps⟩ precode) s = .next ((s.linkGoto l .lock).modLink l (fun k => { k with
      preset := preset
      taps := stepTaps preset steps
      precode := precode && getB s (.lkCfg l) 57 }))) ∧
    (k.st = .param → s.linkHoused l.val = true → (k.peerSerial = none ∨ k.peerSerial = some p.serial) →
      (tooManyErrors p = false ∨ k.slow = true ∨ getF s (.lkCfg l) 62 61 ≠ 0 → exec (.paramExchange l p) s = .next (s.linkUp l.val p)) ∧
      (tooManyErrors p = true → k.slow = false → getF s (.lkCfg l) 62 61 = 0 →
        exec (.paramExchange l p) s = .next ((s.modLink l (fun k => { k with fell := true })).linkGoto l .detect))) ∧
    (k.st = .param → s.linkHoused l.val = true → (∃ x, k.peerSerial = some x ∧ x ≠ p.serial) →
      exec (.paramExchange l p) s = .next ((s.linkGoto l .detect).modLink l (fun k => { k with peerSerial := none }))) ∧
    (k.st = .retrain → s.linkHoused l.val = true → (k.peerSerial = none ∨ k.peerSerial = some p.serial) →
      exec (.retrainDone l p) s = .next (((s.aligned l).sendParam l).linkUp l.val p)) ∧
    (getB s (.lkCfg l) 63 = true → ((s.linkUp l.val p).link l).st = .active ∧ ((s.linkUp l.val p).link l).peerSerial = some p.serial ∧
      (s.linkUp l.val p).mem = s.mem) ∧
    (k.st = .active → exec (.lossOfSignal l) s = .next (s.linkDown l.val .retrain)) ∧
    (k.st = .active → k.lastValid + 2000 ≤ s.now → exec (.flitSilenceTimeout l) s = .next (s.linkDown l.val .detect)) ∧
    (k.st = .active → s.now < k.lastValid + 2000 → exec (.flitSilenceTimeout l) s = .next s)

/-- Flits: one that overlaps an uncorrectable codeword is discarded and the codeword counts once; one with a good CRC applies its credit report
and, in sequence, advances the expected FSEQ; out of sequence, or with a bad CRC, it asks for a retry; SYNC measures the delay. The sender
repeats a request, resends from the flit that a rewind names, ends a packet that is poisoned with ABORT, and sends IDLE when nothing else may
go (R106 to R112, R115, R132). -/
def Sys2Proof.Stated.Flits : Prop :=
  ∀ (l : Fin 256) (f : List Byte) (ok : Bool) (s : State), f.length = 256 →
    let k := s.link l
    let c := s.modLink l (fun k => k.codewords ok)
    let rep := s.setLink l.val { k.report f with lastValid := s.now }
    (∀ x ∈ ([(.dataFlit l f ok, fun t => decide (4 ≤ t ∧ t < 8)), (.idleFlit l f ok, fun t => decide (t = 0)),
        (.retryReq l f ok, fun t => decide (t = 1)), (.sync l f ok, fun t => decide (t = 2)),
        (.abort l f ok, fun t => decide (8 ≤ t ∧ t < 12))] : List (Instr × (Nat → Bool))),
      k.st = .active →
      (k.fecPasses ok = true → flitOk f = true → x.2 (flitType f) = true → exec x.1 s = .next (c.goodFlit l.val f)) ∧
      (k.fecPasses ok = true → flitOk f = false → exec x.1 s = .next (c.modLink l Link.discard)) ∧
      (k.fecPasses ok = false →
        (k.cwStarts = true → ok = false → exec x.1 s = .next ((c.modLink l Link.discard).uncorrectable l)) ∧
        ((k.cwStarts = false ∨ ok = true) → exec x.1 s = .next (c.modLink l Link.discard)))) ∧
    (flitType f = 0 → s.goodFlit l.val f = rep) ∧
    (4 ≤ flitType f → flitSeq f ≠ k.rxExp.toNat → s.goodFlit l.val f = rep.setLink l.val (Link.discard { k.report f with lastValid := s.now })) ∧
    (8 ≤ flitType f → flitSeq f = k.rxExp.toNat → ((s.goodFlit l.val f).link l.val).rxExp = k.rxExp + 1) ∧
    (flitType f = 2 → s.goodFlit l.val f = rep.setLink l.val (Link.gotSync { k.report f with lastValid := s.now } s.now f)) ∧
    (k.st = .param → k.fecPasses ok = true → flitOk f = true → flitType f = 2 →
      exec (.sync l f ok) s = .next (c.modLink l (fun k => k.gotSync s.now f))) ∧
    (∀ c t, k.reqSent = some (k.rxExp.toNat, c, t) → k.st = .active → t + 2000 ≤ s.now → c < 16 →
      exec (.retryReqRepeat l) s = .next (s.setLink l.val { k with reqWanted := true })) ∧
    (k.st = .active → (∀ x ∈ k.txq, x.marked = false) → k.reqWanted = true → (k.reqSent = none ∨ ∃ e c t, k.reqSent = some (e, c, t) ∧ c < 15) →
      ∃ u, exec (.flitSend l) s = .next u ∧ (u.link l).reqWanted = false ∧ (u.link l).st = .active ∧ (u.link l).retryBuf = k.retryBuf ∧
        u.outbox = .flit l (k.flit k.txNext.toNat 1 (leBytes 2 k.rxExp.toNat)) :: s.outbox ∧ u.mem = s.mem) ∧
    (k.st = .active → (∀ x ∈ k.txq, x.marked = false) → k.reqWanted = false →
      (∀ f t b, k.resendNext = some (f, t, b) → exec (.flitSend l) s = .next ((s.putFlit l f t b).modLink l (fun x => { x with
        rewind := if x.txNext = BitVec.ofNat 12 (f + 1) then none else some (BitVec.ofNat 12 (f + 1)) }))) ∧
      (k.rewind = none → k.retryBuf.length < 255 →
        (∀ v t, k.abortWanted = v :: t → ∃ u, exec (.flitSend l) s = .next u ∧ (u.link l).abortWanted = t ∧ (u.link l).txNext = k.txNext + 1 ∧
          (u.link l).retryBuf = k.retryBuf ++ [(k.txNext.toNat, 8 + v, [])] ∧ u.mem = s.mem) ∧
        (k.abortWanted = [] → k.nextVc = none → exec (.flitSend l) s = .next (s.putFlit l.val k.txNext.toNat 0 [])) ∧
        (∀ v, k.abortWanted = [] → k.nextVc = some v → (fillFlit 8 v 248 k.txq []).2.2 = [] → s.sys.sysResetting = false →
          ∃ u, exec (.flitSend l) s = .next u ∧ (u.link l.val).txNext = k.txNext + 1 ∧
            (u.link l.val).retryBuf = k.retryBuf ++ [(k.txNext.toNat, 4 + v, (fillFlit 8 v 248 k.txq []).1)] ∧
            tget 0 (u.link l.val).credits v = tget 0 k.credits v - 1 ∧ u.mem = s.mem)))

/-- All of `LinkStates`, `Flits`. -/
def Obligations.LinkPorts : Prop := Stated.LinkStates ∧ Stated.Flits


/-- Partners: a miss reads the host entry at BASE + id x 8, the entry enters the cache, one that does not answer its probe is SUSPECT, a SUSPECT one is LOST when PLOSTTO is over,
and a closed endpoint is lost everywhere, and goes on along the tree (R124, R125). -/
def Sys2Proof.Stated.Partners : Prop :=
  ∀ (n : Fin 64) (pid : BitVec 20) (s : State),
    (s.partner n.val pid.toNat = none → getB s .glPart 0 = true → (s.shelf n.val).partners.length < partnerSlots →
      (s.shelf n.val).fetching.contains pid = false →
      s.findPartner n.val pid.toNat = ((s.setShelf n.val { s.shelf n.val with fetching := (s.shelf n.val).fetching ++ [pid] }).readTable
        (.partner n.val pid.toNat) (getF s .glPart 51 23 * 2 ^ 23 + pid.toNat * 8), .fetching)) ∧
    (∀ entry, (s.shelf n.val).fetching.contains pid = true → s.partner n.val pid.toNat = none → (s.shelf n.val).partners.length < partnerSlots →
      ∃ u x, exec (.partnerFetchDone n pid entry) s = .next u ∧ u.partner n.val pid.toNat = some x ∧ x.valid = bitAt entry 63 ∧
        x.rclass.toNat = fld entry 62 59 ∧ (u.shelf n.val).fetching = (s.shelf n.val).fetching.erase pid ∧ u.mem = s.mem) ∧
    (∀ p a t, s.partner n.val pid.toNat = some p → s.activeRecord n.val pid.toNat = some a → p.st = .present → p.probeSent = some t →
      t + s.probeTo ≤ s.now → exec (.probetoExpiry n pid) s = .next (s.modPartner n.val pid.toNat (fun p => { p with
        st := .suspect
        since := s.now
        probeSent := none }))) ∧
    (∀ p r i e, s.partner n.val pid.toNat = some p → s.activeRecord n.val pid.toNat = some (r, i, e) → p.st = .present → p.probeSent = none →
      p.lastArrival + s.probeTo ≤ s.now → exec (.probetoExpiry n pid) s = .next ((s.modPartner n.val pid.toNat (fun p => { p with
        probeSent := some s.now })).sendHw e.localEp.toNat pid.toNat 0x12 e.stream.toNat 0 (txnOf r i e.gen.toNat))) ∧
    (∀ p, s.partner n.val pid.toNat = some p → p.st = .suspect → p.since + s.plostTo ≤ s.now →
      exec (.plosttoExpiry n pid) s = .next (s.losePartner n.val pid.toNat)) ∧
    (∀ (l : Fin 256) (dev : BitVec 12) (ep : BitVec 8) (x : RxPkt) (t : State), Stated.mgmtTaken s l x t →
      exec (.epclose l dev ep) s = .next (t.gotEpclose l dev ep) ∧
      (t.treeRole l ≠ 1 → t.treeRole l ≠ 2 → t.gotEpclose l dev ep = t.loseEverywhere (dev.toNat * 256 + ep.toNat)))

/-- Election, enumeration, snapshot and time: a lower serial or a shorter way to it is taken over and sent on every ACTIVE link, another root
isolates a link whose ends both hold ids, a device that hears none is root after 1 ms; DISCOVER and IDASSIGN act here when no hop is left, else
they go on by the link that their path names; the cut holds every entry at its time (R126, R127, R131,
R132). -/
def Sys2Proof.Stated.DeviceTree : Prop :=
  (∀ (l : Fin 256) (rootSer : Word) (dist : Nat) (s t : State) (x : RxPkt), Stated.mgmtTaken s l x t →
    exec (.elect l rootSer dist) s = .next (t.gotElect l rootSer dist) ∧
    ((t.sys.idv && (t.link l).farIdv) = false →
      ((rootSer < t.sys.rootSer ∨ (rootSer = t.sys.rootSer ∧ dist + 1 < t.sys.dist)) →
        t.gotElect l rootSer dist = (t.modSys (fun y => { y with
          rootSer := rootSer
          dist := dist + 1
          electAt := t.now
          root := false })).electAll) ∧
      (t.sys.rootSer < rootSer → t.gotElect l rootSer dist = t)) ∧
    (t.sys.idv = true → (t.link l).farIdv = true → t.sys.rootSer < rootSer →
      t.gotElect l rootSer dist = t.modLink l (fun k => { k with isol := true }))) ∧
  (∀ s : State, s.sys.rootSer = s.fuses.serial → s.sys.electAt + 1000000 ≤ s.now →
    exec .rootElectTimeout s = .next (s.modSys (fun y => { y with root := true }))) ∧
  (∀ (l : Fin 256) (path : List Byte) (devId : BitVec 12) (s : State) (x : RxPkt), s.rxHead l (fun p => p.byPath) = some x →
    let t := s.takeRx l x.vc
    (x.pkt.hops = 0 → exec (.discover l path) s = .next (t.sendMgmt l (t.discovery l)) ∧ exec (.idassign l path devId) s = .next (t.takeId l devId)) ∧
    (∀ h more, x.pkt.hops ≠ 0 → path = h :: more → exec (.discover l path) s = .next (s.forwardPath l x h.toNat) ∧
      exec (.idassign l path devId) s = .next (s.forwardPath l x h.toNat))) ∧
  (∀ (l : Nat) (devId : BitVec 12) (s : State),
    (s.sys.idv = false → s.takeId l devId = ((s.modSys (fun y => { y with
      idv := true
      devId := devId })).sendMgmt l (.idReply (Config.returnPath l) devId))) ∧
    (s.sys.idv = true → s.takeId l devId = s.sendMgmt l (.idReply (Config.returnPath l) s.sys.devId))) ∧
  (∀ s : State, s.sys.snapActive = true → s.sys.snapFrozen = false → s.sys.snapCt ≤ s.now → getB s .glSnap 0 = false →
    exec .snapshotCut s = .next (s.modSys (fun y => { y with
      snapFrozen := true
      snapCut := s.cut }))) ∧
  (∀ s : State, s.sys.snapActive = true → s.sys.snapFrozen = true → s.cutting = false →
    s.childLinks.all (fun l => s.sys.snapChildren.contains l) = true → s.sys.root = true → s.sys.snapRefused = false →
    ∃ u, exec .snapshotCutWritten s = .next u ∧ u.sys.snapActive = false ∧ getB u .glSnap 1 = true ∧ u.mem = s.mem) ∧
  (∀ s : State, s.sys.root = true → s.sys.timesyncAt + 1000000 ≤ s.now →
    exec .timesyncSend s = .next ((s.modSys (fun y => { y with timesyncAt := s.now })).sendDown 0x25 0 0 (timesyncPayload s.now 0))) ∧
  (∀ (who : Party) (e : Fin 256) (v : Word) (s : State), Stated.granted s who (.glEp e.val) v → getB s (.glEp e.val) 63 = false →
    ∃ u, exec (.glEpWrite who e v) s = .next u ∧ rdReg u (.glEp e.val) = (bitIf 63 (bitAt v 63) ||| place 62 57 (fld v 62 57)) ∧ u.mem = s.mem)

/-- All of `Partners`, `DeviceTree`. -/
def Obligations.SystemOfDevices : Prop := Stated.Partners ∧ Stated.DeviceTree


/-! ## Glaze engines and keys -/

/-- Requests of the glaze engines: work that waits starts first, the crypto pool before the requests that wait for a compression engine, then
inbound work of the guaranteed links, the next item of the glaze queue, and inbound work of the share links; a reserved command completes with
BADCMD, one of a wrong length with BADLEN; a wait that runs out bypasses compression; LINKOUT seals under a bound key from FLOOR on, and XTS
works under an XTS key (R137 to R139, R145, R148, R149, R152, R155 to R157). -/
def Sys2Proof.Stated.GlazeRequests : Prop :=
  (∀ (n : Fin 64) (s : State) (e : Nat),
    let h := s.shelf n.val
    (∀ r t, h.cryptoPool = r :: t → s.freeEngine n.val false = some e →
      exec (.glazeDispatch n) s = .next ((s.setShelf n.val { h with cryptoPool := t }).startReq n.val e r)) ∧
    (∀ r t, h.cryptoPool = [] → h.compPool = r :: t → (∀ y ∈ r :: t, y.packed = none) → s.freeEngine n.val true = some e →
      exec (.glazeDispatch n) s = .next ((s.setShelf n.val { h with compPool := t }).startReq n.val e r)) ∧
    (∀ t, s.startWaiting n.val = none → s.startInbound n.val false = some t → exec (.glazeDispatch n) s = .next t) ∧
    (∀ t, s.startWaiting n.val = none → s.startInbound n.val false = none → (s.dispatchItem n.val).2 = false →
      (s.dispatchItem n.val).1.startInbound n.val true = some t → exec (.glazeDispatch n) s = .next t) ∧
    (∀ l x, s.servedOrder n.val = [l] → (s.link l).rxFifo = [x] → s.wantsGlaze x = true → s.freeEngine n.val x.needsComp = some e →
      ∃ t, s.startInbound n.val false = some t ∧ (t.link l).rxFifo = [{ x with eng := some e }] ∧ t.mem = s.mem) ∧
    (∀ x rest, s.startWaiting n.val = none → s.startInbound n.val false = none → h.cryptoPool = [] → s.shelfActive n.val = true →
      getB s (.shGlcfg n.val) 63 = true →
      let q := getF s (.shGlcfg n.val) 9 0
      let r : GlazeReq := { bytes := s.itemBytes n.val x, ct := x.ct, since := s.waitsSince n.val x }
      s.qAbsent n.val q = false → (s.queue n.val q).items = x :: rest → rest.length + 1 < s.qDepth n.val q → s.shareOut n.val r.outq = none →
      s.itemBad n.val x = none → s.freeEngine n.val false = some e → (r.badCmd = true ∨ r.badLen = true ∨ r.compresses = false) →
      ∃ u, exec (.glazeDispatch n) s = .next u ∧ (u.engine n.val e).req = some r ∧ (u.queue n.val q).items = rest ∧ u.mem = s.mem ∧
        (r.badCmd = true → (u.engine n.val e).out = some (r.fails 7)) ∧
        (r.badCmd = false → r.badLen = true → (u.engine n.val e).out = some (r.fails 6)) ∧
        (r.badCmd = false → r.badLen = false → (u.engine n.val e).out = none)) ∧
    (∀ r, h.compPool = [r] → r.packed = none → r.fixForm = false → r.since + r.waitUs * 1000 ≤ s.now → s.freeEngine n.val true = none →
      (∀ t, (s.setShelf n.val { h with compPool := [] }).toCrypto n.val (r.bypass 1) = some t →
        exec (.compressWaitExpiry n) s = .next (t.bypassCnt n.val)) ∧
      ((s.setShelf n.val { h with compPool := [] }).toCrypto n.val (r.bypass 1) = none →
        exec (.compressWaitExpiry n) s = .next ((s.setShelf n.val { h with compPool := [r.bypass 1] }).bypassCnt n.val))) ∧
    (∀ r, h.cryptoPool = [] → s.freeEngine n.val false = some e →
      s.toCrypto n.val r = some ((s.modShelf n.val (fun h => { h with cryptoPool := [] })).startReq n.val e r)) ∧
    (∀ r, s.freeEngine n.val false = none → h.cryptoPool.length < 4 →
      s.toCrypto n.val r = some (s.modShelf n.val (fun x => { x with cryptoPool := h.cryptoPool ++ [r] }))) ∧
    (∀ r, s.freeEngine n.val false = none → 4 ≤ h.cryptoPool.length → s.toCrypto n.val r = none)) ∧
  (∀ (n : Fin 64) (e : Fin 6) (r : GlazeReq) (s : State), (s.engine n.val e.val).req = some r → (s.engine n.val e.val).out = none →
    s.shelfActive n.val = true →
    (e.val < 4 → r.op = 1 → r.packed = none → r.packet.cmp = false →
      let p := linkPacket s.sys.devId.toNat r 0 r.packet.payload
      let full := fun (q : Packet) => { (r.fails 0) with
        len := r.packet.payload.length
        data := q.bytes }
      (p.enc = false → exec (.linkout n e) s = .next (s.engineOut n.val e.val (full p))) ∧
      (p.enc = true → p.keySlot / 1024 = n.val → (s.shelf n.val).saggarClosed = false →
        let k := tget {} (s.shelf n.val).homeKeys (p.keySlot % 1024)
        (k.valid = false → exec (.linkout n e) s = .next (s.engineOut n.val e.val (r.fails 4))) ∧
        (k.valid = true → k.mode = 0 → (k.localId.toNat ≠ p.src ∨ k.peer.toNat ≠ p.dst) →
          exec (.linkout n e) s = .next (s.engineOut n.val e.val (r.fails 8))) ∧
        (k.valid = true → k.mode = 0 → k.localId.toNat = p.src → k.peer.toNat = p.dst → p.seq < k.floor.toNat →
          exec (.linkout n e) s = .next ((s.nonceCnt n.val).engineOut n.val e.val (r.fails 5))) ∧
        (k.valid = true → k.mode = 0 → k.localId.toNat = p.src → k.peer.toNat = p.dst → k.floor.toNat ≤ p.seq →
          exec (.linkout n e) s = .next (s.engineOut n.val e.val (full (sealPacket k 0 p)))))) ∧
    (4 ≤ e.val → r.op = 1 →
      let data := byteOf r.wanted :: packForm r.wanted r.packet.payload
      let t := s.setEngine n.val e.val { s.engine n.val e.val with req := none }
      ∀ u, (data.length < r.packet.payload.length → t.toCrypto n.val { r with packed := some (r.wanted, 0, data) } = some u →
          exec (.linkout n e) s = .next u) ∧
        (r.packet.payload.length ≤ data.length → t.toCrypto n.val (r.bypass 2) = some u → exec (.linkout n e) s = .next (u.incompCnt n.val))) ∧
    (∀ enc, e.val < 4 → r.op = (if enc then 2 else 3) → fld (r.w 2) 47 32 / 1024 = n.val → (s.shelf n.val).saggarClosed = false →
      let t := xtsResult enc (tget {} (s.shelf n.val).homeKeys (fld (r.w 2) 47 32 % 1024)) r
      exec (if enc then .xtsenc n e else .xtsdec n e) s = .next (s.engineOut n.val e.val { (r.fails t.1) with
        len := t.2.length
        data := t.2 })))

/-- An engine commits its output and then its status item, and waits at a full queue; an arriving packet of the command channel has its seal
opened by a crypto engine and is then decompressed and checked; an idle engine is tested every 60 s, and one that fails is taken out of use, its shelf with it when it was the last of its kind
(R101, R102, R137, R146, R147, R151, R157, R159 to R161). -/
def Sys2Proof.Stated.GlazeCompletion : Prop :=
  (∀ (n : Fin 64) (e : Fin 6) (o : GlazeOut) (s : State), (s.engine n.val e.val).out = some o →
    let idle := fun (t : State) => t.setEngine n.val e.val { t.engine n.val e.val with
      req := none
      out := none
      outDone := false }
    let t := s.setEngine n.val e.val { s.engine n.val e.val with outDone := true }
    (4 ≤ o.result → o.statq = 0xFFFF → exec (.glazeOpComplete n e) s = .next (idle t)) ∧
    (4 ≤ o.result → o.statq ≠ 0xFFFF →
      let c := t.unitCommit (o.statq.toNat / 1024) (o.statq.toNat % 1024) (unitGlaze n.val e.val) (wordBytes (statusWord o)) false
      (c.2 = .waits → exec (.glazeOpComplete n e) s = .next c.1) ∧ (c.2 ≠ .waits → exec (.glazeOpComplete n e) s = .next (idle c.1))) ∧
    (o.result < 4 → o.bad = false → (s.engine n.val e.val).outDone = false →
      let c := s.unitCommit (o.outq.toNat / 1024) (o.outq.toNat % 1024) (unitGlaze n.val e.val) o.data false
      (c.2 = .waits → exec (.glazeOpComplete n e) s = .next c.1) ∧
      (c.2 ≠ .waits → o.statq = 0xFFFF →
        exec (.glazeOpComplete n e) s = .next (idle (c.1.setEngine n.val e.val { c.1.engine n.val e.val with outDone := true }))))) ∧
  (∀ (l : Fin 256) (x : RxPkt) (more : List RxPkt) (s : State), (s.link l.val).rxFifo.filter (fun y => y.eng.isSome) = x :: more →
    s.shelfActive (s.servingShelf l.val) = true →
    let n := s.servingShelf l.val
    let f := fun (y : RxPkt) => y.eng == x.eng
    ((x.needsComp = true ∨ x.pkt.enc = false) →
      exec (.inboundGlaze l) s = .next (s.noteGlazed l f (openPlain x.pkt (x.opened.getD x.pkt.payload)))) ∧
    (x.needsComp = false → x.pkt.enc = true → x.pkt.keySlot / 1024 = n → (s.shelf n).saggarClosed = false →
      let k := tget {} (s.shelf n).homeKeys (x.pkt.keySlot % 1024)
      (∀ o, openSeal k x.pkt = .inl o → exec (.inboundGlaze l) s = .next (s.noteGlazed l f o)) ∧
      (∀ b, openSeal k x.pkt = .inr b → x.pkt.cmp = false → exec (.inboundGlaze l) s = .next (s.noteGlazed l f (openPlain x.pkt b))) ∧
      (∀ b, openSeal k x.pkt = .inr b → x.pkt.cmp = true → exec (.inboundGlaze l) s = .next (s.modLink l (fun k => { k with
        rxFifo := modRx f (fun y => { y with opened := some b, eng := none }) k.rxFifo })))) ∧
    (∀ t, s.inboundDone n l x = (t, false) → exec (.inboundGlaze l) s = .next (State.inboundFirst n l more t))) ∧
  (∀ (n : Fin 64) (e : Fin 6) (s : State),
    let x := s.engine n.val e.val
    (∀ d, lastDue s.now e.val = some d → s.engineIdle n.val e.val = true → s.noTest n.val = true → x.lastTest ≤ d →
      exec (.glazeSelfTest n e) s = .next (s.setEngine n.val e.val { x with
        testAt := some s.now
        lastTest := s.now + 1 })) ∧
    (∀ t, x.testAt = some t → t + 4000 ≤ s.now →
      let a := s.setEngine n.val e.val { x with testAt := none }
      let b := setF a (.shGlstat n.val) 31 0 (getF a (.shGlstat n.val) 31 0 + 1)
      let c := setB b (.shGlstat n.val) (passBit e.val) false
      let g := c.setEngine n.val e.val { c.engine n.val e.val with failed := true }
      let d := (g.raise n.val 21).log 1 n.val 2 21 (rdReg g (.shGlstat n.val))
      exec (.glazeTestDone n e true) s = .next (setB b (.shGlstat n.val) (passBit e.val) true) ∧
      ((d.allFailed n.val [0, 1, 2, 3] || d.allFailed n.val [4, 5]) = false → exec (.glazeTestDone n e false) s = .next d) ∧
      ((d.allFailed n.val [0, 1, 2, 3] || d.allFailed n.val [4, 5]) = true → exec (.glazeTestDone n e false) s = .next (d.retireShelf n.val))))

/-- All of `GlazeRequests`, `GlazeCompletion`. -/
def Obligations.GlazeEngines : Prop := Stated.GlazeRequests ∧ Stated.GlazeCompletion


/-- Key slots: LOAD fetches the record, a good record is stored with a FLOOR that never falls, ERASE empties the slot, QUERY shows its attributes;
a command without a key grant ends with NOAUTH and counts as a violation; a fill takes the slot's home copy (R141 to R144, R332, R376). -/
def Obligations.KeySlots : Prop :=
  (∀ (who : Party) (v : Word) (s : State), Stated.granted s who .glKeycmd v →
    let k := fld v 15 0
    let rows := [(1, Instr.keyLoad who v), (2, Instr.keyErase who v), (3, Instr.keyQuery who v)]
    ∀ x ∈ rows, fld v 63 60 = x.1 →
    (getB s .glKeystat 63 = true → exec x.2 s = .next s) ∧
    (getB s .glKeystat 63 = false → (getB s .glWipe 63 = true ∨ s.fuses.lc = 3) → exec x.2 s = .next (s.keyDone k 1)) ∧
    (getB s .glKeystat 63 = false → getB s .glWipe 63 = false → s.fuses.lc ≠ 3 →
      (x.1 ≠ 3 → who ≠ .warden → s.keyGrant k = false → exec x.2 s = .next ((s.keyDone k 1).violate who true 0x500)) ∧
      ((x.1 = 3 ∨ who = .warden ∨ s.keyGrant k = true) → s.keyCopy k = none → exec x.2 s = .next (s.keyDone k 4)) ∧
      ((who = .warden ∨ s.keyGrant k = true) → s.keyCopy k ≠ none →
        (x.1 = 1 →
          let a := getF s .glKeyaddr 51 7 * 128
          let c : KeyCmd := { slot := k, kek := fld v 31 16, wrap := bitAt v 59, warden := who == .warden }
          let t := wrReg { s with keyCmd := some c } .glKeystat (bitIf 63 true ||| place 15 0 k)
          exec x.2 s = .next ((t.readTable (.keyRecord 0) a).readTable (.keyRecord 1) (a + 64))) ∧
        (x.1 = 2 → exec x.2 s = .next ((s.keyStore k {}).keyDone k 0))) ∧
      (x.1 = 3 → ∀ y, s.keyCopy k = some y →
        ∃ u, exec x.2 s = .next u ∧ getB u .glKeyattr 63 = y.valid ∧ getF u .glKeyattr 62 60 = y.mode.toNat ∧ getF u .glKeyattr 59 40 = y.localId.toNat ∧
          getF u .glKeyattr 39 20 = y.peer.toNat ∧ getF u .glKeystat 62 60 = 0 ∧ u.shelves = s.shelves ∧ u.mem = s.mem))) ∧
  (∀ (r : List Byte) (c : KeyCmd) (old : KeySlot) (s : State), r.length = 128 →
    let a := (s.readEnds (.keyRecord 0)).readEnds (.keyRecord 1)
    a.keyCmd = some c → a.keyCopy c.slot = some old →
    let done := fun (keys : List Byte) => (a.keyStore c.slot (slotOf keys r old)).keyDone c.slot 0
    (recordOk c.wrap r = false → exec (.keyRecordFetched r) s = .next (a.keyDone c.slot 2)) ∧
    (recordOk c.wrap r = true → c.wrap = false → exec (.keyRecordFetched r) s = .next (done (slice r 0 64))) ∧
    (recordOk c.wrap r = true → c.wrap = true →
      (a.kekOf c = none → exec (.keyRecordFetched r) s = .next (a.keyDone c.slot 2)) ∧
      (∀ k, a.kekOf c = some k →
        (keyUnwrap (keyBytes k.key1) (slice r 0 72) = none → exec (.keyRecordFetched r) s = .next (a.keyDone c.slot 3)) ∧
        (∀ keys, keyUnwrap (keyBytes k.key1) (slice r 0 72) = some keys → exec (.keyRecordFetched r) s = .next (done keys))))) ∧
  (∀ (keys r : List Byte) (old : KeySlot), old.floor.toNat ≤ (slotOf keys r old).floor.toNat) ∧
  (∀ (n : Fin 64) (k : Fin 65536) (s : State) (x : KeySlot) (t : BitVec 256),
    (s.shelf n.val).keyMiss = [(k.val, false)] → s.keyCopy k.val = some x → (s.shelf n.val).transportKey = some t → s.saggarOpen n.val = true →
    exec (.keyFillDone n k) s = .next (s.setShelf n.val { s.shelf n.val with
      keyMiss := []
      keyCache := (aput k.val x (s.shelf n.val).keyCache).take 256 }))

/-! ## Fault tolerance and shelf memory -/

/-- A mismatch, lag or parity error is retried from the checkpoint, and sparing takes the slot where it repeats within the persistence window or
the checkpoint itself is bad; the line with a parity error leaves the cache; a core that a failed entry stopped goes to the spare, and the warden's resets its island; a core that passes its
test becomes the spare; a mismatch inside a duplicated unit retires its shelf or passes it over (R287, R342 to R346, R349). -/
def Sys2Proof.Stated.CoreFaults : Prop :=
  (∀ (n : Fin 64) (i : Fin 8) (s : State),
    let k := 16 * n.val + 2 * i.val
    let t := bumpF s (.shFtstat n.val) 47 32 1
    s.shelfActive n.val = true → s.paired n.val = true → s.slotOff n.val (2 * i.val) = false → (s.core k).resetDue = false →
    tget none (s.shelf n.val).parityAt (2 * i.val) ≠ some s.now →
    ∀ p ∈ [(Instr.pairMismatch n i, 1), (.pairLag n i, 2)],
      (t.persistent k = false → exec p.1 s = .next (t.retryCore k)) ∧
      (t.persistent k = true → exec p.1 s = .next (t.spareSlot n.val (t.leaver n.val (2 * i.val)).1 (t.leaver n.val (2 * i.val)).2 p.2))) ∧
  (∀ (n : Fin 64) (phys : Fin 17) (arr : ParityArray) (i : Nat) (s : State),
    let k := 16 * n.val + s.unitOf n.val i
    let t := (bumpF s (.shFtstat n.val) 31 16 1).modShelf n.val (fun h => { h with
      parityAt := tset none h.parityAt (s.unitOf n.val i) (some s.now) })
    (∀ p, arr ≠ .hostWrite p) → s.slotOf n.val phys.val = some i → s.shelfActive n.val = true → (s.core k).resetDue = false →
    ((arr = .checkpoint ∨ t.persistent k = true) → exec (.parityError n phys arr) s = .next (t.spareSlot n.val i phys.val 3)) ∧
    (arr ≠ .checkpoint → t.persistent k = false →
      exec (.parityError n phys arr) s = .next ((t.modCore k (fun c => c.invalidate arr)).retryCore k))) ∧
  (∀ (n : Fin 64) (phys : Fin 17) (p : Fin 16) (s : State), exec (.parityError n phys (.hostWrite p)) s = .next (s.modPort p.val (fun x => { x with parity := true }))) ∧
  (∀ (c : Core) (i : Fin 64) (w : Fin 4), tget {} (c.invalidate (.icache i w)).icache i.val =
    { tget {} c.icache i.val with ways := tdel w.val (tget {} c.icache i.val).ways }) ∧
  (∀ (k r : Nat) (s : State), (s.core k).run = some r →
    let u := s.retryCore k
    u.ctx k r = { s.ctx k r with wait := none } ∧ (u.core k).seg = none ∧ (u.core k).sinceRetry = some 0 ∧ u.mem = s.mem ∧ u.shelves = s.shelves) ∧
  (∀ (n : Fin 64) (phys : Fin 17) (s : State), (s.shelf n.val).coreTest.contains phys.val = true →
    let t := s.modShelf n.val (fun h => { h with coreTest := h.coreTest.filter (· ≠ phys.val) })
    exec (.coretestDone n phys true) s = .next (t.setSpare n.val phys.val) ∧
    exec (.coretestDone n phys false) s = .next (setB t (.shCorestat n.val) (42 + phys.val) true)) ∧
  (∀ (c : CoreId) (s : State),
    let k := s.coreKey c
    (s.core k).resetDue = true →
    (k ≠ wardenKey → s.shelfActive (keyShelf k) = true →
      exec (.coreReset c) s = .next (s.spareSlot (keyShelf k) (keySlot k) (s.physOf (keyShelf k) (keySlot k)) 4)) ∧
    (k = wardenKey → exec (.coreReset c) s = .next s.wardenIslandReset)) ∧
  (∀ (n : Fin 64) (g : Fin 8) (p : Fin 16) (l : Fin 256) (s : State),
    exec (.dupMismatch (.shelfSteward n)) s = .next (s.retireShelf n.val) ∧
    (∃ u, exec (.dupMismatch (.groupSteward g)) s = .next u ∧ u.power.groupPassed.getLsbD g.val = true ∧ u.retired = s.retired) ∧
    exec (.dupMismatch (.grantChecker p)) s =
      .next ((s.modPort p.val (fun x => { x with grantBroken := true })).reaction (portShelf p.val) 2 (rdReg s (.hpStat p.val))) ∧
    exec (.dupMismatch (.damper l)) s =
      .next ((s.modLink l.val (fun x => { x with damperBroken := true })).reaction (s.servingShelf l.val) 2 (rdReg s (.lkDamp l.val))))

/-- A change between PAIRED and SPLIT: from DRAINTO on contexts are held at any boundary, the switch comes once all are held, and after 50 us
the hand-over fails with MODE unchanged (R353). -/
def Sys2Proof.Stated.PairingHandOver : Prop :=
  ∀ (n : Fin 64) (s : State) (h : Handover), (s.shelf n.val).handover = some h →
    (h.since + getF s (.shPaircfg n.val) 55 40 * 1000 ≤ s.now →
      let t := s.modShelf n.val (fun x => { x with handover := some { h with drained := true } })
      exec (.draintoExpiry n) s = .next (t.holdShelf n.val) ∧
      (∀ k r, keyShelf k = n.val → k ≠ wardenKey → (s.ctx k r).hold = true → (s.ctx k r).held = false → (s.ctx k r).tags = [] →
        (s.core k).halted = false → (s.ctx k r).resident = true → (s.ctx k r).st ≠ .loading → ((s.core k).run = some r → s.midInstr k = false) →
        t.holdDue k r = true)) ∧
    (∀ k r, r < 16 → s.vexek.draining = none → s.holdDue k r = true → ((s.holdAll k).ctx k r).held = true) ∧
    (∀ t, t = s.holdShelf n.val → s.now ≤ h.since + 50000 + s.icNs (16 * n.val) 1024 →
      (t.allHeld n.val = false → exec (.pairHandoverSwitch n) s = .next t) ∧
      (t.allHeld n.val = true → h.split = true → exec (.pairHandoverSwitch n) s =
        .next (((setB (foldS (List.range 8) (fun s i => s.switchOdd n.val i true) t) (.shPaircfg n.val) 56 true).handoverEnds n.val).ftReaction n.val)) ∧
      (t.allHeld n.val = true → h.split = false → exec (.pairHandoverSwitch n) s =
        .next (foldS (List.range 8) (fun s i => s.modCore (16 * n.val + 2 * i) (fun c => { c with fetchMiss := none, fetchBad := none }))
          (((setB (foldS (List.range 8) (fun s i => s.switchOdd n.val i false) t) (.shPaircfg n.val) 56 false).handoverEnds n.val).ftReaction n.val)))) ∧
    (h.since + 50000 ≤ s.now → (s.shelf n.val).detWaiting = false → ∃ u, exec (.handoverTimeout n) s = .next u ∧
      (u.shelf n.val).handover = none ∧ getB u (.shPaircfg n.val) 61 = true ∧ getB u (.shPaircfg n.val) 60 = false ∧
      getB u (.shPaircfg n.val) 56 = getB s (.shPaircfg n.val) 56 ∧ u.cores = s.cores ∧ u.mem = s.mem)

/-- All of `CoreFaults`, `PairingHandOver`. -/
def Obligations.FaultTolerance : Prop := Stated.CoreFaults ∧ Stated.PairingHandOver


/-- A corrected word is counted and reported, one beyond correction is marked, or where it holds an entry or a key taken from its other copy;
wedging goes region by region, maps a failing row to a spare of its bank and pins where none is left; a
wipe empties saggar in every shelf, and its third failure retires the shelf (R305, R310 to R313, R315). -/
def Obligations.ShelfMemoryEvents : Prop :=
  (∀ (n : Fin 64) (off : Fin 2097152) (s : State),
    (s.shelfGone n.val = false → tget false s.bad (shelfAddr n.val off.val / 8) = false →
      exec (.eccRewrite n ⟨off, .corrected⟩) s = .next ((setF (bumpF s (.shEcc n.val) 63 48 1) (.shEcc n.val) 20 0 (off.val / 8 * 8)).raise n.val 17)) ∧
    ((s.shelfGone n.val = true ∨ tget false s.bad (shelfAddr n.val off.val / 8) = true) → exec (.eccRewrite n ⟨off, .corrected⟩) s = .next s) ∧
    (s.shelfGone n.val = false → inGeneral (off.val / 16 * 16) = true →
      exec (.eccRewrite n ⟨off, .granule⟩) s = .next (s.spoil (shelfAddr n.val (off.val / 16 * 16)) 16)) ∧
    (s.shelfGone n.val = false → inGeneral (off.val / 8 * 8) = true →
      exec (.eccRewrite n ⟨off, .word⟩) s = .next (s.spoil (shelfAddr n.val (off.val / 8 * 8)) 8)) ∧
    (s.shelfGone n.val = false → inGeneral (off.val / 8 * 8) = false →
      exec (.eccRewrite n ⟨off, .word⟩) s = .next ((s.eccUnc (shelfAddr n.val (off.val / 8 * 8))).otherCopy n.val (off.val / 8 * 8)))) ∧
  (∀ (n : Fin 64) (s : State),
    let h := s.shelf n.val
    let r := getF s (.shWedge n.val) 13 0
    (s.shelfGone n.val = false → getB s (.shWedge n.val) 63 = true → getB s (.shWedge n.val) 62 = false → h.wedge = none → h.wedgeAt ≤ s.now →
      (1024 ≤ r ∨ h.wiping = none) → exec (.wedgeStep n) s = .next (s.setShelf n.val { h with
        wedge := some { region := r, since := s.now }
        wedgeAt := s.now + getF s (.shWedge n.val) 47 32 * 1000 })) ∧
    (∀ w, h.wedge = some w → w.since + s.icNs (16 * n.val) 384 ≤ s.now →
      let t := s.modShelf n.val (fun h => { h with wedge := none })
      (∃ u, exec (.wedgeStepEnd n false) s = .next u ∧ (u.shelf n.val).wedge = none ∧
        getF u (.shWedge n.val) 13 0 = (if r + 1 < 8320 then r + 1 else 0) ∧ u.mem = s.mem) ∧
      (∀ i rest, w.region < 8192 → h.freeSpares (w.region / 512) = i :: rest →
        exec (.wedgeStepEnd n true) s = .next (((t.takeSpare n.val i w.region).raise n.val 20).wedgeAdvance n.val)) ∧
      (w.region < 8192 → h.freeSpares (w.region / 512) = [] → exec (.wedgeStepEnd n true) s = .next ((setB t (.shWedge n.val) 62 true).raise n.val 19)))) ∧
  (∀ s : State, s.power.block ≠ .unpowered → s.power.block ≠ .poweredDown →
    exec .tamper s = .next ((s.startWipe 1).wipeEnds) ∧
    (getB s .glWipe 63 = false → ∀ n, n < 64 →
      ((s.startWipe 1).shelf n).homeKeys = [] ∧ ((s.startWipe 1).shelf n).mirrorKeys = [] ∧ ((s.startWipe 1).shelf n).keyCache = [] ∧
      ((s.startWipe 1).shelf n).transportKey = none ∧ ((s.startWipe 1).shelf n).sealKey = 0)) ∧
  (∀ (n : Fin 64) (c : Nat) (s : State), (s.shelf n.val).wiping = some c →
    exec (.wipeDone n true) s =
      .next ((s.modShelf n.val (fun h => { h with
        wiping := none
        saggarClosed := getB s .glWipefail n.val })).wipeEnds) ∧
    (c < 2 → exec (.wipeDone n false) s = .next (s.modShelf n.val (fun h => { h with wiping := some (c + 1) }))) ∧
    (2 ≤ c → exec (.wipeDone n false) s =
      .next (((setB (s.modShelf n.val (fun h => { h with wiping := none })) .glWipefail n.val true).retireShelf n.val).wipeEnds)))

/-! ## Clocks, power and start-up -/

/-- Island clocks step MARGIN and STRETCH each window and a generator 16 windows out of range fails; voltage requests are clamped, wait for VACK
and are presented again after 100 us; the limiter reports its limits; 125 degrees trips the block; TSYNC_IN is captured at most once per us (R381
to R384, R391, R392, R430, R431, R433). -/
def Obligations.ClocksAndVoltages : Prop :=
  (∀ (i : IslandId) (fmeas : Nat) (s : State), (s.power.refLost = true ∨ s.islandOn i = false) →
    exec (.frequencyLoopWindow i fmeas) s = .next s) ∧
  (∀ (i : IslandId) (r : Reg) (fmeas : Nat) (s : State), islandReg i = some r → s.power.refLost = false → s.islandOn i = true →
    let k := islandKey i
    (getB s r 18 = true → exec (.frequencyLoopWindow i fmeas) s = .next s) ∧
    (getB s r 18 = false → freqBad fmeas (s.baseTarget r) (tget 0 s.power.lim k) = false →
      ∃ u, exec (.frequencyLoopWindow i fmeas) s = .next u ∧ getF u r 51 40 = fmeas % 4096 ∧
        getF u r 27 20 = stretchStep (getF s r 27 20) (s.marginNow k r) fmeas (s.baseTarget r) (tget 0 s.power.lim k) ∧
        u.marginNow k r = stepToward (s.marginNow k r) (s.marginGoal r) ∧ tget 0 u.power.badWindows k = 0 ∧ u.shelves = s.shelves ∧ u.mem = s.mem) ∧
    (∀ n, i = .shelf n → getB s r 18 = false →
      freqBad fmeas (s.baseTarget r) (tget 0 s.power.lim k) = true → tget 0 s.power.badWindows k = 15 → s.isRetired n.val = false →
      ∃ u, exec (.frequencyLoopWindow i fmeas) s = .next u ∧ u.isRetired n.val = true)) ∧
  (∀ (i : IslandId) (fmeas : Nat) (s : State), islandReg i = none → s.power.refLost = false → s.islandOn i = true →
    let k := islandKey i
    let c := tget {} s.power.ownClk (k - 80)
    ∃ u, exec (.frequencyLoopWindow i fmeas) s = .next u ∧ (tget {} u.power.ownClk (k - 80)).fmeas = fmeas ∧
      (tget {} u.power.ownClk (k - 80)).stretch = stretchStep c.stretch (tget 0 s.fuses.mfloor k).toNat fmeas (fixedTarget k) 0 ∧
      u.shelves = s.shelves ∧ u.regs = s.regs ∧ u.mem = s.mem) ∧
  (∀ (d : Fin 10) (code : BitVec 7) (s : State),
    (s.power.pen.getLsbD d.val = true → s.vBusy d.val = false →
      ∃ u, exec (.voltageRequest d code) s = .next u ∧ u.vBusy d.val = true ∧ tget 0 u.power.vreq d.val = clampCode d.val code ∧
        u.outbox = .vreq d.val (clampCode d.val code) (u.power.vstb.getLsbD d.val) :: s.outbox ∧ u.regs = s.regs) ∧
    (s.vBusy d.val = true → exec (.voltageRequest d code) s = .next s ∧
      (∃ u, exec (.voltageAck d) s = .next u ∧ u.vBusy d.val = false ∧ u.power.vstb = s.power.vstb ∧ u.regs = s.regs) ∧
      (tget 0 s.power.vreqAt d.val + 100000 ≤ s.now → ∃ u, exec (.voltageAckTimeout d) s = .next u ∧
        getF u .glTscfg 47 32 = satAdd 65535 (getF s .glTscfg 47 32) 1 ∧ u.power.vstb = s.power.vstb ∧
        u.outbox = .vreq d.val (tget 0 s.power.vreq d.val) (s.power.vstb.getLsbD d.val) :: s.outbox))) ∧
  (∀ (d : Nat) (c : BitVec 7), (clampCode d c).toNat ≤ 60 ∧ (d = 9 → 20 ≤ (clampCode d c).toNat)) ∧
  (∀ (g : Fin 8) (m : LimiterSample) (s : State), s.power.pgd.getLsbD g.val = false → exec (.limiterSample g m) s = .next s) ∧
  (∀ (g : Fin 8) (m : LimiterSample) (s : State), s.power.pgd.getLsbD g.val = true → m.tempNorth ≤ 840 → 800 ≤ m.tempNorth → m.tempSouth ≤ 840 → 800 ≤ m.tempSouth →
    let t := setB (setB s .glLimstat (40 + g.val) (decide (s.powerCeiling < 8 * m.power))) .glLimstat (48 + g.val) (decide (840 < m.temp))
    ((s.powerCeiling < 8 * m.power ∨ 840 < m.temp) → exec (.limiterSample g m) s = .next (t.limTighten g.val)) ∧
    (8 * m.power ≤ s.powerCeiling → m.temp < 800 → 8 * m.power * 100 < 95 * s.powerCeiling → exec (.limiterSample g m) s = .next (t.limEase g.val)) ∧
    (8 * m.power ≤ s.powerCeiling → 800 ≤ m.temp → m.temp ≤ 840 → exec (.limiterSample g m) s = .next t)) ∧
  (∀ (sensor : Fin 492) (x : Int) (s : State),
    (sensor.val < 88 → 1000 ≤ x → s.power.block ≠ .unpowered → s.power.block ≠ .poweredDown →
      ∃ u, exec (.thermalTrip sensor x) s = .next u ∧ u.power.block = .poweredDown ∧ u.power.thermtrip = true ∧ u.power.pen = 0 ∧
        u.devtime = s.devtime ∧ u.warden.log = s.warden.log ∧ u.fuses.lc = s.fuses.lc ∧ u.mem = [] ∧ u.outbox.head? = some (.thermtrip true)) ∧
    (x < 1000 → exec (.thermalTrip sensor x) s = .next s)) ∧
  (∀ s : State,
    exec .refclkLost s = .next (s.modPower (fun p => { p with refLost := true })) ∧
    exec .refclkRestored s = .next (s.modPower (fun p => { p with refLost := false })) ∧
    ((∀ t, s.power.tsyncAt = some t → t + 1000 ≤ s.now) → ∃ u, exec .tsyncIn s = .next u ∧ rdReg u .glTscap = s.devtime ∧ u.power.tsyncAt = some s.now) ∧
    (∀ t, s.power.tsyncAt = some t → s.now < t + 1000 → exec .tsyncIn s = .next s) ∧
    (getF s .glTscfg 19 0 ≠ 0 → s.now % (getF s .glTscfg 19 0 * 1000) = 0 → exec .tsyncOutPeriod s = .next (s.emit (.tsyncOut true))) ∧
    (getF s .glTscfg 19 0 = 0 → exec .tsyncOutPeriod s = .next s))

/-- An idle shelf that the firmware lets go is gated when nothing is in flight, with GATES counted; an armed wake, a flue message or a timer that is
due wakes it, a wake that fails resets it; nothing in flight is lost (R25, R394, R395, R401). -/
def Obligations.ShelfGating : Prop :=
  ∀ (n : Fin 64) (s : State),
    (s.shelfActive n.val = true → (s.shelf n.val).idleAsked = true → s.shelfIdle n.val = true → s.coresQuiet n.val = true → s.unitsQuiet n.val = true →
      ∃ u, exec (.shelfGate n) s = .next u ∧ (u.shelf n.val).phase = .gated ∧ getF u (.shPwr n.val) 47 32 = (getF s (.shPwr n.val) 47 32 + 1) % 65536 ∧
        u.ctxs = s.ctxs ∧ u.queues = s.queues ∧ u.mem = s.mem) ∧
    (s.shelfActive n.val = true → (s.shelf n.val).idleAsked = true → (s.shelfIdle n.val = false ∨ s.coresQuiet n.val = false ∨ s.unitsQuiet n.val = false) →
      exec (.shelfGate n) s = .next (s.modShelf n.val (fun h => { h with
        idleAsked := false
        idleSince := s.now }))) ∧
    ((s.shelf n.val).idleAsked = false → exec (.shelfGate n) s = .next s) ∧
    ((s.shelf n.val).phase = .gated → ((s.shelf n.val).wakeArmed = true ∨ (∃ m ∈ s.flue, m.dst = attShelf n.val) ∨ s.wakeDue n.val = true) →
      exec (.shelfWake ⟨n, true⟩) s = .next (s.ungate n.val) ∧ exec (.shelfWake ⟨n, false⟩) s = .next (s.resetShelf n.val) ∧
      ((s.shelf n.val).heldOps = [] → ((s.ungate n.val).shelf n.val).phase = .active ∧ ((s.ungate n.val).shelf n.val).wakeArmed = false ∧
        (s.ungate n.val).ctxs = s.ctxs ∧ (s.ungate n.val).queues = s.queues ∧ (s.ungate n.val).mem = s.mem)) ∧
    (∀ ok, (s.shelf n.val).wakeArmed = false → (∀ m ∈ s.flue, m.dst ≠ attShelf n.val) → s.wakeDue n.val = false →
      exec (.shelfWake ⟨n, ok⟩) s = .next s)

/-- Cold start raises SRAM and then host; a domain that is good raises the next, one that is not within 500 us retires its group, and one that falls
retires its group or resets the block; cold reset and loss of power leave fuses and the serial NOR alone; warm reset puts every shelf into reset and
keeps home keys (R309, R396, R400, R434, R435, R438). -/
def Sys2Proof.Stated.StartsAndResets : Prop :=
  (∀ s : State, s.power.block ≠ .mgmtReady → s.power.block ≠ .hostReady →
    ∃ u, exec .coldStart s = .next u ∧ u.power.block = .inReset ∧ u.power.pen = 0x300 ∧ u.power.pgd = 0 ∧ u.mem = [] ∧ u.devtime = 0 ∧
      u.fuses.lc = s.fuses.lc ∧ u.fuses.floor = s.fuses.floor) ∧
  (∀ s : State,
    ((s.power.block = .mgmtReady ∨ s.power.block = .hostReady) → exec .coldStart s = .next s) ∧
    (s.power.block ≠ .unpowered → s.power.block ≠ .poweredDown → exec .coldReset s = .next (s.coldReset .inReset)) ∧
    exec .pwrgdFall s = .next (s.coldReset .unpowered)) ∧
  (∀ (b : BlockSt) (s : State),
    let u := s.coldReset b
    u.power.block = b ∧ u.mem = [] ∧ u.cores = [] ∧ u.ctxs = [] ∧ u.queues = [] ∧ u.shelves = State.reset.shelves ∧ u.warden.norA = s.warden.norA ∧
      u.warden.norB = s.warden.norB ∧ u.fuses.fwKey = s.fuses.fwKey ∧ u.fuses.serial = (if s.fuses.serSet then s.fuses.serNew else s.fuses.serial)) ∧
  (∀ (d : Fin 10) (s : State), s.power.pen.getLsbD d.val = true →
    (s.power.pgd.getLsbD d.val = false →
      (d.val < 7 → s.power.pen.getLsbD (d.val + 1) = false → ∃ u, exec (.pgdRise d) s = .next u ∧ u.power.pgd.getLsbD d.val = true ∧
        u.power.pen.getLsbD (d.val + 1) = true) ∧
      (d.val = 8 → s.power.pgd.getLsbD 9 = true → ∃ u, exec (.pgdRise d) s = .next u ∧ u.power.pgd.getLsbD 8 = true ∧ u.power.pen.getLsbD 0 = true) ∧
      (d.val = 9 → s.power.pgd.getLsbD 8 = true → ∃ u, exec (.pgdRise d) s = .next u ∧ u.power.pgd.getLsbD 9 = true ∧ u.power.pen.getLsbD 0 = true) ∧
      (d.val < 8 → tget 0 s.power.penAt d.val + 500000 ≤ s.now → exec (.pgdTimeout d) s = .next ((s.retireGroup d.val).nextPen d.val))) ∧
    (s.power.pgd.getLsbD d.val = true →
      let t := s.modPower (fun p => { p with pgd := p.pgd &&& ~~~ BitVec.ofNat 10 (2 ^ d.val) })
      exec (.pgdRise d) s = .next s ∧
      (d.val < 8 → exec (.pgdFall d) s = .next (t.retireGroup d.val)) ∧ (8 ≤ d.val → exec (.pgdFall d) s = .next (t.coldReset .inReset)))) ∧
  (∀ s : State, (s.power.block = .mgmtReady ∨ s.power.block = .hostReady) →
    ∃ u, exec .warmReset s = .next u ∧ u.power.block = .inReset ∧ u.power.warm = true ∧ u.ctxs = [] ∧ u.queues = [] ∧ u.links = [] ∧
      getF u .glBootstat 59 58 = 1 ∧ (∀ n, n < 64 → (s.isRetired n = false → (u.shelf n).phase = .reset) ∧ (u.shelf n).homeKeys = (s.shelf n).homeKeys))

/-- A shelf whose start-up test passes becomes active with its cores mapped, one that fails is retired; shelf reset empties the shelf but its saggar
and brings it back when its test is done; RTGO starts the root context at the image's entry (R397, R399, R401). -/
def Sys2Proof.Stated.ShelfStartAndReset : Prop :=
  (∀ (n : Fin 64) (r : StartupResult) (s : State), s.inTest n.val = true →
    let clear := fun (t : State) => t.modShelf n.val (fun h => { h with
      homeKeys := []
      mirrorKeys := []
      keyCache := []
      transportKey := none
      sealKey := 0
      sealCtr := 0 })
    let cold := clear (s.applyTest n.val r)
    let back := ((s.applyTest n.val r).zeroGeneral n.val).refreshKeys n.val
    (s.power.warm = false → (s.shelf n.val).started = false →
      (cold.testFatal n.val r = false → exec (.shelfStartupTestDone n r) s = .next (cold.shelfUp n.val false).testsDone) ∧
      (cold.testFatal n.val r = true → exec (.shelfStartupTestDone n r) s = .next (cold.testRetires n.val r).testsDone)) ∧
    ((s.shelf n.val).started = true → (back.testFatal n.val r = false → exec (.shelfResetDone n r) s = .next (back.leaveReset n.val)) ∧
      (back.testFatal n.val r = true → exec (.shelfResetDone n r) s = .next (back.testRetires n.val r).testsDone)) ∧
    ((s.shelf n.val).started = false → s.power.warm = true → back.testFatal n.val r = false →
      exec (.shelfResetDone n r) s = .next (back.shelfUp n.val false).testsDone)) ∧
  (∀ (n : Fin 64) (s : State), s.shelfActive (buddy n.val) = false → s.isRetired (buddy n.val) = false → s.power.warm = false →
    s.shelfUp n.val false = s.modShelf n.val (fun h => { h with
      phase := .active
      started := true
      restore := none
      restoreImg := none
      idleSince := s.now })) ∧
  (∀ (who : Party) (n : Fin 64) (v : Word) (s : State), Stated.granted s who (.shPwr n.val) v → s.shelfActive n.val = true →
    (bitAt v 61 = true → bitAt v 60 = false → s.shelfGone (buddy n.val) = true → (s.shelf n.val).rehomed = [] → ∃ u, exec (.shelfReset who n v) s = .next u ∧ (u.shelf n.val).phase = .reset ∧
      (u.shelf n.val).homeKeys = (s.shelf n.val).homeKeys ∧ (∀ i r, i < 16 → r < 16 → u.ctx (16 * n.val + i) r = {}) ∧
      getF u (.shPwr n.val) 31 16 = satAdd 65535 (getF s (.shPwr n.val) 31 16) 1) ∧
    (bitAt v 60 = true → bitAt v 61 = false → exec (.rtgo who n v) s = .next (s.startRoot n.val) ∧
      ((s.ctx (16 * n.val) 0).st = .free → ((s.startRoot n.val).ctx (16 * n.val) 0).st = .ready ∧
        ((s.startRoot n.val).ctx (16 * n.val) 0).pc =
          BitVec.ofNat 56 (0x1E0000 + getF s (.shRtvec n.val) 62 62 * 0x10000 + tget 0 (s.shelf n.val).rtEntry (getF s (.shRtvec n.val) 62 62)))))

/-- All of `StartsAndResets`, `ShelfStartAndReset`. -/
def Obligations.StartUp : Prop := Stated.StartsAndResets ∧ Stated.ShelfStartAndReset


/-! ## Host ports -/

/-- The channel to the home: recalls are answered from the line's state, and wait while a fill of the line is outstanding; fills, completions and
acknowledged evictions close their requests; a credit lets a message go; a parity error of write data poisons the next
DAT-WR beat; a reserved opcode is dropped and counted; an error is counted (R318, R322
to R324, R327, R425). -/
def Obligations.HostChannel : Prop :=
  (∀ (p : Fin 16) (addr : BitVec 46) (own : Bool) (rctag : BitVec 8) (s : State),
    let i := if own then Instr.recallOwn p addr rctag else Instr.recallShare p addr rctag
    let x := s.port p.val
    let a := addr.toNat
    let state := fun (st : LineState) (l : Line) => s.setPort p.val { x with lines := x.lines.map (fun e => if e.1 = a then (a, { l with st := st }) else e) }
    let gone := s.setPort p.val { x with lines := adel a x.lines }
    (s.power.block = .hostReady → x.holdsRecall a = true →
      exec i s = .next (s.setPort p.val { x with heldRecalls := x.heldRecalls ++ [{ line := a, own := own, rctag := rctag }] })) ∧
    (s.power.block = .hostReady → x.holdsRecall a = false →
      (∀ l, alook a x.lines = some l → lineDirty l.st = true →
        (own = true → exec i s = .next (gone.sendMsg p.val (.datRecall rctag l.data true false false))) ∧
        (own = false → exec i s = .next ((state .O l).sendMsg p.val (.datRecall rctag l.data true true false)))) ∧
      (∀ l, alook a x.lines = some l → lineDirty l.st = false →
        (own = true → exec i s = .next (gone.sendMsg p.val (.ansNone rctag))) ∧
        (own = false → exec i s = .next ((state .S l).sendMsg p.val (.ansKept rctag)))) ∧
      (alook a x.lines = none →
        (∀ d, alook a x.wbuf = some d → exec i s = .next ((bumpF s (.hpCnt p.val) 31 16 1).sendMsg p.val (.datRecall rctag d true false true))) ∧
        (alook a x.wbuf = none → exec i s = .next (s.sendMsg p.val (.ansNone rctag))))) ∧
    ((s.power.block = .inReset ∨ s.power.block = .mgmtReady ∨ s.power.block = .poweredDown) → exec i s = .next (s.emit (.host p.val (.ansNone rctag))))) ∧
  (∀ (p : Fin 16) (t : BitVec 10) (s : State),
    (∀ (r : HostReq) (st : LineState), alook t.toNat (s.port p.val).reqs = some r →
      let d := s.dropReq p.val t.toNat
      ((r.op = .putLine ∨ r.op = .putMasked) → exec (.ansDone p t st 0) s = .next ((d.writeDone r.who).kickPort p.val)) ∧
      (r.op = .acqRaise → exec (.ansDone p t st 0) s = .next ((d.raised p.val r st).kickPort p.val)) ∧
      (∀ status : BitVec 2, status ≠ 0 → r.op = .acqRaise → r.be = 0 →
        exec (.ansDone p t st status) s = .next (((bumpF d (.hpCnt p.val) 47 32 1).fillFailed r (statusCause status)).kickPort p.val)) ∧
      (r.op = .evictDirty → exec (.ansEvict p t) s = .next ((((d.modPort p.val (fun x => { x with
        wbuf := adel r.line x.wbuf
        flushLeft := x.flushLeft.erase r.line })).kickPort p.val).kickTags).flushMore p.val)) ∧
      (∀ data : List Byte, data.length = 64 → ∀ u,
        ((r.op = .readThrough ∧ u = d.readArrived r data) ∨
          ((r.op = .acqShare ∨ r.op = .acqOwn) ∧ u = (d.putLine p.val r.line { st := st, data := data }).acquired p.val r)) →
        let v := (u.answerHeld p.val r.line).kickPort p.val
        (v.hpmapNew = none → exec (.datFill p t st 0 false data) s = .next (v.flushMore p.val)) ∧
        (v.hpmapNew ≠ none → exec (.datFill p t st 0 false data) s = .next (v.startFlush p.val)))) ∧
    (∀ (r : HostReq) (st : LineState) (status : BitVec 2) (poison : Bool) (data : List Byte), alook t.toNat (s.port p.val).reqs = some r →
      r.op.filled = true → status ≠ 0 → data.length = 64 →
      let v := ((((bumpF (s.dropReq p.val t.toNat) (.hpCnt p.val) 47 32 1).fillFailed r (statusCause status)).answerHeld p.val r.line).kickPort p.val)
      v.hpmapNew = none → exec (.datFill p t st status poison data) s = .next (v.flushMore p.val)) ∧
    (∀ (st : LineState) (status : BitVec 2), alook t.toNat (s.port p.val).reqs = none → exec (.ansDone p t st status) s = .next s)) ∧
  (∀ (x : Port) (t : Nat) (d : List Byte) (be : Word) (bad : Bool), x.parity = true →
    x.beat (.datWr t d be bad) = .datWr t d be true ∧ (x.sent (.datWr t d be bad)).parity = false) ∧
  (∀ (p : Fin 16) (op : BitVec 6) (s : State), s.power.block = .hostReady →
    (homeOpcode op = false → exec (.homeReservedOpcode p op) s = .next (bumpF s (.hpCnt p.val) 15 0 1)) ∧
    (∀ ch, exec (.creditGrant p ch) s = .next ((s.modPort p.val (fun x => x.addCredit ch)).pump p.val)))

/-- Grants and maps: a fetched grant entry lets the writes that waited go on; GL_GRINV is done once no write that the entry passed is
outstanding; a new line map comes into force once every port cache is empty; a port's flush ends when its lines are written back (R320, R328, R333,
R336). -/
def Obligations.GrantsAndMaps : Prop :=
  (∀ (p : Fin 16) (idx : Fin 16777216) (entry : List Word) (s : State), entry.length = 4 →
    ((s.port p.val).grantFetch.contains idx.val = true →
      exec (.grantFetchDone p idx entry) s = .next (((s.readEnds (.grant p idx)).modPort p.val (fun x => { x with
        grantFetch := x.grantFetch.erase idx.val
        grants := aput idx.val entry x.grants })).retryWaits p.val).kickTags) ∧
    ((s.port p.val).grantFetch.contains idx.val = false → exec (.grantFetchDone p idx entry) s = .next s)) ∧
  (∀ s : State,
    (∀ v, s.hpmapNew = some v →
      (s.portsIdle = true → exec .glHpmapDone s = .next (foldS s.hpmapReply (fun t r => t.sendMsg r.1 (.ctlAck r.2 0))
        (wrReg { s with
          hpmapNew := none
          hpmapReply := [] } .glHpmap v).reroute)) ∧
      (s.portsIdle = false → exec .glHpmapDone s = .next s)) ∧
    (getB s .glGrinv 62 = true →
      (s.usesGrant (getF s .glGrinv 23 0) = false → ∃ u, exec .glGrinvDone s = .next u ∧ rdReg u .glGrinv = 0 ∧ u.ports = s.ports ∧ u.mem = s.mem) ∧
      (s.usesGrant (getF s .glGrinv 23 0) = true → exec .glGrinvDone s = .next s))) ∧
  (∀ (p : Fin 16) (s : State), getB s (.hpCtl p.val) 62 = true →
    ((s.port p.val).flushLeft = [] → ∃ u, exec (.portCacheFlushDone p) s = .next u ∧ getB u (.hpCtl p.val) 62 = false ∧ u.ports = s.ports ∧ u.mem = s.mem) ∧
    ((s.port p.val).flushLeft ≠ [] → exec (.portCacheFlushDone p) s = .next s))

/-! ## The warden and its management -/

/-- The warden's island: the second watchdog expiry and a trial boot without success reset it, or only log in a session at WARDEN level; the bisque
enters the verified image of the preferred slot, else that of the other, else waits for RECOVERY; a sampled sensor is reported on a crossing,
every 10 s the cones re-plan the margins; a waiting request is answered busy after 10 ms (R361 to R366, R369, R370, R375, R385, R417, R436). -/
def Obligations.WardenEvents : Prop :=
  (∀ (d : Nat) (s : State),
    let c := s.core wardenKey
    let clear := s.modCore wardenKey (fun c => { c with wexpAt := none })
    c.wexp = true → c.wexpAt = some d → d + 100000000 ≤ s.now →
    (s.vexek.level ≠ 3 → exec .wardenWdogReset s = .next (bumpF clear .wdBoot 47 32 1).wardenIslandReset) ∧
    (s.vexek.level = 3 → exec .wardenWdogReset s = .next ((clear.modVexek (fun v => { v with wdLogOnly := true })).log 3 0 1 1 0))) ∧
  (∀ (t : Nat) (s : State), s.warden.entered = some t → s.warden.st = .running → getB s .wdBoot 61 = true → getB s .wdBoot 62 = false →
    (t + 2000000000 ≤ s.now → s.vexek.level ≠ 3 → exec .bootTrialTimeout s =
      .next (s.modWarden (fun w => { w with
        entered := none
        trialFailed := some (getB s .wdBoot 59) })).wardenIslandReset) ∧
    (s.now < t + 2000000000 → exec .bootTrialTimeout s = .next s)) ∧
  (∀ s : State, s.warden.st = .reset → s.power.pgd.getLsbD 9 = true →
    let w := s.warden
    let a := w.firstSlot
    let good := fun b => (w.slotImage b).wellFormed 1 = true ∧ s.imageOk (w.slotImage b) = true
    let fell := setB s .wdBoot 60 true
    (w.trialFailed = none → good a → exec .wardenReset s = .next (s.enterFirmware (w.slotImage a) a true false)) ∧
    (w.trialFailed ≠ none → good a → exec .wardenReset s = .next (fell.enterFirmware (w.slotImage a) a true false)) ∧
    (w.trialFailed = none → ¬ good a → good (!a) → exec .wardenReset s = .next (fell.enterFirmware (w.slotImage !a) (!a) true false)) ∧
    (w.trialFailed = none → ¬ good a → ¬ good (!a) → exec .wardenReset s = .next s.enterRecovery)) ∧
  (∀ (f : FwImage) (slot trial recov : Bool) (s : State),
    let u := s.enterFirmware f slot trial recov
    u.warden.st = .running ∧ u.warden.running = f ∧ (s.power.block = .inReset → u.power.block = .mgmtReady) ∧
      (s.enterRecovery).warden.st = .recovery) ∧
  (∀ (rs : List SensorReading) (s : State), s.power.block ≠ .unpowered → s.power.block ≠ .poweredDown →
    let due := s.conesDue && rs.any (fun r => isCone r.sensor)
    let t := (foldS (sampledSensors due) (fun s i => s.sampleSensor rs i) s).wsrc 20 EvSrc.pulse
    exec (.sensorSample rs) s = .next (if due then t.conesRead else t)) ∧
  (∀ (rs : List SensorReading) (i : Nat) (s : State),
    (∀ r, rs.find? (fun r => r.sensor == i) = some r → s.sampleSensor rs i = s.takeReading r) ∧
    (rs.find? (fun r => r.sensor == i) = none →
      s.sampleSensor rs i = (s.takeReading { sensor := i, value := s.free.setWidth 16, aux := (s.free >>> 16).setWidth 16 }).drawn)) ∧
  (∀ (n : Nat) (s : State), n < 64 →
    getF (s.replan n) (.shClk n) 39 34 =
      max (getF s (.shClk n) 39 34) (min 63 (getF s (.shClk n) 33 28 + ceilDiv (64 * s.drift n) 10000)) ∧
    tget 0 (s.replan n).warden.d0 n = s.drift n ∧ tget 0 (s.replan n).warden.planAt n = s.now ∧ (s.replan n).mem = s.mem) ∧
  (∀ (r : SensorReading) (s : State),
    (sensorUsed r.sensor = true → s.sensorOff r.sensor = true →
      s.takeReading r = s.modWarden (fun w => { w with snap := tset {} w.snap r.sensor { tget {} w.snap r.sensor with
        time := s.now
        st := 3 } })) ∧
    (sensorUsed r.sensor = true → s.sensorOff r.sensor = false → (tget {} s.warden.snap r.sensor).st ≠ 3 →
      Config.sensorState r.sensor r.value ≠ 3 → (tget {} s.warden.snap r.sensor).st ≠ Config.sensorState r.sensor r.value → s.warden.evReceiver = none →
      s.takeReading r = (s.modWarden (fun w => { w with snap := tset {} w.snap r.sensor (s.snapOf r).1 })).wsrc 21 EvSrc.pulse)) ∧
  (∀ (w : MgmtWait) (t : List MgmtWait) (s : State), s.warden.waiting = w :: t →
    (w.at_ + 10000000 ≤ s.now → exec .responderTimeout s =
      .next ((s.modWarden (fun x => { x with waiting := t })).mgmtReply w.binding (busyReply w.spdm))) ∧
    (s.now < w.at_ + 10000000 → s.wardenUp = true → exec .responderTimeout s = .next s)) ∧
  (∀ (t : BitVec 2) (token : List Byte) (s : State), token.length ≤ 512 → s.wardenUp = true → s.fwAsked = true →
    (Config.tokenOk s.fuses.lc t token = false → exec (.lcreq t token) s = .next (s.fwReply 3 3 [place 1 0 s.fuses.lc.toNat])) ∧
    (Config.tokenOk s.fuses.lc t token = true → s.lcAllowed t = true → s.warden.shadowLc = none → exec (.lcreq t token) s =
      .next (((s.modWarden (fun w => { w with shadowLc := some t })).startWipe 2).wipeEnds.fwReply 3 0 [place 1 0 t.toNat])) ∧
    (Config.tokenOk s.fuses.lc t token = true → s.lcAllowed t = false → exec (.lcreq t token) s =
      .next ((setB s .wdStat 61 true).fwReply 3 3 [place 1 0 s.fuses.lc.toNat]))) ∧
  (∀ (image : List Byte) (s : State),
    let f := imageOf image
    s.fwAsked = true →
    (s.warden.st = .recovery → f.wellFormed 1 = true → s.imageOk f = true →
      exec (.recovery image) s = .next ((s.enterFirmware f false false true).fwReply 4 0 [1])) ∧
    (s.warden.st = .recovery → (f.wellFormed 1 = false ∨ s.imageOk f = false) → exec (.recovery image) s = .next (s.fwReply 4 2 [0])) ∧
    (s.warden.st = .running → s.wardenUp = true → exec (.recovery image) s = .next (s.fwReply 4 3 [0]))) ∧
  (∀ (a : BitVec 7) (ty : BitVec 8) (s : State),
    exec (.entdaa a) s = .next ((s.modWarden (fun w => { w with dynAddr := some a })).emit
      (.provisionalId (Config.mipiManufacturer ++ s.fuses.serial.setWidth 32))) ∧
    exec .spiTransferComplete s = .next (s.wsrc 23 EvSrc.pulse) ∧
    (ty ≠ 1 → ty ≠ 5 → exec (.mctpUnsupported .i3c ty) s = .next s ∧
      (s.mgmtComes .hostMailbox = true → exec (.mctpUnsupported .hostMailbox ty) s = .next (setB s .wdMbstat 61 false))) ∧
    (∀ b, s.mgmtComes b = true → s.wardenUp = true → (s.warden.waiting.filter (fun w => w.binding == b)).length < bindingDepth b →
      exec (.mctpUnsupported b 1) s = .next ((s.mgmtArrival b).mgmtReply b { code := 5 }) ∧
      exec (.mctpUnsupported b 5) s = .next ((s.mgmtArrival b).mgmtReply b { code := 7 })))

/-- Management requests: while the warden is away or the binding's queue is full each is answered busy, and else it raises the binding's source and
is answered as DSP0236, DSP0248, DSP0267 and DSP0274 say of the block's state: endpoint, sensors, firmware update, attestation (R369 to R371). -/
def Obligations.ManagementRequests : Prop :=
  ∀ (b : Binding) (eid : BitVec 8) (comp : BitVec 16) (data : List Byte) (slot index : Nat) (nonce : BitVec 256) (pa pb : Bool) (sensor : Fin 492) (s : State),
    data.length ≤ 1024 → s.mgmtComes b = true →
    let t := s.mgmtArrival b
    let w := t.warden
    let say := fun (u : State) (l : List Nat) => u.mgmtReply b { data := l }
    let no := fun (c : Nat) => t.mgmtReply b { code := c }
    let upd := fun (u : UpdSt) => t.modWarden (fun w => { w with upd := u })
    let drop := fun (u : UpdSt) => t.modWarden (fun w => { w with
      upd := u
      updData := [] })
    let spdm : List (Bool → Instr) := [.getVersion b, .getCapabilities b, fun k => .negotiateAlgorithms b k pa pb, .getDigests b,
      fun k => .getCertificate b k slot, fun k => .challenge b k slot nonce, fun k => .getMeasurements b k index]
    let rest : List (Bool → Instr) := [fun k => .setEndpointId b k eid, .getEndpointId b, .getEndpointUuid b, .getMctpVersionSupport b, .getMessageTypeSupport b,
      .getTid b, fun k => .getPldmVersion b k eid, .getPldmTypes b, fun k => .getPldmCommands b k eid, .getPdrRepositoryInfo b,
      fun k => .getPdr b k index, fun k => .getStateSensorReadings b k index, fun k => .setEventReceiver b k eid, .queryDeviceIdentifiers b,
      .getFirmwareParameters b, .requestUpdate b, fun k => .passComponentTable b k comp, fun k => .updateComponent b k comp,
      fun k => .requestFirmwareData b k data, .transferComplete b, .verifyComplete b, .applyComplete b, .activateFirmware b, .getStatus b,
      .cancelUpdateComponent b, .cancelUpdate b]
    let full := bindingDepth b ≤ (s.warden.waiting.filter (fun w => w.binding == b)).length
    exec (.getSensorReading b sensor) s = .next (say s [(tget {} s.warden.snap sensor.val).st.toNat, (tget {} s.warden.snap sensor.val).value.toNat]) ∧
    (∀ (i : Bool → Instr) (q : Bool), (i ∈ spdm ∧ q = true ∨ i ∈ rest ∧ q = false) →
      ((s.wardenUp = false ∨ full) → ∀ k, exec (i k) s = .next (s.mgmtReply b (busyReply q))) ∧
      (s.wardenUp = true → ¬ full → exec (i false) s =
        .next (t.modWarden (fun w => { w with waiting := w.waiting ++ [{ binding := b, at_ := t.now, spdm := q }] })))) ∧
    (s.wardenUp = true → ¬ full →
      (∀ p ∈ [(Instr.setEndpointId b true eid, say (t.modWarden (fun w => { w with eid := eid })) [eid.toNat]),
          (.getEndpointId b true, say t [w.eid.toNat]),
          (.getEndpointUuid b true, t.mgmtReply b { bytes := leBytes 16 Config.endpointUuid.toNat }),
          (.getMctpVersionSupport b true, say t [1, 3]), (.getMessageTypeSupport b true, say t [0, 1, 5]), (.getTid b true, say t [w.tid.toNat]),
          (.getPldmVersion b true eid, if (pldmCommands eid.toNat).isSome then (say t [t.free.toNat]).drawn else no 5), (.getPldmTypes b true, say t [0, 2, 5]),
          (.getPldmCommands b true eid, match pldmCommands eid.toNat with | some n => say t (List.range n) | none => no 5),
          (.getPdrRepositoryInfo b true, say t [sensorList.length + 65]),
          (.getPdr b true index, if index < sensorList.length then say t [0, sensorList.getD index 0]
            else if index < sensorList.length + 65 then say t [1, index - sensorList.length] else no 1),
          (.getStateSensorReadings b true index, if index = 0 then say t [t.fuses.lc.toNat] else if index ≤ 64 then say t [t.shelfState (index - 1)] else no 1),
          (.setEventReceiver b true eid, say (t.modWarden (fun w => { w with evReceiver := some eid })) []),
          (.queryDeviceIdentifiers b true, (say t [t.free.toNat]).drawn),
          (.getFirmwareParameters b true, say t [1, w.running.gen, w.running.svn, 2, (w.rtImage w.rtSlot).gen, (w.rtImage w.rtSlot).svn]),
          (.getStatus b true, say t [w.upd.code]),
          (.requestUpdate b true, if w.upd = .idle then say (upd .learn) [] else no 1),
          (.passComponentTable b true comp, if (w.upd = .learn ∨ w.upd = .ready) ∧ (comp = 1 ∨ comp = 2) then say (upd .ready) [] else no 1),
          (.updateComponent b true comp, if (w.upd = .ready ∨ w.upd = .activate) ∧ (comp = 1 ∨ comp = 2) then
            say (t.modWarden (fun w => { w with
              upd := .download
              updComp := comp
              updData := [] })) [] else no 1),
          (.requestFirmwareData b true data, if w.upd = .download then
            say ((t.modWarden (fun x => { x with updData := w.updData ++ data })).putUpdImage (imageOf (w.updData ++ data))) [] else no 1),
          (.transferComplete b true, if w.upd = .download then say (upd .verify) [] else no 1),
          (.verifyComplete b true, if w.upd = .verify then (if t.updOk then say (upd .apply) [] else (drop .ready).mgmtReply b { code := 1 }) else no 1),
          (.applyComplete b true, if w.upd = .apply then say ((t.putUpdImage { t.updImage with
            hdr := putBytes t.updImage.hdr 12 (leBytes 4 (t.inUseGen + 1)) }).modWarden (fun w => { w with
              upd := .activate
              updData := [] })) [] else no 1),
          (.activateFirmware b true, if w.upd = .activate then
            (let a := (say t []).modWarden (fun w => { w with upd := .idle }); if w.updComp = 1 then (a.log 0 0 0 0 0).wardenIslandReset else a) else no 1),
          (.cancelUpdateComponent b true, if w.upd = .download ∨ w.upd = .verify ∨ w.upd = .apply then say (drop .ready) [] else no 1),
          (.cancelUpdate b true, if w.upd = .idle then no 1 else say (drop .idle) [])], exec p.1 s = .next p.2) ∧
      (∀ p ∈ [(Instr.getVersion b true, say (t.modWarden (fun w => { w with
            spdmVersion := true
            spdmCaps := false
            spdmAlgs := false })) [1, 2]),
          (.getCapabilities b true, if w.spdmVersion then say (t.modWarden (fun w => { w with spdmCaps := true })) [1, 1, 2] else no 4),
          (.negotiateAlgorithms b true pa pb, if w.spdmCaps then say (t.modWarden (fun w => { w with spdmAlgs := pa && pb })) [b2n pa, b2n pb] else no 4),
          (.getCertificate b true slot, if w.spdmAlgs then (if t.certSlot slot then t.mgmtReply b { bytes := Config.certChain slot } else no 7) else no 4),
          (.challenge b true slot nonce, if w.spdmAlgs then (if t.certSlot slot then
            (let m := leBytes 48 (Config.certDigest slot).toNat ++ leBytes 32 nonce.toNat; t.mgmtReply b { bytes := m ++ signOf m }) else no 7) else no 4)],
        exec p.1 s = .next p.2) ∧
      (w.spdmAlgs = false → exec (.getDigests b true) s = .next (no 4) ∧ exec (.getMeasurements b true index) s = .next (no 4)) ∧
      (w.spdmAlgs = true →
        let slots := (List.range 2).filter t.certSlot
        let m := if index = 255 then [1, 2, 3, 4, 5].flatMap t.measurement else t.measurement index
        exec (.getDigests b true) s =
          .next (t.mgmtReply b { data := slots, bytes := slots.flatMap (fun i => leBytes 48 (Config.certDigest i).toNat) }) ∧
        ((1 ≤ index ∧ index ≤ 5 ∨ index = 255) → ∃ u, exec (.getMeasurements b true index) s = .next u ∧
          u.outbox = .mgmt b { data := [5], bytes := m ++ signOf m } :: t.outbox ∧ u.fuses = t.fuses) ∧
        (¬ (1 ≤ index ∧ index ≤ 5 ∨ index = 255) → exec (.getMeasurements b true index) s = .next (no 7))))

/-! ## The Vexek port's sessions, run control and fuses -/

/-- Debug sessions: the password opens one in MANUFACTURE only, a credential of an accepted issuer and its proof open one of the credential's level,
a failure sets AUTHF and the eighth in a row locks the port for 10 s, CLOSE ends the session (R407 to R410). -/
def Obligations.DebugSessions : Prop :=
  (∀ (s : State), (∀ op, op ≤ 4 → Stated.granted s .debugger .vxSess (place 63 60 op)) →
    let c := s.sbufBytes 0 256
    ((s.fuses.lc ≠ 0 ∨ s.vexek.lockUntil ≠ none) → exec .openPwd s = .next (setB s .vxStat 61 true)) ∧
    (s.fuses.lc = 0 → s.vexek.lockUntil = none →
      (s.vexek.pwd1 ++ s.vexek.pwd0 = s.fuses.pwd → ∃ u, exec .openPwd s = .next u ∧ u.vexek.level = 3 ∧ u.vexek.shelves = BitVec.allOnes 64 ∧ u.vexek.fails = 0) ∧
      (s.vexek.pwd1 ++ s.vexek.pwd0 ≠ s.fuses.pwd → exec .openPwd s = .next s.authFail)) ∧
    ((s.vexek.lockUntil ≠ none ∨ issuerOk s.fuses.lc (credIssuer c) (credSerial c) s.fuses.serial = false) →
      exec .openCred s = .next (setB s .vxStat 61 true)) ∧
    (s.vexek.lockUntil = none → issuerOk s.fuses.lc (credIssuer c) (credSerial c) s.fuses.serial = true →
      (credFields c s.fuses.serial = true → s.credSigned c = true → exec .openCred s = .next (s.modVexek (fun v => { v with
        credOk := true
        cred := c
        chal := false
        eph := none }))) ∧
      ((credFields c s.fuses.serial = false ∨ s.credSigned c = false) → exec .openCred s = .next s.authFail)) ∧
    (s.vexek.lockUntil = none → ∀ e, s.vexek.eph = some e → s.vexek.chal = true →
      (BitVec.ofNat 384 (natIn (s.sbufBytes 0x190 48) 0 48) = s.expectedProof e → ∃ u, exec .prove s = .next u ∧
        u.vexek.level = credLevel s.vexek.cred ∧ u.vexek.shelves = credShelves s.vexek.cred ∧ u.vexek.chal = false) ∧
      (BitVec.ofNat 384 (natIn (s.sbufBytes 0x190 48) 0 48) ≠ s.expectedProof e → exec .prove s = .next s.authFail)) ∧
    (s.vexek.level ≠ 0 → ∃ u, exec .close s = .next u ∧ u.vexek.level = 0 ∧ u.vexek.shelves = 0 ∧ u.vexek.stWrites = [])) ∧
  (∀ s : State,
    (s.vexek.fails < 7 → s.authFail.vexek.fails = s.vexek.fails + 1 ∧ s.authFail.vexek.lockUntil = s.vexek.lockUntil) ∧
    (s.vexek.fails = 7 → s.authFail.vexek.fails = 0 ∧ s.authFail.vexek.lockUntil = some (s.now + 10000000000)) ∧
    (s.vexek.credOk = true → s.vexek.chal = false → ∃ u, exec .vxChallengeReady s = .next u ∧ u.vexek.chal = true ∧
      u.vexek.eph = some (s.draw384 0) ∧ u.vexek.challenge = s.draw384 6 ∧ u.freeCtr = s.freeCtr + 12) ∧
    (∀ t, s.vexek.lockUntil = some t →
      (t ≤ s.now → exec .vxLockExpiry s = .next (s.modVexek (fun v => { v with lockUntil := none }))) ∧
      (s.now < t → exec .vxLockExpiry s = .next s)))

/-- Run control: a halt asks the cores of the named groups, which halt at a boundary with their stores done; release and STEP let them go on;
state and memory of a halted core are written and read, and a core that runs answers FAULT with NOTHALT; quarantine drains a slot (R411 to R416). -/
def Obligations.DebugRunControl : Prop :=
  (∀ (v : Word) (s : State), Stated.granted s .debugger .vxHalt v → ∃ u, exec (.vxHalt v) s = .next u ∧ u.mem = s.mem ∧ u.ctxs = s.ctxs ∧
    (∀ k, (s.core k).haltReq = true → (u.core k).haltReq = true) ∧ (∀ k, (u.core k).halted = (s.core k).halted) ∧
    (∀ k ∈ s.groupCores v, s.haltable k = true → (s.core k).halted = false → (u.core k).haltReq = true)) ∧
  (∀ (c : CoreId) (s : State),
    let k := s.coreKey c
    s.coreLive k = true → (s.core k).haltReq = true → (s.core k).halted = false → (s.core k).sbuf = [] → (s.core k).adWait = none →
    (s.core k).pair = false → s.storePending k = false → s.seOut k = false → s.fpMoving k = false →
    ∃ u, exec (.coreHalted c) s = .next u ∧ (u.core k).halted = true ∧ (u.core k).haltReq = false ∧ (u.core k).seg = none ∧ u.mem = s.mem) ∧
  (∀ (v : Word) (s : State),
    let k := s.selCore
    (Stated.granted s .debugger .vxRun v → bitAt v 63 = false → s.vexek.stWrites = [] →
      ∃ u, exec (.vxRun v) s = .next u ∧ (∀ j ∈ s.groupCores v, (s.core j).halted = true → (u.core j).halted = false) ∧ u.mem = s.mem) ∧
    (Stated.granted s .debugger .vxRun (v ||| bitIf 63 true) → s.groupCores (v ||| bitIf 63 true) = [] → s.selScope = true → (s.core k).halted = true →
      ∃ u, exec (.vxStep v) s = .next u ∧ (u.core k).halted = false ∧ (u.core k).step = true ∧ (∀ w ∈ u.vexek.stWrites, w.1 ≠ k)) ∧
    (Stated.granted s .debugger .vxStdata v →
      (s.selScope = true → (s.core k).halted = true → exec (.vxStateWrite v) s =
        .next (s.modVexek (fun x => { x with stWrites := x.stWrites ++ [(k, s.selStore, 8 * getF s .vxStidx 10 3, v)] }))) ∧
      (s.selScope = true → (s.core k).halted = false → exec (.vxStateWrite v) s = .next (setB s .vxStat 62 true)) ∧
      (s.selScope = false → exec (.vxStateWrite v) s = .next (s.violate .debugger true (Reg.off .vxStdata)))) ∧
    (Stated.granted s .debugger .vxMdata v → s.selScope = true →
      ((s.core k).halted = true → getB s .vxMaddr 63 = false → ∀ a, s.mShelfAddr = some a → exec (.vxMemoryWrite v) s = .next (s.storeWords a [v])) ∧
      ((s.core k).halted = true → getB s .vxMaddr 63 = true → exec (.vxMemoryWrite v) s =
        .next (s.hostWrite .debugger 3 none (some (BitVec.ofNat 12 (xlatVmid (s.ctx k s.selStore).xlat))) s.mAddr (wordBytes v)).1) ∧
      ((s.core k).halted = false → exec (.vxMemoryWrite v) s = .next (setB s .vxStat 62 true))) ∧
    (s.power.block ≠ .unpowered → s.permitted .debugger (Reg.off .vxMdata) false = true → s.selScope = true →
      (∀ a, (s.core k).halted = true → getB s .vxMaddr 63 = false → s.mShelfAddr = some a → s.badIn a 8 = false →
        exec .vxMemoryRead s = .next (s.emit (.vexek (.ok (some (s.word a)))))) ∧
      (∀ w, (s.core k).halted = true → getB s .vxMaddr 63 = true → s.vexek.readData = some w → exec .vxMemoryRead s =
        .next ((s.modVexek (fun v => { v with
          readData := none
          pendingRead := none })).emit (.vexek (.ok (some w))))) ∧
      ((s.core k).halted = false → exec .vxMemoryRead s = .next ((setB s .vxStat 62 true).emit (.vexek .fault))))) ∧
  (∀ (v : Word) (s : State), Stated.granted s .debugger .vxQuar v →
    let n := fld v 9 4
    let i := s.pairSlot n (fld v 3 0)
    (bitAt s.vexek.shelves n = true → s.vexek.draining = none → s.vexek.quar.contains (n, i) = false →
      ∃ u, exec (.vxQuarantine v) s = .next u ∧ u.vexek.draining = some (n, i, s.now) ∧ u.mem = s.mem) ∧
    (bitAt s.vexek.shelves n = true → s.vexek.draining = none → s.vexek.quar.contains (n, i) = true →
      ∃ u, exec (.vxQuarantineClear v) s = .next u ∧ (n, i) ∉ u.vexek.quar ∧ (∀ r, r < 16 → u.ctx (16 * n + i) r = {})) ∧
    (bitAt s.vexek.shelves n = false → exec (.vxQuarantine v) s = .next (s.violate .debugger true (Reg.off .vxQuar)) ∧
      exec (.vxQuarantineClear v) s = .next (s.violate .debugger true (Reg.off .vxQuar)))) ∧
  (∀ (n i t : Nat) (s : State), s.vexek.draining = some (n, i, t) →
    (s.storesEmpty (16 * n + i) = true → exec .quarantineDone s = .next (s.modVexek (fun v => { v with
      draining := none
      quar := v.quar ++ [(n, i)] }))) ∧
    (s.storesEmpty (16 * n + i) = false → exec .quarantineDone s = .next s ∧
      (t + 1000000 ≤ s.now → exec .quarantineTimeout s = .next (setB s.dropDraining .vxStat 58 true))))

/-- Trace packets are collected core by core while the buffer has room, VX_TRPOP takes the oldest; a fuse item is programmed once, in MANUFACTURE and
a session at WARDEN level, and counts from the next cold start (R420, R421, R437, R438). -/
def Obligations.TraceAndFuses : Prop :=
  (∀ s : State,
    (s.vexek.trace = [] → (∀ k, k ≤ 1024 → (s.core k).stim = []) → exec .traceCollect s = .next s) ∧
    (∀ (t : TracePkt) (r : List TracePkt), s.vexek.trace = [] → (s.core wardenKey).stim = t :: r → (s.core wardenKey).halted = false →
      (∀ k, k < 1024 → (s.core k).stim = []) → getB s .vxTrcfg 63 = false →
      ∃ u, exec .traceCollect s = .next u ∧ u.vexek.trace = [t] ∧ (u.core wardenKey).stim = r ∧ u.mem = s.mem) ∧
    (Stated.granted s .debugger .vxTrpop 0 → exec .vxTrpop s = .next (s.modVexek (fun v => { v with trace := v.trace.drop 1 })))) ∧
  (∀ (v : Word) (s : State),
    let w := setFld v 1 0 1 ||| bitIf 63 true
    let x := setFld v 1 0 2 ||| bitIf 63 true
    Stated.granted s .debugger .vxFusecmd w → Stated.granted s .debugger .vxFusecmd x → s.vexek.fusing = none →
    ((s.fuses.lc ≠ 0 ∨ s.vexek.level < 3) →
      exec (.fuseSerial v) s = .next ((setF s .vxFusecmd 61 60 1).violate .debugger true (Reg.off .vxFusecmd)) ∧
      exec (.fusePassword v) s = .next ((setF s .vxFusecmd 61 60 1).violate .debugger true (Reg.off .vxFusecmd))) ∧
    (s.fuses.lc = 0 → 3 ≤ s.vexek.level →
      (s.fuses.serSet = true → exec (.fuseSerial v) s = .next (setF s .vxFusecmd 61 60 2)) ∧
      (s.fuses.serSet = false → s.vexek.fuse0 = 0 → exec (.fuseSerial v) s = .next (setF s .vxFusecmd 61 60 1)) ∧
      (s.fuses.serSet = false → s.vexek.fuse0 ≠ 0 → exec (.fuseSerial v) s = .next { s with
        vexek := { s.vexek with fusing := some 1 }
        fuses := { s.fuses with serNew := s.vexek.fuse0 } }) ∧
      (s.fuses.pwdSet = true → exec (.fusePassword v) s = .next (setF s .vxFusecmd 61 60 2)) ∧
      (s.fuses.pwdSet = false → exec (.fusePassword v) s = .next { s with
        vexek := { s.vexek with fusing := some 2 }
        fuses := { s.fuses with pwdNew := s.vexek.fuse1 ++ s.vexek.fuse0 } }))) ∧
  (∀ (ok : Bool) (item : Nat) (s : State), s.vexek.fusing = some item →
    ∃ u, exec (.fuseProgramDone ok) s = .next u ∧ u.vexek.fusing = none ∧ getF u .vxFusecmd 61 60 = (if ok then 0 else 3) ∧ u.fuses.serial = s.fuses.serial ∧
      u.fuses.pwd = s.fuses.pwd ∧ (item = 1 → u.fuses.serSet = true ∧ (ok = true → u.fuses.serNew = s.fuses.serNew)) ∧
      (item = 2 → u.fuses.pwdSet = true ∧ (ok = true → u.fuses.pwdNew = s.fuses.pwdNew)))

/-! ## The whole block -/

/-- A step runs the command at the front of the queue on the rest of the queue; on an empty queue time passes, and while the block has no power
nothing does (the model's choice, log entry 22). -/
def Obligations.StepTakesFront : Prop :=
  (∀ (c : Instr) (rest : List Instr) (s : State), s.pending = c :: rest → step s = exec c { s with pending := rest }) ∧
  (∀ s : State, s.pending = [] → step s = .next s.tick) ∧
  (∀ s : State, s.power.block ≠ .unpowered → s.power.block ≠ .poweredDown → s.sys.slew = 0 → s.tick = { s with devtime := s.devtime + 1 }) ∧
  (∀ s : State, (s.power.block = .unpowered ∨ s.power.block = .poweredDown) → s.tick = s)

/-- Clearing VALID of GL_TAGRGN makes every host tag read as 0, and while it is 1 no other write of GL_TAGRGN or GL_TAGTAB acts (R276). -/
def Obligations.HostTagRegisters : Prop :=
  ∀ (who : Party) (v : Word) (s : State), getB s .glTagrgn 63 = true →
    (Stated.granted s who .glTagtab v → exec (.glTagtabWrite who v) s = .next s) ∧
    (Stated.granted s who .glTagrgn v →
      (bitAt v 63 = true → exec (.glTagrgnWrite who v) s = .next s) ∧
      (bitAt v 63 = false → ∃ u, exec (.glTagrgnWrite who v) s = .next u ∧ getB u .glTagrgn 63 = false ∧ ∀ a, u.hostTag a = some false))

/-- Home shelf and alternate shelf of a link: h = l div 4, k = l mod 4, the alternate is h XOR (2k + 1), in the same row and another group, and
each shelf is the alternate of four links from four shelves (R27). -/
def Obligations.AlternateShelves : Prop :=
  (∀ l : Fin 256, altShelf l.val = (l.val / 4) ^^^ (2 * (l.val % 4) + 1) ∧ altShelf l.val < 64 ∧ altShelf l.val / 8 = l.val / 4 / 8 ∧
    groupOf (altShelf l.val) ≠ groupOf (l.val / 4)) ∧
  (∀ n : Fin 64, ∃ a b c d : Fin 256,
    (∀ l : Fin 256, altShelf l.val = n.val ↔ l ∈ [a, b, c, d]) ∧ ([a, b, c, d].map (fun l => l.val / 4)).Nodup) ∧
  (∀ (l : Fin 256) (s : State), s.servingShelf l.val = if s.onAlt l.val then altShelf l.val else l.val / 4)

/-- Every command answers a next state in every state: what cannot happen there has no effect (log entry 1), and an operand of another
length than the spec's format is completed by free values or cut to it (log entry 126). -/
def Obligations.CommandsComplete : Prop :=
  ∀ (i : Instr) (s : State), ∃ t, exec i s = .next t

/-- What every step keeps: the memory is in its canonical form. -/
def Sys2Proof.Stated.inv (s : State) : Prop := Memory.wf s.mem = true

/-- The state after reset: the block is in reset with every power domain off, nothing waits, and the invariant of `InvariantKept` holds. -/
def Obligations.ResetState : Prop :=
  State.reset.power.block = .inReset ∧ State.reset.power.pen = 0 ∧ State.reset.pending = [] ∧ State.reset.mem = [] ∧ State.reset.devtime = 0 ∧
    (∀ n, (State.reset.shelf n).phase = .reset ∧ State.reset.isRetired n = false) ∧ (∀ k r, (State.reset.ctx k r).st = .free) ∧
    Stated.inv State.reset

/-- Every step keeps the invariant and takes one command off the queue: no command stores a zero byte as an entry, no command reorders memory,
and none adds to or drops from the queue. -/
def Obligations.InvariantKept : Prop :=
  ∀ (s t : State), Stated.inv s → step s = .next t → Stated.inv t ∧ t.pending = s.pending.tail

/-- A run never stops: from every state every number of steps answers a next state. -/
def Obligations.RunsGoOn : Prop :=
  ∀ (s : State) (k : Nat), Safe k s
end

