-- ==== Sys2Proof/Laws/Table.lean ====
section
/-! SUPPORT. Sparse tables: what a read finds after an update, and that an update keeps the canonical form. -/

namespace Sys2Proof.Machine

variable {α : Type}

theorem tget_tins (d v : α) (t : Tbl α) (k j : Nat) : tget d (tins k v t) j = if k = j then v else tget d t j := by
  induction t with
  | nil => simp [tins, tget]
  | cons e t ih =>
    obtain ⟨i, w⟩ := e
    by_cases h : k < i
    · simp [tins, tget, h]
    · by_cases h2 : k = i
      · subst h2; simp [tins, tget]; split <;> rfl
      · simp only [tins, h, h2, if_false, tget, ih]
        by_cases h3 : i = j
        · subst h3; simp [h2]
        · simp [h3]

theorem tget_tdel (d : α) (t : Tbl α) (k j : Nat) : tget d (tdel k t) j = if k = j then d else tget d t j := by
  induction t with
  | nil => simp [tdel, tget]
  | cons e t ih =>
    obtain ⟨i, w⟩ := e
    by_cases h : k = i
    · subst h; simp only [tdel, if_true, ih, tget]; split <;> rfl
    · simp only [tdel, h, if_false, tget, ih]
      by_cases h3 : i = j
      · subst h3; simp [h]
      · simp [h3]

/-- A read after an update. -/
theorem tget_tset [DecidableEq α] (d v : α) (t : Tbl α) (k j : Nat) : tget d (tset d t k v) j = if k = j then v else tget d t j := by
  by_cases h : v = d
  · subst h; simp [tset, tget_tdel]
  · simp [tset, h, tget_tins]

@[simp] theorem tget_tset_same [DecidableEq α] (d v : α) (t : Tbl α) (k : Nat) : tget d (tset d t k v) k = v := by simp [tget_tset]

theorem tget_tset_other [DecidableEq α] (d v : α) (t : Tbl α) (k j : Nat) (h : k ≠ j) : tget d (tset d t k v) j = tget d t j := by
  simp [tget_tset, h]

/-- The later of two inserts of one key stands. -/
theorem tins_tins (k : Nat) (v w : α) (t : Tbl α) : tins k w (tins k v t) = tins k w t := by
  induction t with
  | nil => simp [tins]
  | cons e t ih =>
    obtain ⟨i, x⟩ := e
    by_cases h : k < i
    · simp [tins, h]
    · by_cases h2 : k = i
      · subst h2; simp [tins]
      · simp [tins, h, h2, ih]

theorem tdel_tins (k : Nat) (v : α) (t : Tbl α) : tdel k (tins k v t) = tdel k t := by
  induction t with
  | nil => simp [tins, tdel]
  | cons e t ih =>
    obtain ⟨i, x⟩ := e
    by_cases h : k < i
    · simp [tins, tdel, h]
    · by_cases h2 : k = i
      · subst h2; simp [tins, tdel]
      · simp [tins, tdel, h, h2, ih]

/-- The later of two updates of one key stands; the first must not be the default value. -/
theorem tset_tset [DecidableEq α] (d v w : α) (t : Tbl α) (k : Nat) (h : v ≠ d) : tset d (tset d t k v) k w = tset d t k w := by
  by_cases hw : w = d <;> simp [tset, h, hw, tins_tins, tdel_tins]

theorem tget_tmod [DecidableEq α] (d : α) (t : Tbl α) (k j : Nat) (f : α → α) :
    tget d (tmod d t k f) j = if k = j then f (tget d t k) else tget d t j := tget_tset ..

/-! ## The canonical form -/

/-- Every key of the table is above `k`. -/
def keysAbove (k : Nat) (t : Tbl α) : Prop := ∀ e ∈ t, k < e.1

theorem keysRise_cons (k : Nat) (v : α) (t : Tbl α) : keysRise ((k, v) :: t) = true ↔ keysAbove k t ∧ keysRise t = true := by
  induction t generalizing k v with
  | nil => simp [keysRise, keysAbove]
  | cons e t ih =>
    obtain ⟨i, w⟩ := e
    simp only [keysRise, Bool.and_eq_true, decide_eq_true_eq]
    constructor
    · rintro ⟨h, hr⟩
      refine ⟨?_, hr⟩
      intro e he
      rcases List.mem_cons.1 he with rfl | he
      · exact h
      · exact Nat.lt_trans h (((ih i w).1 hr).1 e he)
    · rintro ⟨h, hr⟩
      exact ⟨h (i, w) (List.mem_cons_self ..), hr⟩

theorem tins_mem (k : Nat) (v : α) (t : Tbl α) (e : Nat × α) (h : e ∈ tins k v t) : e = (k, v) ∨ e ∈ t := by
  induction t with
  | nil => simpa [tins] using h
  | cons f t ih =>
    obtain ⟨i, w⟩ := f
    unfold tins at h
    split at h
    · simpa using h
    · split at h
      · rcases List.mem_cons.1 h with h | h
        · exact .inl h
        · exact .inr (List.mem_cons_of_mem _ h)
      · rcases List.mem_cons.1 h with h | h
        · exact .inr (h ▸ List.mem_cons_self ..)
        · rcases ih h with h | h
          · exact .inl h
          · exact .inr (List.mem_cons_of_mem _ h)

theorem tdel_mem (k : Nat) (t : Tbl α) (e : Nat × α) (h : e ∈ tdel k t) : e ∈ t := by
  induction t with
  | nil => simpa [tdel] using h
  | cons f t ih =>
    obtain ⟨i, w⟩ := f
    unfold tdel at h
    split at h
    · exact List.mem_cons_of_mem _ (ih h)
    · rcases List.mem_cons.1 h with h | h
      · exact h ▸ List.mem_cons_self ..
      · exact List.mem_cons_of_mem _ (ih h)

theorem tins_rise (k : Nat) (v : α) (t : Tbl α) (h : keysRise t = true) : keysRise (tins k v t) = true := by
  induction t with
  | nil => rfl
  | cons f t ih =>
    obtain ⟨i, w⟩ := f
    have hc := (keysRise_cons i w t).1 h
    unfold tins
    split
    · rename_i hk
      refine (keysRise_cons ..).2 ⟨?_, h⟩
      intro e he
      rcases List.mem_cons.1 he with rfl | he
      · exact hk
      · exact Nat.lt_trans hk (hc.1 e he)
    · split
      · rename_i hk; subst hk; exact (keysRise_cons ..).2 hc
      · rename_i h1 h2
        refine (keysRise_cons ..).2 ⟨?_, ih hc.2⟩
        intro e he
        rcases tins_mem k v t e he with rfl | he
        · show i < k; omega
        · exact hc.1 e he

theorem tdel_rise (k : Nat) (t : Tbl α) (h : keysRise t = true) : keysRise (tdel k t) = true := by
  induction t with
  | nil => rfl
  | cons f t ih =>
    obtain ⟨i, w⟩ := f
    have hc := (keysRise_cons i w t).1 h
    unfold tdel
    split
    · exact ih hc.2
    · exact (keysRise_cons ..).2 ⟨fun e he => hc.1 e (tdel_mem k t e he), ih hc.2⟩

theorem filter_rise (f : Nat × α → Bool) (t : Tbl α) (h : keysRise t = true) : keysRise (t.filter f) = true := by
  induction t with
  | nil => rfl
  | cons e t ih =>
    obtain ⟨i, w⟩ := e
    have hc := (keysRise_cons i w t).1 h
    rw [List.filter_cons]
    split
    · exact (keysRise_cons ..).2 ⟨fun e he => hc.1 e (List.mem_filter.1 he).1, ih hc.2⟩
    · exact ih hc.2

/-- An update keeps the canonical form. -/
theorem tset_ok [DecidableEq α] (d v : α) (t : Tbl α) (k : Nat) (h : tblOk d t = true) : tblOk d (tset d t k v) = true := by
  obtain ⟨hr, hd⟩ := Bool.and_eq_true_iff.1 h
  have hd' := List.all_eq_true.1 hd
  refine Bool.and_eq_true_iff.2 ?_
  unfold tset
  split
  · exact ⟨tdel_rise k t hr, List.all_eq_true.2 fun e he => hd' e (tdel_mem k t e he)⟩
  · rename_i hv
    refine ⟨tins_rise k v t hr, List.all_eq_true.2 fun e he => ?_⟩
    rcases tins_mem k v t e he with rfl | he
    · simpa using hv
    · exact hd' e he

/-- Dropping a range of keys keeps the canonical form. -/
theorem dropped_ok [DecidableEq α] (d : α) (f : Nat × α → Bool) (t : Tbl α) (h : tblOk d t = true) : tblOk d (t.filter f) = true := by
  obtain ⟨hr, hd⟩ := Bool.and_eq_true_iff.1 h
  exact Bool.and_eq_true_iff.2 ⟨filter_rise f t hr, List.all_eq_true.2 fun e he => List.all_eq_true.1 hd e (List.mem_filter.1 he).1⟩

end Sys2Proof.Machine
end

