-- ==== Sys2Proof/Laws/State.lean ====
section
/-! SUPPORT. What each update of State leaves as it was, field by field and read by read, and what a read finds after its own update. -/

namespace Sys2Proof.Machine

variable (s : State)

/-! ### setShelf -/
@[simp] theorem State.setShelf_pending (n : Nat) (x : Shelf) : (s.setShelf n x).pending = s.pending := rfl
@[simp] theorem State.setShelf_outbox (n : Nat) (x : Shelf) : (s.setShelf n x).outbox = s.outbox := rfl
@[simp] theorem State.setShelf_freeCtr (n : Nat) (x : Shelf) : (s.setShelf n x).freeCtr = s.freeCtr := rfl
@[simp] theorem State.setShelf_tagCtr (n : Nat) (x : Shelf) : (s.setShelf n x).tagCtr = s.tagCtr := rfl
@[simp] theorem State.setShelf_devtime (n : Nat) (x : Shelf) : (s.setShelf n x).devtime = s.devtime := rfl
@[simp] theorem State.setShelf_regs (n : Nat) (x : Shelf) : (s.setShelf n x).regs = s.regs := rfl
@[simp] theorem State.setShelf_mem (n : Nat) (x : Shelf) : (s.setShelf n x).mem = s.mem := rfl
@[simp] theorem State.setShelf_ctags (n : Nat) (x : Shelf) : (s.setShelf n x).ctags = s.ctags := rfl
@[simp] theorem State.setShelf_bad (n : Nat) (x : Shelf) : (s.setShelf n x).bad = s.bad := rfl
@[simp] theorem State.setShelf_cores (n : Nat) (x : Shelf) : (s.setShelf n x).cores = s.cores := rfl
@[simp] theorem State.setShelf_ctxs (n : Nat) (x : Shelf) : (s.setShelf n x).ctxs = s.ctxs := rfl
@[simp] theorem State.setShelf_links (n : Nat) (x : Shelf) : (s.setShelf n x).links = s.links := rfl
@[simp] theorem State.setShelf_ports (n : Nat) (x : Shelf) : (s.setShelf n x).ports = s.ports := rfl
@[simp] theorem State.setShelf_queues (n : Nat) (x : Shelf) : (s.setShelf n x).queues = s.queues := rfl
@[simp] theorem State.setShelf_rings (n : Nat) (x : Shelf) : (s.setShelf n x).rings = s.rings := rfl
@[simp] theorem State.setShelf_slotWrites (n : Nat) (x : Shelf) : (s.setShelf n x).slotWrites = s.slotWrites := rfl
@[simp] theorem State.setShelf_evsrcs (n : Nat) (x : Shelf) : (s.setShelf n x).evsrcs = s.evsrcs := rfl
@[simp] theorem State.setShelf_holdoff (n : Nat) (x : Shelf) : (s.setShelf n x).holdoff = s.holdoff := rfl
@[simp] theorem State.setShelf_gops (n : Nat) (x : Shelf) : (s.setShelf n x).gops = s.gops := rfl
@[simp] theorem State.setShelf_flue (n : Nat) (x : Shelf) : (s.setShelf n x).flue = s.flue := rfl
@[simp] theorem State.setShelf_arrived (n : Nat) (x : Shelf) : (s.setShelf n x).arrived = s.arrived := rfl
@[simp] theorem State.setShelf_returned (n : Nat) (x : Shelf) : (s.setShelf n x).returned = s.returned := rfl
@[simp] theorem State.setShelf_granted (n : Nat) (x : Shelf) : (s.setShelf n x).granted = s.granted := rfl
@[simp] theorem State.setShelf_routerBad (n : Nat) (x : Shelf) : (s.setShelf n x).routerBad = s.routerBad := rfl
@[simp] theorem State.setShelf_retired (n : Nat) (x : Shelf) : (s.setShelf n x).retired = s.retired := rfl
@[simp] theorem State.setShelf_linkAlt (n : Nat) (x : Shelf) : (s.setShelf n x).linkAlt = s.linkAlt := rfl
@[simp] theorem State.setShelf_sys (n : Nat) (x : Shelf) : (s.setShelf n x).sys = s.sys := rfl
@[simp] theorem State.setShelf_keyCmd (n : Nat) (x : Shelf) : (s.setShelf n x).keyCmd = s.keyCmd := rfl
@[simp] theorem State.setShelf_tlbGone (n : Nat) (x : Shelf) : (s.setShelf n x).tlbGone = s.tlbGone := rfl
@[simp] theorem State.setShelf_hpmapNew (n : Nat) (x : Shelf) : (s.setShelf n x).hpmapNew = s.hpmapNew := rfl
@[simp] theorem State.setShelf_hpmapReply (n : Nat) (x : Shelf) : (s.setShelf n x).hpmapReply = s.hpmapReply := rfl
@[simp] theorem State.setShelf_warden (n : Nat) (x : Shelf) : (s.setShelf n x).warden = s.warden := rfl
@[simp] theorem State.setShelf_fuses (n : Nat) (x : Shelf) : (s.setShelf n x).fuses = s.fuses := rfl
@[simp] theorem State.setShelf_power (n : Nat) (x : Shelf) : (s.setShelf n x).power = s.power := rfl
@[simp] theorem State.setShelf_vexek (n : Nat) (x : Shelf) : (s.setShelf n x).vexek = s.vexek := rfl
@[simp] theorem State.setShelf_core_read (n : Nat) (x : Shelf) (m : Nat) : (s.setShelf n x).core m = s.core m := rfl
@[simp] theorem State.setShelf_ctx_read (n : Nat) (x : Shelf) (m q : Nat) : (s.setShelf n x).ctx m q = s.ctx m q := rfl
@[simp] theorem State.setShelf_link_read (n : Nat) (x : Shelf) (m : Nat) : (s.setShelf n x).link m = s.link m := rfl
@[simp] theorem State.setShelf_port_read (n : Nat) (x : Shelf) (m : Nat) : (s.setShelf n x).port m = s.port m := rfl
@[simp] theorem State.setShelf_queue_read (n : Nat) (x : Shelf) (m p : Nat) : (s.setShelf n x).queue m p = s.queue m p := rfl
@[simp] theorem State.setShelf_ring_read (n : Nat) (x : Shelf) (m : Nat) : (s.setShelf n x).ring m = s.ring m := rfl
@[simp] theorem State.setShelf_gop_read (n : Nat) (x : Shelf) (m : Nat) : (s.setShelf n x).gop m = s.gop m := rfl
@[simp] theorem State.setShelf_now_read (n : Nat) (x : Shelf)  : (s.setShelf n x).now = s.now := rfl
@[simp] theorem State.setShelf_byte_read (n : Nat) (x : Shelf) (m : Nat) : (s.setShelf n x).byte m = s.byte m := rfl
@[simp] theorem State.setShelf_isRetired_read (n : Nat) (x : Shelf) (m : Nat) : (s.setShelf n x).isRetired m = s.isRetired m := rfl
@[simp] theorem State.setShelf_servingShelf_read (n : Nat) (x : Shelf) (m : Nat) : (s.setShelf n x).servingShelf m = s.servingShelf m := rfl
@[simp] theorem State.setShelf_rdReg_read (n : Nat) (x : Shelf) (h : Reg) : rdReg (s.setShelf n x) h = rdReg s h := rfl
@[simp] theorem State.setShelf_getF_read (n : Nat) (x : Shelf) (h : Reg) (u w : Nat) : getF (s.setShelf n x) h u w = getF s h u w := rfl
@[simp] theorem State.setShelf_getB_read (n : Nat) (x : Shelf) (h : Reg) (u : Nat) : getB (s.setShelf n x) h u = getB s h u := rfl

/-! ### modShelf -/
@[simp] theorem State.modShelf_pending (n : Nat) (f : Shelf → Shelf) : (s.modShelf n f).pending = s.pending := rfl
@[simp] theorem State.modShelf_outbox (n : Nat) (f : Shelf → Shelf) : (s.modShelf n f).outbox = s.outbox := rfl
@[simp] theorem State.modShelf_freeCtr (n : Nat) (f : Shelf → Shelf) : (s.modShelf n f).freeCtr = s.freeCtr := rfl
@[simp] theorem State.modShelf_tagCtr (n : Nat) (f : Shelf → Shelf) : (s.modShelf n f).tagCtr = s.tagCtr := rfl
@[simp] theorem State.modShelf_devtime (n : Nat) (f : Shelf → Shelf) : (s.modShelf n f).devtime = s.devtime := rfl
@[simp] theorem State.modShelf_regs (n : Nat) (f : Shelf → Shelf) : (s.modShelf n f).regs = s.regs := rfl
@[simp] theorem State.modShelf_mem (n : Nat) (f : Shelf → Shelf) : (s.modShelf n f).mem = s.mem := rfl
@[simp] theorem State.modShelf_ctags (n : Nat) (f : Shelf → Shelf) : (s.modShelf n f).ctags = s.ctags := rfl
@[simp] theorem State.modShelf_bad (n : Nat) (f : Shelf → Shelf) : (s.modShelf n f).bad = s.bad := rfl
@[simp] theorem State.modShelf_cores (n : Nat) (f : Shelf → Shelf) : (s.modShelf n f).cores = s.cores := rfl
@[simp] theorem State.modShelf_ctxs (n : Nat) (f : Shelf → Shelf) : (s.modShelf n f).ctxs = s.ctxs := rfl
@[simp] theorem State.modShelf_links (n : Nat) (f : Shelf → Shelf) : (s.modShelf n f).links = s.links := rfl
@[simp] theorem State.modShelf_ports (n : Nat) (f : Shelf → Shelf) : (s.modShelf n f).ports = s.ports := rfl
@[simp] theorem State.modShelf_queues (n : Nat) (f : Shelf → Shelf) : (s.modShelf n f).queues = s.queues := rfl
@[simp] theorem State.modShelf_rings (n : Nat) (f : Shelf → Shelf) : (s.modShelf n f).rings = s.rings := rfl
@[simp] theorem State.modShelf_slotWrites (n : Nat) (f : Shelf → Shelf) : (s.modShelf n f).slotWrites = s.slotWrites := rfl
@[simp] theorem State.modShelf_evsrcs (n : Nat) (f : Shelf → Shelf) : (s.modShelf n f).evsrcs = s.evsrcs := rfl
@[simp] theorem State.modShelf_holdoff (n : Nat) (f : Shelf → Shelf) : (s.modShelf n f).holdoff = s.holdoff := rfl
@[simp] theorem State.modShelf_gops (n : Nat) (f : Shelf → Shelf) : (s.modShelf n f).gops = s.gops := rfl
@[simp] theorem State.modShelf_flue (n : Nat) (f : Shelf → Shelf) : (s.modShelf n f).flue = s.flue := rfl
@[simp] theorem State.modShelf_arrived (n : Nat) (f : Shelf → Shelf) : (s.modShelf n f).arrived = s.arrived := rfl
@[simp] theorem State.modShelf_returned (n : Nat) (f : Shelf → Shelf) : (s.modShelf n f).returned = s.returned := rfl
@[simp] theorem State.modShelf_granted (n : Nat) (f : Shelf → Shelf) : (s.modShelf n f).granted = s.granted := rfl
@[simp] theorem State.modShelf_routerBad (n : Nat) (f : Shelf → Shelf) : (s.modShelf n f).routerBad = s.routerBad := rfl
@[simp] theorem State.modShelf_retired (n : Nat) (f : Shelf → Shelf) : (s.modShelf n f).retired = s.retired := rfl
@[simp] theorem State.modShelf_linkAlt (n : Nat) (f : Shelf → Shelf) : (s.modShelf n f).linkAlt = s.linkAlt := rfl
@[simp] theorem State.modShelf_sys (n : Nat) (f : Shelf → Shelf) : (s.modShelf n f).sys = s.sys := rfl
@[simp] theorem State.modShelf_keyCmd (n : Nat) (f : Shelf → Shelf) : (s.modShelf n f).keyCmd = s.keyCmd := rfl
@[simp] theorem State.modShelf_tlbGone (n : Nat) (f : Shelf → Shelf) : (s.modShelf n f).tlbGone = s.tlbGone := rfl
@[simp] theorem State.modShelf_hpmapNew (n : Nat) (f : Shelf → Shelf) : (s.modShelf n f).hpmapNew = s.hpmapNew := rfl
@[simp] theorem State.modShelf_hpmapReply (n : Nat) (f : Shelf → Shelf) : (s.modShelf n f).hpmapReply = s.hpmapReply := rfl
@[simp] theorem State.modShelf_warden (n : Nat) (f : Shelf → Shelf) : (s.modShelf n f).warden = s.warden := rfl
@[simp] theorem State.modShelf_fuses (n : Nat) (f : Shelf → Shelf) : (s.modShelf n f).fuses = s.fuses := rfl
@[simp] theorem State.modShelf_power (n : Nat) (f : Shelf → Shelf) : (s.modShelf n f).power = s.power := rfl
@[simp] theorem State.modShelf_vexek (n : Nat) (f : Shelf → Shelf) : (s.modShelf n f).vexek = s.vexek := rfl
@[simp] theorem State.modShelf_core_read (n : Nat) (f : Shelf → Shelf) (m : Nat) : (s.modShelf n f).core m = s.core m := rfl
@[simp] theorem State.modShelf_ctx_read (n : Nat) (f : Shelf → Shelf) (m q : Nat) : (s.modShelf n f).ctx m q = s.ctx m q := rfl
@[simp] theorem State.modShelf_link_read (n : Nat) (f : Shelf → Shelf) (m : Nat) : (s.modShelf n f).link m = s.link m := rfl
@[simp] theorem State.modShelf_port_read (n : Nat) (f : Shelf → Shelf) (m : Nat) : (s.modShelf n f).port m = s.port m := rfl
@[simp] theorem State.modShelf_queue_read (n : Nat) (f : Shelf → Shelf) (m p : Nat) : (s.modShelf n f).queue m p = s.queue m p := rfl
@[simp] theorem State.modShelf_ring_read (n : Nat) (f : Shelf → Shelf) (m : Nat) : (s.modShelf n f).ring m = s.ring m := rfl
@[simp] theorem State.modShelf_gop_read (n : Nat) (f : Shelf → Shelf) (m : Nat) : (s.modShelf n f).gop m = s.gop m := rfl
@[simp] theorem State.modShelf_now_read (n : Nat) (f : Shelf → Shelf)  : (s.modShelf n f).now = s.now := rfl
@[simp] theorem State.modShelf_byte_read (n : Nat) (f : Shelf → Shelf) (m : Nat) : (s.modShelf n f).byte m = s.byte m := rfl
@[simp] theorem State.modShelf_isRetired_read (n : Nat) (f : Shelf → Shelf) (m : Nat) : (s.modShelf n f).isRetired m = s.isRetired m := rfl
@[simp] theorem State.modShelf_servingShelf_read (n : Nat) (f : Shelf → Shelf) (m : Nat) : (s.modShelf n f).servingShelf m = s.servingShelf m := rfl
@[simp] theorem State.modShelf_rdReg_read (n : Nat) (f : Shelf → Shelf) (h : Reg) : rdReg (s.modShelf n f) h = rdReg s h := rfl
@[simp] theorem State.modShelf_getF_read (n : Nat) (f : Shelf → Shelf) (h : Reg) (u w : Nat) : getF (s.modShelf n f) h u w = getF s h u w := rfl
@[simp] theorem State.modShelf_getB_read (n : Nat) (f : Shelf → Shelf) (h : Reg) (u : Nat) : getB (s.modShelf n f) h u = getB s h u := rfl

/-! ### setEntry -/
@[simp] theorem State.setEntry_pending (n i : Nat) (e : Entry) : (s.setEntry n i e).pending = s.pending := rfl
@[simp] theorem State.setEntry_outbox (n i : Nat) (e : Entry) : (s.setEntry n i e).outbox = s.outbox := rfl
@[simp] theorem State.setEntry_freeCtr (n i : Nat) (e : Entry) : (s.setEntry n i e).freeCtr = s.freeCtr := rfl
@[simp] theorem State.setEntry_tagCtr (n i : Nat) (e : Entry) : (s.setEntry n i e).tagCtr = s.tagCtr := rfl
@[simp] theorem State.setEntry_devtime (n i : Nat) (e : Entry) : (s.setEntry n i e).devtime = s.devtime := rfl
@[simp] theorem State.setEntry_regs (n i : Nat) (e : Entry) : (s.setEntry n i e).regs = s.regs := rfl
@[simp] theorem State.setEntry_mem (n i : Nat) (e : Entry) : (s.setEntry n i e).mem = s.mem := rfl
@[simp] theorem State.setEntry_ctags (n i : Nat) (e : Entry) : (s.setEntry n i e).ctags = s.ctags := rfl
@[simp] theorem State.setEntry_bad (n i : Nat) (e : Entry) : (s.setEntry n i e).bad = s.bad := rfl
@[simp] theorem State.setEntry_cores (n i : Nat) (e : Entry) : (s.setEntry n i e).cores = s.cores := rfl
@[simp] theorem State.setEntry_ctxs (n i : Nat) (e : Entry) : (s.setEntry n i e).ctxs = s.ctxs := rfl
@[simp] theorem State.setEntry_links (n i : Nat) (e : Entry) : (s.setEntry n i e).links = s.links := rfl
@[simp] theorem State.setEntry_ports (n i : Nat) (e : Entry) : (s.setEntry n i e).ports = s.ports := rfl
@[simp] theorem State.setEntry_queues (n i : Nat) (e : Entry) : (s.setEntry n i e).queues = s.queues := rfl
@[simp] theorem State.setEntry_rings (n i : Nat) (e : Entry) : (s.setEntry n i e).rings = s.rings := rfl
@[simp] theorem State.setEntry_slotWrites (n i : Nat) (e : Entry) : (s.setEntry n i e).slotWrites = s.slotWrites := rfl
@[simp] theorem State.setEntry_evsrcs (n i : Nat) (e : Entry) : (s.setEntry n i e).evsrcs = s.evsrcs := rfl
@[simp] theorem State.setEntry_holdoff (n i : Nat) (e : Entry) : (s.setEntry n i e).holdoff = s.holdoff := rfl
@[simp] theorem State.setEntry_gops (n i : Nat) (e : Entry) : (s.setEntry n i e).gops = s.gops := rfl
@[simp] theorem State.setEntry_flue (n i : Nat) (e : Entry) : (s.setEntry n i e).flue = s.flue := rfl
@[simp] theorem State.setEntry_arrived (n i : Nat) (e : Entry) : (s.setEntry n i e).arrived = s.arrived := rfl
@[simp] theorem State.setEntry_returned (n i : Nat) (e : Entry) : (s.setEntry n i e).returned = s.returned := rfl
@[simp] theorem State.setEntry_granted (n i : Nat) (e : Entry) : (s.setEntry n i e).granted = s.granted := rfl
@[simp] theorem State.setEntry_routerBad (n i : Nat) (e : Entry) : (s.setEntry n i e).routerBad = s.routerBad := rfl
@[simp] theorem State.setEntry_retired (n i : Nat) (e : Entry) : (s.setEntry n i e).retired = s.retired := rfl
@[simp] theorem State.setEntry_linkAlt (n i : Nat) (e : Entry) : (s.setEntry n i e).linkAlt = s.linkAlt := rfl
@[simp] theorem State.setEntry_sys (n i : Nat) (e : Entry) : (s.setEntry n i e).sys = s.sys := rfl
@[simp] theorem State.setEntry_keyCmd (n i : Nat) (e : Entry) : (s.setEntry n i e).keyCmd = s.keyCmd := rfl
@[simp] theorem State.setEntry_tlbGone (n i : Nat) (e : Entry) : (s.setEntry n i e).tlbGone = s.tlbGone := rfl
@[simp] theorem State.setEntry_hpmapNew (n i : Nat) (e : Entry) : (s.setEntry n i e).hpmapNew = s.hpmapNew := rfl
@[simp] theorem State.setEntry_hpmapReply (n i : Nat) (e : Entry) : (s.setEntry n i e).hpmapReply = s.hpmapReply := rfl
@[simp] theorem State.setEntry_warden (n i : Nat) (e : Entry) : (s.setEntry n i e).warden = s.warden := rfl
@[simp] theorem State.setEntry_fuses (n i : Nat) (e : Entry) : (s.setEntry n i e).fuses = s.fuses := rfl
@[simp] theorem State.setEntry_power (n i : Nat) (e : Entry) : (s.setEntry n i e).power = s.power := rfl
@[simp] theorem State.setEntry_vexek (n i : Nat) (e : Entry) : (s.setEntry n i e).vexek = s.vexek := rfl
@[simp] theorem State.setEntry_core_read (n i : Nat) (e : Entry) (m : Nat) : (s.setEntry n i e).core m = s.core m := rfl
@[simp] theorem State.setEntry_ctx_read (n i : Nat) (e : Entry) (m q : Nat) : (s.setEntry n i e).ctx m q = s.ctx m q := rfl
@[simp] theorem State.setEntry_link_read (n i : Nat) (e : Entry) (m : Nat) : (s.setEntry n i e).link m = s.link m := rfl
@[simp] theorem State.setEntry_port_read (n i : Nat) (e : Entry) (m : Nat) : (s.setEntry n i e).port m = s.port m := rfl
@[simp] theorem State.setEntry_queue_read (n i : Nat) (e : Entry) (m p : Nat) : (s.setEntry n i e).queue m p = s.queue m p := rfl
@[simp] theorem State.setEntry_ring_read (n i : Nat) (e : Entry) (m : Nat) : (s.setEntry n i e).ring m = s.ring m := rfl
@[simp] theorem State.setEntry_gop_read (n i : Nat) (e : Entry) (m : Nat) : (s.setEntry n i e).gop m = s.gop m := rfl
@[simp] theorem State.setEntry_now_read (n i : Nat) (e : Entry)  : (s.setEntry n i e).now = s.now := rfl
@[simp] theorem State.setEntry_byte_read (n i : Nat) (e : Entry) (m : Nat) : (s.setEntry n i e).byte m = s.byte m := rfl
@[simp] theorem State.setEntry_isRetired_read (n i : Nat) (e : Entry) (m : Nat) : (s.setEntry n i e).isRetired m = s.isRetired m := rfl
@[simp] theorem State.setEntry_servingShelf_read (n i : Nat) (e : Entry) (m : Nat) : (s.setEntry n i e).servingShelf m = s.servingShelf m := rfl
@[simp] theorem State.setEntry_rdReg_read (n i : Nat) (e : Entry) (h : Reg) : rdReg (s.setEntry n i e) h = rdReg s h := rfl
@[simp] theorem State.setEntry_getF_read (n i : Nat) (e : Entry) (h : Reg) (u w : Nat) : getF (s.setEntry n i e) h u w = getF s h u w := rfl
@[simp] theorem State.setEntry_getB_read (n i : Nat) (e : Entry) (h : Reg) (u : Nat) : getB (s.setEntry n i e) h u = getB s h u := rfl

/-! ### setCore -/
@[simp] theorem State.setCore_pending (k : Nat) (x : Core) : (s.setCore k x).pending = s.pending := rfl
@[simp] theorem State.setCore_outbox (k : Nat) (x : Core) : (s.setCore k x).outbox = s.outbox := rfl
@[simp] theorem State.setCore_freeCtr (k : Nat) (x : Core) : (s.setCore k x).freeCtr = s.freeCtr := rfl
@[simp] theorem State.setCore_tagCtr (k : Nat) (x : Core) : (s.setCore k x).tagCtr = s.tagCtr := rfl
@[simp] theorem State.setCore_devtime (k : Nat) (x : Core) : (s.setCore k x).devtime = s.devtime := rfl
@[simp] theorem State.setCore_regs (k : Nat) (x : Core) : (s.setCore k x).regs = s.regs := rfl
@[simp] theorem State.setCore_mem (k : Nat) (x : Core) : (s.setCore k x).mem = s.mem := rfl
@[simp] theorem State.setCore_ctags (k : Nat) (x : Core) : (s.setCore k x).ctags = s.ctags := rfl
@[simp] theorem State.setCore_bad (k : Nat) (x : Core) : (s.setCore k x).bad = s.bad := rfl
@[simp] theorem State.setCore_shelves (k : Nat) (x : Core) : (s.setCore k x).shelves = s.shelves := rfl
@[simp] theorem State.setCore_ctxs (k : Nat) (x : Core) : (s.setCore k x).ctxs = s.ctxs := rfl
@[simp] theorem State.setCore_links (k : Nat) (x : Core) : (s.setCore k x).links = s.links := rfl
@[simp] theorem State.setCore_ports (k : Nat) (x : Core) : (s.setCore k x).ports = s.ports := rfl
@[simp] theorem State.setCore_queues (k : Nat) (x : Core) : (s.setCore k x).queues = s.queues := rfl
@[simp] theorem State.setCore_rings (k : Nat) (x : Core) : (s.setCore k x).rings = s.rings := rfl
@[simp] theorem State.setCore_slotWrites (k : Nat) (x : Core) : (s.setCore k x).slotWrites = s.slotWrites := rfl
@[simp] theorem State.setCore_evsrcs (k : Nat) (x : Core) : (s.setCore k x).evsrcs = s.evsrcs := rfl
@[simp] theorem State.setCore_holdoff (k : Nat) (x : Core) : (s.setCore k x).holdoff = s.holdoff := rfl
@[simp] theorem State.setCore_gops (k : Nat) (x : Core) : (s.setCore k x).gops = s.gops := rfl
@[simp] theorem State.setCore_flue (k : Nat) (x : Core) : (s.setCore k x).flue = s.flue := rfl
@[simp] theorem State.setCore_arrived (k : Nat) (x : Core) : (s.setCore k x).arrived = s.arrived := rfl
@[simp] theorem State.setCore_returned (k : Nat) (x : Core) : (s.setCore k x).returned = s.returned := rfl
@[simp] theorem State.setCore_granted (k : Nat) (x : Core) : (s.setCore k x).granted = s.granted := rfl
@[simp] theorem State.setCore_routerBad (k : Nat) (x : Core) : (s.setCore k x).routerBad = s.routerBad := rfl
@[simp] theorem State.setCore_retired (k : Nat) (x : Core) : (s.setCore k x).retired = s.retired := rfl
@[simp] theorem State.setCore_linkAlt (k : Nat) (x : Core) : (s.setCore k x).linkAlt = s.linkAlt := rfl
@[simp] theorem State.setCore_sys (k : Nat) (x : Core) : (s.setCore k x).sys = s.sys := rfl
@[simp] theorem State.setCore_keyCmd (k : Nat) (x : Core) : (s.setCore k x).keyCmd = s.keyCmd := rfl
@[simp] theorem State.setCore_tlbGone (k : Nat) (x : Core) : (s.setCore k x).tlbGone = s.tlbGone := rfl
@[simp] theorem State.setCore_hpmapNew (k : Nat) (x : Core) : (s.setCore k x).hpmapNew = s.hpmapNew := rfl
@[simp] theorem State.setCore_hpmapReply (k : Nat) (x : Core) : (s.setCore k x).hpmapReply = s.hpmapReply := rfl
@[simp] theorem State.setCore_warden (k : Nat) (x : Core) : (s.setCore k x).warden = s.warden := rfl
@[simp] theorem State.setCore_fuses (k : Nat) (x : Core) : (s.setCore k x).fuses = s.fuses := rfl
@[simp] theorem State.setCore_power (k : Nat) (x : Core) : (s.setCore k x).power = s.power := rfl
@[simp] theorem State.setCore_vexek (k : Nat) (x : Core) : (s.setCore k x).vexek = s.vexek := rfl
@[simp] theorem State.setCore_shelf_read (k : Nat) (x : Core) (m : Nat) : (s.setCore k x).shelf m = s.shelf m := rfl
@[simp] theorem State.setCore_ctx_read (k : Nat) (x : Core) (m q : Nat) : (s.setCore k x).ctx m q = s.ctx m q := rfl
@[simp] theorem State.setCore_link_read (k : Nat) (x : Core) (m : Nat) : (s.setCore k x).link m = s.link m := rfl
@[simp] theorem State.setCore_port_read (k : Nat) (x : Core) (m : Nat) : (s.setCore k x).port m = s.port m := rfl
@[simp] theorem State.setCore_queue_read (k : Nat) (x : Core) (m p : Nat) : (s.setCore k x).queue m p = s.queue m p := rfl
@[simp] theorem State.setCore_ring_read (k : Nat) (x : Core) (m : Nat) : (s.setCore k x).ring m = s.ring m := rfl
@[simp] theorem State.setCore_gop_read (k : Nat) (x : Core) (m : Nat) : (s.setCore k x).gop m = s.gop m := rfl
@[simp] theorem State.setCore_entry_read (k : Nat) (x : Core) (m j : Nat) : (s.setCore k x).entry m j = s.entry m j := rfl
@[simp] theorem State.setCore_now_read (k : Nat) (x : Core)  : (s.setCore k x).now = s.now := rfl
@[simp] theorem State.setCore_byte_read (k : Nat) (x : Core) (m : Nat) : (s.setCore k x).byte m = s.byte m := rfl
@[simp] theorem State.setCore_isRetired_read (k : Nat) (x : Core) (m : Nat) : (s.setCore k x).isRetired m = s.isRetired m := rfl
@[simp] theorem State.setCore_servingShelf_read (k : Nat) (x : Core) (m : Nat) : (s.setCore k x).servingShelf m = s.servingShelf m := rfl
@[simp] theorem State.setCore_rdReg_read (k : Nat) (x : Core) (h : Reg) : rdReg (s.setCore k x) h = rdReg s h := rfl
@[simp] theorem State.setCore_getF_read (k : Nat) (x : Core) (h : Reg) (u w : Nat) : getF (s.setCore k x) h u w = getF s h u w := rfl
@[simp] theorem State.setCore_getB_read (k : Nat) (x : Core) (h : Reg) (u : Nat) : getB (s.setCore k x) h u = getB s h u := rfl

/-! ### modCore -/
@[simp] theorem State.modCore_pending (k : Nat) (f : Core → Core) : (s.modCore k f).pending = s.pending := rfl
@[simp] theorem State.modCore_outbox (k : Nat) (f : Core → Core) : (s.modCore k f).outbox = s.outbox := rfl
@[simp] theorem State.modCore_freeCtr (k : Nat) (f : Core → Core) : (s.modCore k f).freeCtr = s.freeCtr := rfl
@[simp] theorem State.modCore_tagCtr (k : Nat) (f : Core → Core) : (s.modCore k f).tagCtr = s.tagCtr := rfl
@[simp] theorem State.modCore_devtime (k : Nat) (f : Core → Core) : (s.modCore k f).devtime = s.devtime := rfl
@[simp] theorem State.modCore_regs (k : Nat) (f : Core → Core) : (s.modCore k f).regs = s.regs := rfl
@[simp] theorem State.modCore_mem (k : Nat) (f : Core → Core) : (s.modCore k f).mem = s.mem := rfl
@[simp] theorem State.modCore_ctags (k : Nat) (f : Core → Core) : (s.modCore k f).ctags = s.ctags := rfl
@[simp] theorem State.modCore_bad (k : Nat) (f : Core → Core) : (s.modCore k f).bad = s.bad := rfl
@[simp] theorem State.modCore_shelves (k : Nat) (f : Core → Core) : (s.modCore k f).shelves = s.shelves := rfl
@[simp] theorem State.modCore_ctxs (k : Nat) (f : Core → Core) : (s.modCore k f).ctxs = s.ctxs := rfl
@[simp] theorem State.modCore_links (k : Nat) (f : Core → Core) : (s.modCore k f).links = s.links := rfl
@[simp] theorem State.modCore_ports (k : Nat) (f : Core → Core) : (s.modCore k f).ports = s.ports := rfl
@[simp] theorem State.modCore_queues (k : Nat) (f : Core → Core) : (s.modCore k f).queues = s.queues := rfl
@[simp] theorem State.modCore_rings (k : Nat) (f : Core → Core) : (s.modCore k f).rings = s.rings := rfl
@[simp] theorem State.modCore_slotWrites (k : Nat) (f : Core → Core) : (s.modCore k f).slotWrites = s.slotWrites := rfl
@[simp] theorem State.modCore_evsrcs (k : Nat) (f : Core → Core) : (s.modCore k f).evsrcs = s.evsrcs := rfl
@[simp] theorem State.modCore_holdoff (k : Nat) (f : Core → Core) : (s.modCore k f).holdoff = s.holdoff := rfl
@[simp] theorem State.modCore_gops (k : Nat) (f : Core → Core) : (s.modCore k f).gops = s.gops := rfl
@[simp] theorem State.modCore_flue (k : Nat) (f : Core → Core) : (s.modCore k f).flue = s.flue := rfl
@[simp] theorem State.modCore_arrived (k : Nat) (f : Core → Core) : (s.modCore k f).arrived = s.arrived := rfl
@[simp] theorem State.modCore_returned (k : Nat) (f : Core → Core) : (s.modCore k f).returned = s.returned := rfl
@[simp] theorem State.modCore_granted (k : Nat) (f : Core → Core) : (s.modCore k f).granted = s.granted := rfl
@[simp] theorem State.modCore_routerBad (k : Nat) (f : Core → Core) : (s.modCore k f).routerBad = s.routerBad := rfl
@[simp] theorem State.modCore_retired (k : Nat) (f : Core → Core) : (s.modCore k f).retired = s.retired := rfl
@[simp] theorem State.modCore_linkAlt (k : Nat) (f : Core → Core) : (s.modCore k f).linkAlt = s.linkAlt := rfl
@[simp] theorem State.modCore_sys (k : Nat) (f : Core → Core) : (s.modCore k f).sys = s.sys := rfl
@[simp] theorem State.modCore_keyCmd (k : Nat) (f : Core → Core) : (s.modCore k f).keyCmd = s.keyCmd := rfl
@[simp] theorem State.modCore_tlbGone (k : Nat) (f : Core → Core) : (s.modCore k f).tlbGone = s.tlbGone := rfl
@[simp] theorem State.modCore_hpmapNew (k : Nat) (f : Core → Core) : (s.modCore k f).hpmapNew = s.hpmapNew := rfl
@[simp] theorem State.modCore_hpmapReply (k : Nat) (f : Core → Core) : (s.modCore k f).hpmapReply = s.hpmapReply := rfl
@[simp] theorem State.modCore_warden (k : Nat) (f : Core → Core) : (s.modCore k f).warden = s.warden := rfl
@[simp] theorem State.modCore_fuses (k : Nat) (f : Core → Core) : (s.modCore k f).fuses = s.fuses := rfl
@[simp] theorem State.modCore_power (k : Nat) (f : Core → Core) : (s.modCore k f).power = s.power := rfl
@[simp] theorem State.modCore_vexek (k : Nat) (f : Core → Core) : (s.modCore k f).vexek = s.vexek := rfl
@[simp] theorem State.modCore_shelf_read (k : Nat) (f : Core → Core) (m : Nat) : (s.modCore k f).shelf m = s.shelf m := rfl
@[simp] theorem State.modCore_ctx_read (k : Nat) (f : Core → Core) (m q : Nat) : (s.modCore k f).ctx m q = s.ctx m q := rfl
@[simp] theorem State.modCore_link_read (k : Nat) (f : Core → Core) (m : Nat) : (s.modCore k f).link m = s.link m := rfl
@[simp] theorem State.modCore_port_read (k : Nat) (f : Core → Core) (m : Nat) : (s.modCore k f).port m = s.port m := rfl
@[simp] theorem State.modCore_queue_read (k : Nat) (f : Core → Core) (m p : Nat) : (s.modCore k f).queue m p = s.queue m p := rfl
@[simp] theorem State.modCore_ring_read (k : Nat) (f : Core → Core) (m : Nat) : (s.modCore k f).ring m = s.ring m := rfl
@[simp] theorem State.modCore_gop_read (k : Nat) (f : Core → Core) (m : Nat) : (s.modCore k f).gop m = s.gop m := rfl
@[simp] theorem State.modCore_entry_read (k : Nat) (f : Core → Core) (m j : Nat) : (s.modCore k f).entry m j = s.entry m j := rfl
@[simp] theorem State.modCore_now_read (k : Nat) (f : Core → Core)  : (s.modCore k f).now = s.now := rfl
@[simp] theorem State.modCore_byte_read (k : Nat) (f : Core → Core) (m : Nat) : (s.modCore k f).byte m = s.byte m := rfl
@[simp] theorem State.modCore_isRetired_read (k : Nat) (f : Core → Core) (m : Nat) : (s.modCore k f).isRetired m = s.isRetired m := rfl
@[simp] theorem State.modCore_servingShelf_read (k : Nat) (f : Core → Core) (m : Nat) : (s.modCore k f).servingShelf m = s.servingShelf m := rfl
@[simp] theorem State.modCore_rdReg_read (k : Nat) (f : Core → Core) (h : Reg) : rdReg (s.modCore k f) h = rdReg s h := rfl
@[simp] theorem State.modCore_getF_read (k : Nat) (f : Core → Core) (h : Reg) (u w : Nat) : getF (s.modCore k f) h u w = getF s h u w := rfl
@[simp] theorem State.modCore_getB_read (k : Nat) (f : Core → Core) (h : Reg) (u : Nat) : getB (s.modCore k f) h u = getB s h u := rfl

/-! ### setCtx -/
@[simp] theorem State.setCtx_pending (k r : Nat) (x : Ctx) : (s.setCtx k r x).pending = s.pending := rfl
@[simp] theorem State.setCtx_outbox (k r : Nat) (x : Ctx) : (s.setCtx k r x).outbox = s.outbox := rfl
@[simp] theorem State.setCtx_freeCtr (k r : Nat) (x : Ctx) : (s.setCtx k r x).freeCtr = s.freeCtr := rfl
@[simp] theorem State.setCtx_tagCtr (k r : Nat) (x : Ctx) : (s.setCtx k r x).tagCtr = s.tagCtr := rfl
@[simp] theorem State.setCtx_devtime (k r : Nat) (x : Ctx) : (s.setCtx k r x).devtime = s.devtime := rfl
@[simp] theorem State.setCtx_regs (k r : Nat) (x : Ctx) : (s.setCtx k r x).regs = s.regs := rfl
@[simp] theorem State.setCtx_mem (k r : Nat) (x : Ctx) : (s.setCtx k r x).mem = s.mem := rfl
@[simp] theorem State.setCtx_ctags (k r : Nat) (x : Ctx) : (s.setCtx k r x).ctags = s.ctags := rfl
@[simp] theorem State.setCtx_bad (k r : Nat) (x : Ctx) : (s.setCtx k r x).bad = s.bad := rfl
@[simp] theorem State.setCtx_shelves (k r : Nat) (x : Ctx) : (s.setCtx k r x).shelves = s.shelves := rfl
@[simp] theorem State.setCtx_cores (k r : Nat) (x : Ctx) : (s.setCtx k r x).cores = s.cores := rfl
@[simp] theorem State.setCtx_links (k r : Nat) (x : Ctx) : (s.setCtx k r x).links = s.links := rfl
@[simp] theorem State.setCtx_ports (k r : Nat) (x : Ctx) : (s.setCtx k r x).ports = s.ports := rfl
@[simp] theorem State.setCtx_queues (k r : Nat) (x : Ctx) : (s.setCtx k r x).queues = s.queues := rfl
@[simp] theorem State.setCtx_rings (k r : Nat) (x : Ctx) : (s.setCtx k r x).rings = s.rings := rfl
@[simp] theorem State.setCtx_slotWrites (k r : Nat) (x : Ctx) : (s.setCtx k r x).slotWrites = s.slotWrites := rfl
@[simp] theorem State.setCtx_evsrcs (k r : Nat) (x : Ctx) : (s.setCtx k r x).evsrcs = s.evsrcs := rfl
@[simp] theorem State.setCtx_holdoff (k r : Nat) (x : Ctx) : (s.setCtx k r x).holdoff = s.holdoff := rfl
@[simp] theorem State.setCtx_gops (k r : Nat) (x : Ctx) : (s.setCtx k r x).gops = s.gops := rfl
@[simp] theorem State.setCtx_flue (k r : Nat) (x : Ctx) : (s.setCtx k r x).flue = s.flue := rfl
@[simp] theorem State.setCtx_arrived (k r : Nat) (x : Ctx) : (s.setCtx k r x).arrived = s.arrived := rfl
@[simp] theorem State.setCtx_returned (k r : Nat) (x : Ctx) : (s.setCtx k r x).returned = s.returned := rfl
@[simp] theorem State.setCtx_granted (k r : Nat) (x : Ctx) : (s.setCtx k r x).granted = s.granted := rfl
@[simp] theorem State.setCtx_routerBad (k r : Nat) (x : Ctx) : (s.setCtx k r x).routerBad = s.routerBad := rfl
@[simp] theorem State.setCtx_retired (k r : Nat) (x : Ctx) : (s.setCtx k r x).retired = s.retired := rfl
@[simp] theorem State.setCtx_linkAlt (k r : Nat) (x : Ctx) : (s.setCtx k r x).linkAlt = s.linkAlt := rfl
@[simp] theorem State.setCtx_sys (k r : Nat) (x : Ctx) : (s.setCtx k r x).sys = s.sys := rfl
@[simp] theorem State.setCtx_keyCmd (k r : Nat) (x : Ctx) : (s.setCtx k r x).keyCmd = s.keyCmd := rfl
@[simp] theorem State.setCtx_tlbGone (k r : Nat) (x : Ctx) : (s.setCtx k r x).tlbGone = s.tlbGone := rfl
@[simp] theorem State.setCtx_hpmapNew (k r : Nat) (x : Ctx) : (s.setCtx k r x).hpmapNew = s.hpmapNew := rfl
@[simp] theorem State.setCtx_hpmapReply (k r : Nat) (x : Ctx) : (s.setCtx k r x).hpmapReply = s.hpmapReply := rfl
@[simp] theorem State.setCtx_warden (k r : Nat) (x : Ctx) : (s.setCtx k r x).warden = s.warden := rfl
@[simp] theorem State.setCtx_fuses (k r : Nat) (x : Ctx) : (s.setCtx k r x).fuses = s.fuses := rfl
@[simp] theorem State.setCtx_power (k r : Nat) (x : Ctx) : (s.setCtx k r x).power = s.power := rfl
@[simp] theorem State.setCtx_vexek (k r : Nat) (x : Ctx) : (s.setCtx k r x).vexek = s.vexek := rfl
@[simp] theorem State.setCtx_shelf_read (k r : Nat) (x : Ctx) (m : Nat) : (s.setCtx k r x).shelf m = s.shelf m := rfl
@[simp] theorem State.setCtx_core_read (k r : Nat) (x : Ctx) (m : Nat) : (s.setCtx k r x).core m = s.core m := rfl
@[simp] theorem State.setCtx_link_read (k r : Nat) (x : Ctx) (m : Nat) : (s.setCtx k r x).link m = s.link m := rfl
@[simp] theorem State.setCtx_port_read (k r : Nat) (x : Ctx) (m : Nat) : (s.setCtx k r x).port m = s.port m := rfl
@[simp] theorem State.setCtx_queue_read (k r : Nat) (x : Ctx) (m p : Nat) : (s.setCtx k r x).queue m p = s.queue m p := rfl
@[simp] theorem State.setCtx_ring_read (k r : Nat) (x : Ctx) (m : Nat) : (s.setCtx k r x).ring m = s.ring m := rfl
@[simp] theorem State.setCtx_gop_read (k r : Nat) (x : Ctx) (m : Nat) : (s.setCtx k r x).gop m = s.gop m := rfl
@[simp] theorem State.setCtx_entry_read (k r : Nat) (x : Ctx) (m j : Nat) : (s.setCtx k r x).entry m j = s.entry m j := rfl
@[simp] theorem State.setCtx_now_read (k r : Nat) (x : Ctx)  : (s.setCtx k r x).now = s.now := rfl
@[simp] theorem State.setCtx_byte_read (k r : Nat) (x : Ctx) (m : Nat) : (s.setCtx k r x).byte m = s.byte m := rfl
@[simp] theorem State.setCtx_isRetired_read (k r : Nat) (x : Ctx) (m : Nat) : (s.setCtx k r x).isRetired m = s.isRetired m := rfl
@[simp] theorem State.setCtx_servingShelf_read (k r : Nat) (x : Ctx) (m : Nat) : (s.setCtx k r x).servingShelf m = s.servingShelf m := rfl
@[simp] theorem State.setCtx_rdReg_read (k r : Nat) (x : Ctx) (h : Reg) : rdReg (s.setCtx k r x) h = rdReg s h := rfl
@[simp] theorem State.setCtx_getF_read (k r : Nat) (x : Ctx) (h : Reg) (u w : Nat) : getF (s.setCtx k r x) h u w = getF s h u w := rfl
@[simp] theorem State.setCtx_getB_read (k r : Nat) (x : Ctx) (h : Reg) (u : Nat) : getB (s.setCtx k r x) h u = getB s h u := rfl

/-! ### modCtx -/
@[simp] theorem State.modCtx_pending (k r : Nat) (f : Ctx → Ctx) : (s.modCtx k r f).pending = s.pending := rfl
@[simp] theorem State.modCtx_outbox (k r : Nat) (f : Ctx → Ctx) : (s.modCtx k r f).outbox = s.outbox := rfl
@[simp] theorem State.modCtx_freeCtr (k r : Nat) (f : Ctx → Ctx) : (s.modCtx k r f).freeCtr = s.freeCtr := rfl
@[simp] theorem State.modCtx_tagCtr (k r : Nat) (f : Ctx → Ctx) : (s.modCtx k r f).tagCtr = s.tagCtr := rfl
@[simp] theorem State.modCtx_devtime (k r : Nat) (f : Ctx → Ctx) : (s.modCtx k r f).devtime = s.devtime := rfl
@[simp] theorem State.modCtx_regs (k r : Nat) (f : Ctx → Ctx) : (s.modCtx k r f).regs = s.regs := rfl
@[simp] theorem State.modCtx_mem (k r : Nat) (f : Ctx → Ctx) : (s.modCtx k r f).mem = s.mem := rfl
@[simp] theorem State.modCtx_ctags (k r : Nat) (f : Ctx → Ctx) : (s.modCtx k r f).ctags = s.ctags := rfl
@[simp] theorem State.modCtx_bad (k r : Nat) (f : Ctx → Ctx) : (s.modCtx k r f).bad = s.bad := rfl
@[simp] theorem State.modCtx_shelves (k r : Nat) (f : Ctx → Ctx) : (s.modCtx k r f).shelves = s.shelves := rfl
@[simp] theorem State.modCtx_cores (k r : Nat) (f : Ctx → Ctx) : (s.modCtx k r f).cores = s.cores := rfl
@[simp] theorem State.modCtx_links (k r : Nat) (f : Ctx → Ctx) : (s.modCtx k r f).links = s.links := rfl
@[simp] theorem State.modCtx_ports (k r : Nat) (f : Ctx → Ctx) : (s.modCtx k r f).ports = s.ports := rfl
@[simp] theorem State.modCtx_queues (k r : Nat) (f : Ctx → Ctx) : (s.modCtx k r f).queues = s.queues := rfl
@[simp] theorem State.modCtx_rings (k r : Nat) (f : Ctx → Ctx) : (s.modCtx k r f).rings = s.rings := rfl
@[simp] theorem State.modCtx_slotWrites (k r : Nat) (f : Ctx → Ctx) : (s.modCtx k r f).slotWrites = s.slotWrites := rfl
@[simp] theorem State.modCtx_evsrcs (k r : Nat) (f : Ctx → Ctx) : (s.modCtx k r f).evsrcs = s.evsrcs := rfl
@[simp] theorem State.modCtx_holdoff (k r : Nat) (f : Ctx → Ctx) : (s.modCtx k r f).holdoff = s.holdoff := rfl
@[simp] theorem State.modCtx_gops (k r : Nat) (f : Ctx → Ctx) : (s.modCtx k r f).gops = s.gops := rfl
@[simp] theorem State.modCtx_flue (k r : Nat) (f : Ctx → Ctx) : (s.modCtx k r f).flue = s.flue := rfl
@[simp] theorem State.modCtx_arrived (k r : Nat) (f : Ctx → Ctx) : (s.modCtx k r f).arrived = s.arrived := rfl
@[simp] theorem State.modCtx_returned (k r : Nat) (f : Ctx → Ctx) : (s.modCtx k r f).returned = s.returned := rfl
@[simp] theorem State.modCtx_granted (k r : Nat) (f : Ctx → Ctx) : (s.modCtx k r f).granted = s.granted := rfl
@[simp] theorem State.modCtx_routerBad (k r : Nat) (f : Ctx → Ctx) : (s.modCtx k r f).routerBad = s.routerBad := rfl
@[simp] theorem State.modCtx_retired (k r : Nat) (f : Ctx → Ctx) : (s.modCtx k r f).retired = s.retired := rfl
@[simp] theorem State.modCtx_linkAlt (k r : Nat) (f : Ctx → Ctx) : (s.modCtx k r f).linkAlt = s.linkAlt := rfl
@[simp] theorem State.modCtx_sys (k r : Nat) (f : Ctx → Ctx) : (s.modCtx k r f).sys = s.sys := rfl
@[simp] theorem State.modCtx_keyCmd (k r : Nat) (f : Ctx → Ctx) : (s.modCtx k r f).keyCmd = s.keyCmd := rfl
@[simp] theorem State.modCtx_tlbGone (k r : Nat) (f : Ctx → Ctx) : (s.modCtx k r f).tlbGone = s.tlbGone := rfl
@[simp] theorem State.modCtx_hpmapNew (k r : Nat) (f : Ctx → Ctx) : (s.modCtx k r f).hpmapNew = s.hpmapNew := rfl
@[simp] theorem State.modCtx_hpmapReply (k r : Nat) (f : Ctx → Ctx) : (s.modCtx k r f).hpmapReply = s.hpmapReply := rfl
@[simp] theorem State.modCtx_warden (k r : Nat) (f : Ctx → Ctx) : (s.modCtx k r f).warden = s.warden := rfl
@[simp] theorem State.modCtx_fuses (k r : Nat) (f : Ctx → Ctx) : (s.modCtx k r f).fuses = s.fuses := rfl
@[simp] theorem State.modCtx_power (k r : Nat) (f : Ctx → Ctx) : (s.modCtx k r f).power = s.power := rfl
@[simp] theorem State.modCtx_vexek (k r : Nat) (f : Ctx → Ctx) : (s.modCtx k r f).vexek = s.vexek := rfl
@[simp] theorem State.modCtx_shelf_read (k r : Nat) (f : Ctx → Ctx) (m : Nat) : (s.modCtx k r f).shelf m = s.shelf m := rfl
@[simp] theorem State.modCtx_core_read (k r : Nat) (f : Ctx → Ctx) (m : Nat) : (s.modCtx k r f).core m = s.core m := rfl
@[simp] theorem State.modCtx_link_read (k r : Nat) (f : Ctx → Ctx) (m : Nat) : (s.modCtx k r f).link m = s.link m := rfl
@[simp] theorem State.modCtx_port_read (k r : Nat) (f : Ctx → Ctx) (m : Nat) : (s.modCtx k r f).port m = s.port m := rfl
@[simp] theorem State.modCtx_queue_read (k r : Nat) (f : Ctx → Ctx) (m p : Nat) : (s.modCtx k r f).queue m p = s.queue m p := rfl
@[simp] theorem State.modCtx_ring_read (k r : Nat) (f : Ctx → Ctx) (m : Nat) : (s.modCtx k r f).ring m = s.ring m := rfl
@[simp] theorem State.modCtx_gop_read (k r : Nat) (f : Ctx → Ctx) (m : Nat) : (s.modCtx k r f).gop m = s.gop m := rfl
@[simp] theorem State.modCtx_entry_read (k r : Nat) (f : Ctx → Ctx) (m j : Nat) : (s.modCtx k r f).entry m j = s.entry m j := rfl
@[simp] theorem State.modCtx_now_read (k r : Nat) (f : Ctx → Ctx)  : (s.modCtx k r f).now = s.now := rfl
@[simp] theorem State.modCtx_byte_read (k r : Nat) (f : Ctx → Ctx) (m : Nat) : (s.modCtx k r f).byte m = s.byte m := rfl
@[simp] theorem State.modCtx_isRetired_read (k r : Nat) (f : Ctx → Ctx) (m : Nat) : (s.modCtx k r f).isRetired m = s.isRetired m := rfl
@[simp] theorem State.modCtx_servingShelf_read (k r : Nat) (f : Ctx → Ctx) (m : Nat) : (s.modCtx k r f).servingShelf m = s.servingShelf m := rfl
@[simp] theorem State.modCtx_rdReg_read (k r : Nat) (f : Ctx → Ctx) (h : Reg) : rdReg (s.modCtx k r f) h = rdReg s h := rfl
@[simp] theorem State.modCtx_getF_read (k r : Nat) (f : Ctx → Ctx) (h : Reg) (u w : Nat) : getF (s.modCtx k r f) h u w = getF s h u w := rfl
@[simp] theorem State.modCtx_getB_read (k r : Nat) (f : Ctx → Ctx) (h : Reg) (u : Nat) : getB (s.modCtx k r f) h u = getB s h u := rfl

/-! ### setLink -/
@[simp] theorem State.setLink_pending (l : Nat) (x : Link) : (s.setLink l x).pending = s.pending := rfl
@[simp] theorem State.setLink_outbox (l : Nat) (x : Link) : (s.setLink l x).outbox = s.outbox := rfl
@[simp] theorem State.setLink_freeCtr (l : Nat) (x : Link) : (s.setLink l x).freeCtr = s.freeCtr := rfl
@[simp] theorem State.setLink_tagCtr (l : Nat) (x : Link) : (s.setLink l x).tagCtr = s.tagCtr := rfl
@[simp] theorem State.setLink_devtime (l : Nat) (x : Link) : (s.setLink l x).devtime = s.devtime := rfl
@[simp] theorem State.setLink_regs (l : Nat) (x : Link) : (s.setLink l x).regs = s.regs := rfl
@[simp] theorem State.setLink_mem (l : Nat) (x : Link) : (s.setLink l x).mem = s.mem := rfl
@[simp] theorem State.setLink_ctags (l : Nat) (x : Link) : (s.setLink l x).ctags = s.ctags := rfl
@[simp] theorem State.setLink_bad (l : Nat) (x : Link) : (s.setLink l x).bad = s.bad := rfl
@[simp] theorem State.setLink_shelves (l : Nat) (x : Link) : (s.setLink l x).shelves = s.shelves := rfl
@[simp] theorem State.setLink_cores (l : Nat) (x : Link) : (s.setLink l x).cores = s.cores := rfl
@[simp] theorem State.setLink_ctxs (l : Nat) (x : Link) : (s.setLink l x).ctxs = s.ctxs := rfl
@[simp] theorem State.setLink_ports (l : Nat) (x : Link) : (s.setLink l x).ports = s.ports := rfl
@[simp] theorem State.setLink_queues (l : Nat) (x : Link) : (s.setLink l x).queues = s.queues := rfl
@[simp] theorem State.setLink_rings (l : Nat) (x : Link) : (s.setLink l x).rings = s.rings := rfl
@[simp] theorem State.setLink_slotWrites (l : Nat) (x : Link) : (s.setLink l x).slotWrites = s.slotWrites := rfl
@[simp] theorem State.setLink_evsrcs (l : Nat) (x : Link) : (s.setLink l x).evsrcs = s.evsrcs := rfl
@[simp] theorem State.setLink_holdoff (l : Nat) (x : Link) : (s.setLink l x).holdoff = s.holdoff := rfl
@[simp] theorem State.setLink_gops (l : Nat) (x : Link) : (s.setLink l x).gops = s.gops := rfl
@[simp] theorem State.setLink_flue (l : Nat) (x : Link) : (s.setLink l x).flue = s.flue := rfl
@[simp] theorem State.setLink_arrived (l : Nat) (x : Link) : (s.setLink l x).arrived = s.arrived := rfl
@[simp] theorem State.setLink_returned (l : Nat) (x : Link) : (s.setLink l x).returned = s.returned := rfl
@[simp] theorem State.setLink_granted (l : Nat) (x : Link) : (s.setLink l x).granted = s.granted := rfl
@[simp] theorem State.setLink_routerBad (l : Nat) (x : Link) : (s.setLink l x).routerBad = s.routerBad := rfl
@[simp] theorem State.setLink_retired (l : Nat) (x : Link) : (s.setLink l x).retired = s.retired := rfl
@[simp] theorem State.setLink_linkAlt (l : Nat) (x : Link) : (s.setLink l x).linkAlt = s.linkAlt := rfl
@[simp] theorem State.setLink_sys (l : Nat) (x : Link) : (s.setLink l x).sys = s.sys := rfl
@[simp] theorem State.setLink_keyCmd (l : Nat) (x : Link) : (s.setLink l x).keyCmd = s.keyCmd := rfl
@[simp] theorem State.setLink_tlbGone (l : Nat) (x : Link) : (s.setLink l x).tlbGone = s.tlbGone := rfl
@[simp] theorem State.setLink_hpmapNew (l : Nat) (x : Link) : (s.setLink l x).hpmapNew = s.hpmapNew := rfl
@[simp] theorem State.setLink_hpmapReply (l : Nat) (x : Link) : (s.setLink l x).hpmapReply = s.hpmapReply := rfl
@[simp] theorem State.setLink_warden (l : Nat) (x : Link) : (s.setLink l x).warden = s.warden := rfl
@[simp] theorem State.setLink_fuses (l : Nat) (x : Link) : (s.setLink l x).fuses = s.fuses := rfl
@[simp] theorem State.setLink_power (l : Nat) (x : Link) : (s.setLink l x).power = s.power := rfl
@[simp] theorem State.setLink_vexek (l : Nat) (x : Link) : (s.setLink l x).vexek = s.vexek := rfl
@[simp] theorem State.setLink_shelf_read (l : Nat) (x : Link) (m : Nat) : (s.setLink l x).shelf m = s.shelf m := rfl
@[simp] theorem State.setLink_core_read (l : Nat) (x : Link) (m : Nat) : (s.setLink l x).core m = s.core m := rfl
@[simp] theorem State.setLink_ctx_read (l : Nat) (x : Link) (m q : Nat) : (s.setLink l x).ctx m q = s.ctx m q := rfl
@[simp] theorem State.setLink_port_read (l : Nat) (x : Link) (m : Nat) : (s.setLink l x).port m = s.port m := rfl
@[simp] theorem State.setLink_queue_read (l : Nat) (x : Link) (m p : Nat) : (s.setLink l x).queue m p = s.queue m p := rfl
@[simp] theorem State.setLink_ring_read (l : Nat) (x : Link) (m : Nat) : (s.setLink l x).ring m = s.ring m := rfl
@[simp] theorem State.setLink_gop_read (l : Nat) (x : Link) (m : Nat) : (s.setLink l x).gop m = s.gop m := rfl
@[simp] theorem State.setLink_entry_read (l : Nat) (x : Link) (m j : Nat) : (s.setLink l x).entry m j = s.entry m j := rfl
@[simp] theorem State.setLink_now_read (l : Nat) (x : Link)  : (s.setLink l x).now = s.now := rfl
@[simp] theorem State.setLink_byte_read (l : Nat) (x : Link) (m : Nat) : (s.setLink l x).byte m = s.byte m := rfl
@[simp] theorem State.setLink_isRetired_read (l : Nat) (x : Link) (m : Nat) : (s.setLink l x).isRetired m = s.isRetired m := rfl
@[simp] theorem State.setLink_servingShelf_read (l : Nat) (x : Link) (m : Nat) : (s.setLink l x).servingShelf m = s.servingShelf m := rfl
@[simp] theorem State.setLink_rdReg_read (l : Nat) (x : Link) (h : Reg) : rdReg (s.setLink l x) h = rdReg s h := rfl
@[simp] theorem State.setLink_getF_read (l : Nat) (x : Link) (h : Reg) (u w : Nat) : getF (s.setLink l x) h u w = getF s h u w := rfl
@[simp] theorem State.setLink_getB_read (l : Nat) (x : Link) (h : Reg) (u : Nat) : getB (s.setLink l x) h u = getB s h u := rfl

/-! ### modLink -/
@[simp] theorem State.modLink_pending (l : Nat) (f : Link → Link) : (s.modLink l f).pending = s.pending := rfl
@[simp] theorem State.modLink_outbox (l : Nat) (f : Link → Link) : (s.modLink l f).outbox = s.outbox := rfl
@[simp] theorem State.modLink_freeCtr (l : Nat) (f : Link → Link) : (s.modLink l f).freeCtr = s.freeCtr := rfl
@[simp] theorem State.modLink_tagCtr (l : Nat) (f : Link → Link) : (s.modLink l f).tagCtr = s.tagCtr := rfl
@[simp] theorem State.modLink_devtime (l : Nat) (f : Link → Link) : (s.modLink l f).devtime = s.devtime := rfl
@[simp] theorem State.modLink_regs (l : Nat) (f : Link → Link) : (s.modLink l f).regs = s.regs := rfl
@[simp] theorem State.modLink_mem (l : Nat) (f : Link → Link) : (s.modLink l f).mem = s.mem := rfl
@[simp] theorem State.modLink_ctags (l : Nat) (f : Link → Link) : (s.modLink l f).ctags = s.ctags := rfl
@[simp] theorem State.modLink_bad (l : Nat) (f : Link → Link) : (s.modLink l f).bad = s.bad := rfl
@[simp] theorem State.modLink_shelves (l : Nat) (f : Link → Link) : (s.modLink l f).shelves = s.shelves := rfl
@[simp] theorem State.modLink_cores (l : Nat) (f : Link → Link) : (s.modLink l f).cores = s.cores := rfl
@[simp] theorem State.modLink_ctxs (l : Nat) (f : Link → Link) : (s.modLink l f).ctxs = s.ctxs := rfl
@[simp] theorem State.modLink_ports (l : Nat) (f : Link → Link) : (s.modLink l f).ports = s.ports := rfl
@[simp] theorem State.modLink_queues (l : Nat) (f : Link → Link) : (s.modLink l f).queues = s.queues := rfl
@[simp] theorem State.modLink_rings (l : Nat) (f : Link → Link) : (s.modLink l f).rings = s.rings := rfl
@[simp] theorem State.modLink_slotWrites (l : Nat) (f : Link → Link) : (s.modLink l f).slotWrites = s.slotWrites := rfl
@[simp] theorem State.modLink_evsrcs (l : Nat) (f : Link → Link) : (s.modLink l f).evsrcs = s.evsrcs := rfl
@[simp] theorem State.modLink_holdoff (l : Nat) (f : Link → Link) : (s.modLink l f).holdoff = s.holdoff := rfl
@[simp] theorem State.modLink_gops (l : Nat) (f : Link → Link) : (s.modLink l f).gops = s.gops := rfl
@[simp] theorem State.modLink_flue (l : Nat) (f : Link → Link) : (s.modLink l f).flue = s.flue := rfl
@[simp] theorem State.modLink_arrived (l : Nat) (f : Link → Link) : (s.modLink l f).arrived = s.arrived := rfl
@[simp] theorem State.modLink_returned (l : Nat) (f : Link → Link) : (s.modLink l f).returned = s.returned := rfl
@[simp] theorem State.modLink_granted (l : Nat) (f : Link → Link) : (s.modLink l f).granted = s.granted := rfl
@[simp] theorem State.modLink_routerBad (l : Nat) (f : Link → Link) : (s.modLink l f).routerBad = s.routerBad := rfl
@[simp] theorem State.modLink_retired (l : Nat) (f : Link → Link) : (s.modLink l f).retired = s.retired := rfl
@[simp] theorem State.modLink_linkAlt (l : Nat) (f : Link → Link) : (s.modLink l f).linkAlt = s.linkAlt := rfl
@[simp] theorem State.modLink_sys (l : Nat) (f : Link → Link) : (s.modLink l f).sys = s.sys := rfl
@[simp] theorem State.modLink_keyCmd (l : Nat) (f : Link → Link) : (s.modLink l f).keyCmd = s.keyCmd := rfl
@[simp] theorem State.modLink_tlbGone (l : Nat) (f : Link → Link) : (s.modLink l f).tlbGone = s.tlbGone := rfl
@[simp] theorem State.modLink_hpmapNew (l : Nat) (f : Link → Link) : (s.modLink l f).hpmapNew = s.hpmapNew := rfl
@[simp] theorem State.modLink_hpmapReply (l : Nat) (f : Link → Link) : (s.modLink l f).hpmapReply = s.hpmapReply := rfl
@[simp] theorem State.modLink_warden (l : Nat) (f : Link → Link) : (s.modLink l f).warden = s.warden := rfl
@[simp] theorem State.modLink_fuses (l : Nat) (f : Link → Link) : (s.modLink l f).fuses = s.fuses := rfl
@[simp] theorem State.modLink_power (l : Nat) (f : Link → Link) : (s.modLink l f).power = s.power := rfl
@[simp] theorem State.modLink_vexek (l : Nat) (f : Link → Link) : (s.modLink l f).vexek = s.vexek := rfl
@[simp] theorem State.modLink_shelf_read (l : Nat) (f : Link → Link) (m : Nat) : (s.modLink l f).shelf m = s.shelf m := rfl
@[simp] theorem State.modLink_core_read (l : Nat) (f : Link → Link) (m : Nat) : (s.modLink l f).core m = s.core m := rfl
@[simp] theorem State.modLink_ctx_read (l : Nat) (f : Link → Link) (m q : Nat) : (s.modLink l f).ctx m q = s.ctx m q := rfl
@[simp] theorem State.modLink_port_read (l : Nat) (f : Link → Link) (m : Nat) : (s.modLink l f).port m = s.port m := rfl
@[simp] theorem State.modLink_queue_read (l : Nat) (f : Link → Link) (m p : Nat) : (s.modLink l f).queue m p = s.queue m p := rfl
@[simp] theorem State.modLink_ring_read (l : Nat) (f : Link → Link) (m : Nat) : (s.modLink l f).ring m = s.ring m := rfl
@[simp] theorem State.modLink_gop_read (l : Nat) (f : Link → Link) (m : Nat) : (s.modLink l f).gop m = s.gop m := rfl
@[simp] theorem State.modLink_entry_read (l : Nat) (f : Link → Link) (m j : Nat) : (s.modLink l f).entry m j = s.entry m j := rfl
@[simp] theorem State.modLink_now_read (l : Nat) (f : Link → Link)  : (s.modLink l f).now = s.now := rfl
@[simp] theorem State.modLink_byte_read (l : Nat) (f : Link → Link) (m : Nat) : (s.modLink l f).byte m = s.byte m := rfl
@[simp] theorem State.modLink_isRetired_read (l : Nat) (f : Link → Link) (m : Nat) : (s.modLink l f).isRetired m = s.isRetired m := rfl
@[simp] theorem State.modLink_servingShelf_read (l : Nat) (f : Link → Link) (m : Nat) : (s.modLink l f).servingShelf m = s.servingShelf m := rfl
@[simp] theorem State.modLink_rdReg_read (l : Nat) (f : Link → Link) (h : Reg) : rdReg (s.modLink l f) h = rdReg s h := rfl
@[simp] theorem State.modLink_getF_read (l : Nat) (f : Link → Link) (h : Reg) (u w : Nat) : getF (s.modLink l f) h u w = getF s h u w := rfl
@[simp] theorem State.modLink_getB_read (l : Nat) (f : Link → Link) (h : Reg) (u : Nat) : getB (s.modLink l f) h u = getB s h u := rfl

/-! ### setPort -/
@[simp] theorem State.setPort_pending (p : Nat) (x : Port) : (s.setPort p x).pending = s.pending := rfl
@[simp] theorem State.setPort_outbox (p : Nat) (x : Port) : (s.setPort p x).outbox = s.outbox := rfl
@[simp] theorem State.setPort_freeCtr (p : Nat) (x : Port) : (s.setPort p x).freeCtr = s.freeCtr := rfl
@[simp] theorem State.setPort_tagCtr (p : Nat) (x : Port) : (s.setPort p x).tagCtr = s.tagCtr := rfl
@[simp] theorem State.setPort_devtime (p : Nat) (x : Port) : (s.setPort p x).devtime = s.devtime := rfl
@[simp] theorem State.setPort_regs (p : Nat) (x : Port) : (s.setPort p x).regs = s.regs := rfl
@[simp] theorem State.setPort_mem (p : Nat) (x : Port) : (s.setPort p x).mem = s.mem := rfl
@[simp] theorem State.setPort_ctags (p : Nat) (x : Port) : (s.setPort p x).ctags = s.ctags := rfl
@[simp] theorem State.setPort_bad (p : Nat) (x : Port) : (s.setPort p x).bad = s.bad := rfl
@[simp] theorem State.setPort_shelves (p : Nat) (x : Port) : (s.setPort p x).shelves = s.shelves := rfl
@[simp] theorem State.setPort_cores (p : Nat) (x : Port) : (s.setPort p x).cores = s.cores := rfl
@[simp] theorem State.setPort_ctxs (p : Nat) (x : Port) : (s.setPort p x).ctxs = s.ctxs := rfl
@[simp] theorem State.setPort_links (p : Nat) (x : Port) : (s.setPort p x).links = s.links := rfl
@[simp] theorem State.setPort_queues (p : Nat) (x : Port) : (s.setPort p x).queues = s.queues := rfl
@[simp] theorem State.setPort_rings (p : Nat) (x : Port) : (s.setPort p x).rings = s.rings := rfl
@[simp] theorem State.setPort_slotWrites (p : Nat) (x : Port) : (s.setPort p x).slotWrites = s.slotWrites := rfl
@[simp] theorem State.setPort_evsrcs (p : Nat) (x : Port) : (s.setPort p x).evsrcs = s.evsrcs := rfl
@[simp] theorem State.setPort_holdoff (p : Nat) (x : Port) : (s.setPort p x).holdoff = s.holdoff := rfl
@[simp] theorem State.setPort_gops (p : Nat) (x : Port) : (s.setPort p x).gops = s.gops := rfl
@[simp] theorem State.setPort_flue (p : Nat) (x : Port) : (s.setPort p x).flue = s.flue := rfl
@[simp] theorem State.setPort_arrived (p : Nat) (x : Port) : (s.setPort p x).arrived = s.arrived := rfl
@[simp] theorem State.setPort_returned (p : Nat) (x : Port) : (s.setPort p x).returned = s.returned := rfl
@[simp] theorem State.setPort_granted (p : Nat) (x : Port) : (s.setPort p x).granted = s.granted := rfl
@[simp] theorem State.setPort_routerBad (p : Nat) (x : Port) : (s.setPort p x).routerBad = s.routerBad := rfl
@[simp] theorem State.setPort_retired (p : Nat) (x : Port) : (s.setPort p x).retired = s.retired := rfl
@[simp] theorem State.setPort_linkAlt (p : Nat) (x : Port) : (s.setPort p x).linkAlt = s.linkAlt := rfl
@[simp] theorem State.setPort_sys (p : Nat) (x : Port) : (s.setPort p x).sys = s.sys := rfl
@[simp] theorem State.setPort_keyCmd (p : Nat) (x : Port) : (s.setPort p x).keyCmd = s.keyCmd := rfl
@[simp] theorem State.setPort_tlbGone (p : Nat) (x : Port) : (s.setPort p x).tlbGone = s.tlbGone := rfl
@[simp] theorem State.setPort_hpmapNew (p : Nat) (x : Port) : (s.setPort p x).hpmapNew = s.hpmapNew := rfl
@[simp] theorem State.setPort_hpmapReply (p : Nat) (x : Port) : (s.setPort p x).hpmapReply = s.hpmapReply := rfl
@[simp] theorem State.setPort_warden (p : Nat) (x : Port) : (s.setPort p x).warden = s.warden := rfl
@[simp] theorem State.setPort_fuses (p : Nat) (x : Port) : (s.setPort p x).fuses = s.fuses := rfl
@[simp] theorem State.setPort_power (p : Nat) (x : Port) : (s.setPort p x).power = s.power := rfl
@[simp] theorem State.setPort_vexek (p : Nat) (x : Port) : (s.setPort p x).vexek = s.vexek := rfl
@[simp] theorem State.setPort_shelf_read (p : Nat) (x : Port) (m : Nat) : (s.setPort p x).shelf m = s.shelf m := rfl
@[simp] theorem State.setPort_core_read (p : Nat) (x : Port) (m : Nat) : (s.setPort p x).core m = s.core m := rfl
@[simp] theorem State.setPort_ctx_read (p : Nat) (x : Port) (m q : Nat) : (s.setPort p x).ctx m q = s.ctx m q := rfl
@[simp] theorem State.setPort_link_read (p : Nat) (x : Port) (m : Nat) : (s.setPort p x).link m = s.link m := rfl
@[simp] theorem State.setPort_queue_read (p : Nat) (x : Port) (m p : Nat) : (s.setPort p x).queue m p = s.queue m p := rfl
@[simp] theorem State.setPort_ring_read (p : Nat) (x : Port) (m : Nat) : (s.setPort p x).ring m = s.ring m := rfl
@[simp] theorem State.setPort_gop_read (p : Nat) (x : Port) (m : Nat) : (s.setPort p x).gop m = s.gop m := rfl
@[simp] theorem State.setPort_entry_read (p : Nat) (x : Port) (m j : Nat) : (s.setPort p x).entry m j = s.entry m j := rfl
@[simp] theorem State.setPort_now_read (p : Nat) (x : Port)  : (s.setPort p x).now = s.now := rfl
@[simp] theorem State.setPort_byte_read (p : Nat) (x : Port) (m : Nat) : (s.setPort p x).byte m = s.byte m := rfl
@[simp] theorem State.setPort_isRetired_read (p : Nat) (x : Port) (m : Nat) : (s.setPort p x).isRetired m = s.isRetired m := rfl
@[simp] theorem State.setPort_servingShelf_read (p : Nat) (x : Port) (m : Nat) : (s.setPort p x).servingShelf m = s.servingShelf m := rfl
@[simp] theorem State.setPort_rdReg_read (p : Nat) (x : Port) (h : Reg) : rdReg (s.setPort p x) h = rdReg s h := rfl
@[simp] theorem State.setPort_getF_read (p : Nat) (x : Port) (h : Reg) (u w : Nat) : getF (s.setPort p x) h u w = getF s h u w := rfl
@[simp] theorem State.setPort_getB_read (p : Nat) (x : Port) (h : Reg) (u : Nat) : getB (s.setPort p x) h u = getB s h u := rfl

/-! ### modPort -/
@[simp] theorem State.modPort_pending (p : Nat) (f : Port → Port) : (s.modPort p f).pending = s.pending := rfl
@[simp] theorem State.modPort_outbox (p : Nat) (f : Port → Port) : (s.modPort p f).outbox = s.outbox := rfl
@[simp] theorem State.modPort_freeCtr (p : Nat) (f : Port → Port) : (s.modPort p f).freeCtr = s.freeCtr := rfl
@[simp] theorem State.modPort_tagCtr (p : Nat) (f : Port → Port) : (s.modPort p f).tagCtr = s.tagCtr := rfl
@[simp] theorem State.modPort_devtime (p : Nat) (f : Port → Port) : (s.modPort p f).devtime = s.devtime := rfl
@[simp] theorem State.modPort_regs (p : Nat) (f : Port → Port) : (s.modPort p f).regs = s.regs := rfl
@[simp] theorem State.modPort_mem (p : Nat) (f : Port → Port) : (s.modPort p f).mem = s.mem := rfl
@[simp] theorem State.modPort_ctags (p : Nat) (f : Port → Port) : (s.modPort p f).ctags = s.ctags := rfl
@[simp] theorem State.modPort_bad (p : Nat) (f : Port → Port) : (s.modPort p f).bad = s.bad := rfl
@[simp] theorem State.modPort_shelves (p : Nat) (f : Port → Port) : (s.modPort p f).shelves = s.shelves := rfl
@[simp] theorem State.modPort_cores (p : Nat) (f : Port → Port) : (s.modPort p f).cores = s.cores := rfl
@[simp] theorem State.modPort_ctxs (p : Nat) (f : Port → Port) : (s.modPort p f).ctxs = s.ctxs := rfl
@[simp] theorem State.modPort_links (p : Nat) (f : Port → Port) : (s.modPort p f).links = s.links := rfl
@[simp] theorem State.modPort_queues (p : Nat) (f : Port → Port) : (s.modPort p f).queues = s.queues := rfl
@[simp] theorem State.modPort_rings (p : Nat) (f : Port → Port) : (s.modPort p f).rings = s.rings := rfl
@[simp] theorem State.modPort_slotWrites (p : Nat) (f : Port → Port) : (s.modPort p f).slotWrites = s.slotWrites := rfl
@[simp] theorem State.modPort_evsrcs (p : Nat) (f : Port → Port) : (s.modPort p f).evsrcs = s.evsrcs := rfl
@[simp] theorem State.modPort_holdoff (p : Nat) (f : Port → Port) : (s.modPort p f).holdoff = s.holdoff := rfl
@[simp] theorem State.modPort_gops (p : Nat) (f : Port → Port) : (s.modPort p f).gops = s.gops := rfl
@[simp] theorem State.modPort_flue (p : Nat) (f : Port → Port) : (s.modPort p f).flue = s.flue := rfl
@[simp] theorem State.modPort_arrived (p : Nat) (f : Port → Port) : (s.modPort p f).arrived = s.arrived := rfl
@[simp] theorem State.modPort_returned (p : Nat) (f : Port → Port) : (s.modPort p f).returned = s.returned := rfl
@[simp] theorem State.modPort_granted (p : Nat) (f : Port → Port) : (s.modPort p f).granted = s.granted := rfl
@[simp] theorem State.modPort_routerBad (p : Nat) (f : Port → Port) : (s.modPort p f).routerBad = s.routerBad := rfl
@[simp] theorem State.modPort_retired (p : Nat) (f : Port → Port) : (s.modPort p f).retired = s.retired := rfl
@[simp] theorem State.modPort_linkAlt (p : Nat) (f : Port → Port) : (s.modPort p f).linkAlt = s.linkAlt := rfl
@[simp] theorem State.modPort_sys (p : Nat) (f : Port → Port) : (s.modPort p f).sys = s.sys := rfl
@[simp] theorem State.modPort_keyCmd (p : Nat) (f : Port → Port) : (s.modPort p f).keyCmd = s.keyCmd := rfl
@[simp] theorem State.modPort_tlbGone (p : Nat) (f : Port → Port) : (s.modPort p f).tlbGone = s.tlbGone := rfl
@[simp] theorem State.modPort_hpmapNew (p : Nat) (f : Port → Port) : (s.modPort p f).hpmapNew = s.hpmapNew := rfl
@[simp] theorem State.modPort_hpmapReply (p : Nat) (f : Port → Port) : (s.modPort p f).hpmapReply = s.hpmapReply := rfl
@[simp] theorem State.modPort_warden (p : Nat) (f : Port → Port) : (s.modPort p f).warden = s.warden := rfl
@[simp] theorem State.modPort_fuses (p : Nat) (f : Port → Port) : (s.modPort p f).fuses = s.fuses := rfl
@[simp] theorem State.modPort_power (p : Nat) (f : Port → Port) : (s.modPort p f).power = s.power := rfl
@[simp] theorem State.modPort_vexek (p : Nat) (f : Port → Port) : (s.modPort p f).vexek = s.vexek := rfl
@[simp] theorem State.modPort_shelf_read (p : Nat) (f : Port → Port) (m : Nat) : (s.modPort p f).shelf m = s.shelf m := rfl
@[simp] theorem State.modPort_core_read (p : Nat) (f : Port → Port) (m : Nat) : (s.modPort p f).core m = s.core m := rfl
@[simp] theorem State.modPort_ctx_read (p : Nat) (f : Port → Port) (m q : Nat) : (s.modPort p f).ctx m q = s.ctx m q := rfl
@[simp] theorem State.modPort_link_read (p : Nat) (f : Port → Port) (m : Nat) : (s.modPort p f).link m = s.link m := rfl
@[simp] theorem State.modPort_queue_read (p : Nat) (f : Port → Port) (m p : Nat) : (s.modPort p f).queue m p = s.queue m p := rfl
@[simp] theorem State.modPort_ring_read (p : Nat) (f : Port → Port) (m : Nat) : (s.modPort p f).ring m = s.ring m := rfl
@[simp] theorem State.modPort_gop_read (p : Nat) (f : Port → Port) (m : Nat) : (s.modPort p f).gop m = s.gop m := rfl
@[simp] theorem State.modPort_entry_read (p : Nat) (f : Port → Port) (m j : Nat) : (s.modPort p f).entry m j = s.entry m j := rfl
@[simp] theorem State.modPort_now_read (p : Nat) (f : Port → Port)  : (s.modPort p f).now = s.now := rfl
@[simp] theorem State.modPort_byte_read (p : Nat) (f : Port → Port) (m : Nat) : (s.modPort p f).byte m = s.byte m := rfl
@[simp] theorem State.modPort_isRetired_read (p : Nat) (f : Port → Port) (m : Nat) : (s.modPort p f).isRetired m = s.isRetired m := rfl
@[simp] theorem State.modPort_servingShelf_read (p : Nat) (f : Port → Port) (m : Nat) : (s.modPort p f).servingShelf m = s.servingShelf m := rfl
@[simp] theorem State.modPort_rdReg_read (p : Nat) (f : Port → Port) (h : Reg) : rdReg (s.modPort p f) h = rdReg s h := rfl
@[simp] theorem State.modPort_getF_read (p : Nat) (f : Port → Port) (h : Reg) (u w : Nat) : getF (s.modPort p f) h u w = getF s h u w := rfl
@[simp] theorem State.modPort_getB_read (p : Nat) (f : Port → Port) (h : Reg) (u : Nat) : getB (s.modPort p f) h u = getB s h u := rfl

/-! ### setQueue -/
@[simp] theorem State.setQueue_pending (n q : Nat) (x : Queue) : (s.setQueue n q x).pending = s.pending := rfl
@[simp] theorem State.setQueue_outbox (n q : Nat) (x : Queue) : (s.setQueue n q x).outbox = s.outbox := rfl
@[simp] theorem State.setQueue_freeCtr (n q : Nat) (x : Queue) : (s.setQueue n q x).freeCtr = s.freeCtr := rfl
@[simp] theorem State.setQueue_tagCtr (n q : Nat) (x : Queue) : (s.setQueue n q x).tagCtr = s.tagCtr := rfl
@[simp] theorem State.setQueue_devtime (n q : Nat) (x : Queue) : (s.setQueue n q x).devtime = s.devtime := rfl
@[simp] theorem State.setQueue_regs (n q : Nat) (x : Queue) : (s.setQueue n q x).regs = s.regs := rfl
@[simp] theorem State.setQueue_mem (n q : Nat) (x : Queue) : (s.setQueue n q x).mem = s.mem := rfl
@[simp] theorem State.setQueue_ctags (n q : Nat) (x : Queue) : (s.setQueue n q x).ctags = s.ctags := rfl
@[simp] theorem State.setQueue_bad (n q : Nat) (x : Queue) : (s.setQueue n q x).bad = s.bad := rfl
@[simp] theorem State.setQueue_shelves (n q : Nat) (x : Queue) : (s.setQueue n q x).shelves = s.shelves := rfl
@[simp] theorem State.setQueue_cores (n q : Nat) (x : Queue) : (s.setQueue n q x).cores = s.cores := rfl
@[simp] theorem State.setQueue_ctxs (n q : Nat) (x : Queue) : (s.setQueue n q x).ctxs = s.ctxs := rfl
@[simp] theorem State.setQueue_links (n q : Nat) (x : Queue) : (s.setQueue n q x).links = s.links := rfl
@[simp] theorem State.setQueue_ports (n q : Nat) (x : Queue) : (s.setQueue n q x).ports = s.ports := rfl
@[simp] theorem State.setQueue_rings (n q : Nat) (x : Queue) : (s.setQueue n q x).rings = s.rings := rfl
@[simp] theorem State.setQueue_slotWrites (n q : Nat) (x : Queue) : (s.setQueue n q x).slotWrites = s.slotWrites := rfl
@[simp] theorem State.setQueue_evsrcs (n q : Nat) (x : Queue) : (s.setQueue n q x).evsrcs = s.evsrcs := rfl
@[simp] theorem State.setQueue_holdoff (n q : Nat) (x : Queue) : (s.setQueue n q x).holdoff = s.holdoff := rfl
@[simp] theorem State.setQueue_gops (n q : Nat) (x : Queue) : (s.setQueue n q x).gops = s.gops := rfl
@[simp] theorem State.setQueue_flue (n q : Nat) (x : Queue) : (s.setQueue n q x).flue = s.flue := rfl
@[simp] theorem State.setQueue_arrived (n q : Nat) (x : Queue) : (s.setQueue n q x).arrived = s.arrived := rfl
@[simp] theorem State.setQueue_returned (n q : Nat) (x : Queue) : (s.setQueue n q x).returned = s.returned := rfl
@[simp] theorem State.setQueue_granted (n q : Nat) (x : Queue) : (s.setQueue n q x).granted = s.granted := rfl
@[simp] theorem State.setQueue_routerBad (n q : Nat) (x : Queue) : (s.setQueue n q x).routerBad = s.routerBad := rfl
@[simp] theorem State.setQueue_retired (n q : Nat) (x : Queue) : (s.setQueue n q x).retired = s.retired := rfl
@[simp] theorem State.setQueue_linkAlt (n q : Nat) (x : Queue) : (s.setQueue n q x).linkAlt = s.linkAlt := rfl
@[simp] theorem State.setQueue_sys (n q : Nat) (x : Queue) : (s.setQueue n q x).sys = s.sys := rfl
@[simp] theorem State.setQueue_keyCmd (n q : Nat) (x : Queue) : (s.setQueue n q x).keyCmd = s.keyCmd := rfl
@[simp] theorem State.setQueue_tlbGone (n q : Nat) (x : Queue) : (s.setQueue n q x).tlbGone = s.tlbGone := rfl
@[simp] theorem State.setQueue_hpmapNew (n q : Nat) (x : Queue) : (s.setQueue n q x).hpmapNew = s.hpmapNew := rfl
@[simp] theorem State.setQueue_hpmapReply (n q : Nat) (x : Queue) : (s.setQueue n q x).hpmapReply = s.hpmapReply := rfl
@[simp] theorem State.setQueue_warden (n q : Nat) (x : Queue) : (s.setQueue n q x).warden = s.warden := rfl
@[simp] theorem State.setQueue_fuses (n q : Nat) (x : Queue) : (s.setQueue n q x).fuses = s.fuses := rfl
@[simp] theorem State.setQueue_power (n q : Nat) (x : Queue) : (s.setQueue n q x).power = s.power := rfl
@[simp] theorem State.setQueue_vexek (n q : Nat) (x : Queue) : (s.setQueue n q x).vexek = s.vexek := rfl
@[simp] theorem State.setQueue_shelf_read (n q : Nat) (x : Queue) (m : Nat) : (s.setQueue n q x).shelf m = s.shelf m := rfl
@[simp] theorem State.setQueue_core_read (n q : Nat) (x : Queue) (m : Nat) : (s.setQueue n q x).core m = s.core m := rfl
@[simp] theorem State.setQueue_ctx_read (n q : Nat) (x : Queue) (m q : Nat) : (s.setQueue n q x).ctx m q = s.ctx m q := rfl
@[simp] theorem State.setQueue_link_read (n q : Nat) (x : Queue) (m : Nat) : (s.setQueue n q x).link m = s.link m := rfl
@[simp] theorem State.setQueue_port_read (n q : Nat) (x : Queue) (m : Nat) : (s.setQueue n q x).port m = s.port m := rfl
@[simp] theorem State.setQueue_ring_read (n q : Nat) (x : Queue) (m : Nat) : (s.setQueue n q x).ring m = s.ring m := rfl
@[simp] theorem State.setQueue_gop_read (n q : Nat) (x : Queue) (m : Nat) : (s.setQueue n q x).gop m = s.gop m := rfl
@[simp] theorem State.setQueue_entry_read (n q : Nat) (x : Queue) (m j : Nat) : (s.setQueue n q x).entry m j = s.entry m j := rfl
@[simp] theorem State.setQueue_now_read (n q : Nat) (x : Queue)  : (s.setQueue n q x).now = s.now := rfl
@[simp] theorem State.setQueue_byte_read (n q : Nat) (x : Queue) (m : Nat) : (s.setQueue n q x).byte m = s.byte m := rfl
@[simp] theorem State.setQueue_isRetired_read (n q : Nat) (x : Queue) (m : Nat) : (s.setQueue n q x).isRetired m = s.isRetired m := rfl
@[simp] theorem State.setQueue_servingShelf_read (n q : Nat) (x : Queue) (m : Nat) : (s.setQueue n q x).servingShelf m = s.servingShelf m := rfl
@[simp] theorem State.setQueue_rdReg_read (n q : Nat) (x : Queue) (h : Reg) : rdReg (s.setQueue n q x) h = rdReg s h := rfl
@[simp] theorem State.setQueue_getF_read (n q : Nat) (x : Queue) (h : Reg) (u w : Nat) : getF (s.setQueue n q x) h u w = getF s h u w := rfl
@[simp] theorem State.setQueue_getB_read (n q : Nat) (x : Queue) (h : Reg) (u : Nat) : getB (s.setQueue n q x) h u = getB s h u := rfl

/-! ### modQueue -/
@[simp] theorem State.modQueue_pending (n q : Nat) (f : Queue → Queue) : (s.modQueue n q f).pending = s.pending := rfl
@[simp] theorem State.modQueue_outbox (n q : Nat) (f : Queue → Queue) : (s.modQueue n q f).outbox = s.outbox := rfl
@[simp] theorem State.modQueue_freeCtr (n q : Nat) (f : Queue → Queue) : (s.modQueue n q f).freeCtr = s.freeCtr := rfl
@[simp] theorem State.modQueue_tagCtr (n q : Nat) (f : Queue → Queue) : (s.modQueue n q f).tagCtr = s.tagCtr := rfl
@[simp] theorem State.modQueue_devtime (n q : Nat) (f : Queue → Queue) : (s.modQueue n q f).devtime = s.devtime := rfl
@[simp] theorem State.modQueue_regs (n q : Nat) (f : Queue → Queue) : (s.modQueue n q f).regs = s.regs := rfl
@[simp] theorem State.modQueue_mem (n q : Nat) (f : Queue → Queue) : (s.modQueue n q f).mem = s.mem := rfl
@[simp] theorem State.modQueue_ctags (n q : Nat) (f : Queue → Queue) : (s.modQueue n q f).ctags = s.ctags := rfl
@[simp] theorem State.modQueue_bad (n q : Nat) (f : Queue → Queue) : (s.modQueue n q f).bad = s.bad := rfl
@[simp] theorem State.modQueue_shelves (n q : Nat) (f : Queue → Queue) : (s.modQueue n q f).shelves = s.shelves := rfl
@[simp] theorem State.modQueue_cores (n q : Nat) (f : Queue → Queue) : (s.modQueue n q f).cores = s.cores := rfl
@[simp] theorem State.modQueue_ctxs (n q : Nat) (f : Queue → Queue) : (s.modQueue n q f).ctxs = s.ctxs := rfl
@[simp] theorem State.modQueue_links (n q : Nat) (f : Queue → Queue) : (s.modQueue n q f).links = s.links := rfl
@[simp] theorem State.modQueue_ports (n q : Nat) (f : Queue → Queue) : (s.modQueue n q f).ports = s.ports := rfl
@[simp] theorem State.modQueue_rings (n q : Nat) (f : Queue → Queue) : (s.modQueue n q f).rings = s.rings := rfl
@[simp] theorem State.modQueue_slotWrites (n q : Nat) (f : Queue → Queue) : (s.modQueue n q f).slotWrites = s.slotWrites := rfl
@[simp] theorem State.modQueue_evsrcs (n q : Nat) (f : Queue → Queue) : (s.modQueue n q f).evsrcs = s.evsrcs := rfl
@[simp] theorem State.modQueue_holdoff (n q : Nat) (f : Queue → Queue) : (s.modQueue n q f).holdoff = s.holdoff := rfl
@[simp] theorem State.modQueue_gops (n q : Nat) (f : Queue → Queue) : (s.modQueue n q f).gops = s.gops := rfl
@[simp] theorem State.modQueue_flue (n q : Nat) (f : Queue → Queue) : (s.modQueue n q f).flue = s.flue := rfl
@[simp] theorem State.modQueue_arrived (n q : Nat) (f : Queue → Queue) : (s.modQueue n q f).arrived = s.arrived := rfl
@[simp] theorem State.modQueue_returned (n q : Nat) (f : Queue → Queue) : (s.modQueue n q f).returned = s.returned := rfl
@[simp] theorem State.modQueue_granted (n q : Nat) (f : Queue → Queue) : (s.modQueue n q f).granted = s.granted := rfl
@[simp] theorem State.modQueue_routerBad (n q : Nat) (f : Queue → Queue) : (s.modQueue n q f).routerBad = s.routerBad := rfl
@[simp] theorem State.modQueue_retired (n q : Nat) (f : Queue → Queue) : (s.modQueue n q f).retired = s.retired := rfl
@[simp] theorem State.modQueue_linkAlt (n q : Nat) (f : Queue → Queue) : (s.modQueue n q f).linkAlt = s.linkAlt := rfl
@[simp] theorem State.modQueue_sys (n q : Nat) (f : Queue → Queue) : (s.modQueue n q f).sys = s.sys := rfl
@[simp] theorem State.modQueue_keyCmd (n q : Nat) (f : Queue → Queue) : (s.modQueue n q f).keyCmd = s.keyCmd := rfl
@[simp] theorem State.modQueue_tlbGone (n q : Nat) (f : Queue → Queue) : (s.modQueue n q f).tlbGone = s.tlbGone := rfl
@[simp] theorem State.modQueue_hpmapNew (n q : Nat) (f : Queue → Queue) : (s.modQueue n q f).hpmapNew = s.hpmapNew := rfl
@[simp] theorem State.modQueue_hpmapReply (n q : Nat) (f : Queue → Queue) : (s.modQueue n q f).hpmapReply = s.hpmapReply := rfl
@[simp] theorem State.modQueue_warden (n q : Nat) (f : Queue → Queue) : (s.modQueue n q f).warden = s.warden := rfl
@[simp] theorem State.modQueue_fuses (n q : Nat) (f : Queue → Queue) : (s.modQueue n q f).fuses = s.fuses := rfl
@[simp] theorem State.modQueue_power (n q : Nat) (f : Queue → Queue) : (s.modQueue n q f).power = s.power := rfl
@[simp] theorem State.modQueue_vexek (n q : Nat) (f : Queue → Queue) : (s.modQueue n q f).vexek = s.vexek := rfl
@[simp] theorem State.modQueue_shelf_read (n q : Nat) (f : Queue → Queue) (m : Nat) : (s.modQueue n q f).shelf m = s.shelf m := rfl
@[simp] theorem State.modQueue_core_read (n q : Nat) (f : Queue → Queue) (m : Nat) : (s.modQueue n q f).core m = s.core m := rfl
@[simp] theorem State.modQueue_ctx_read (n q : Nat) (f : Queue → Queue) (m q : Nat) : (s.modQueue n q f).ctx m q = s.ctx m q := rfl
@[simp] theorem State.modQueue_link_read (n q : Nat) (f : Queue → Queue) (m : Nat) : (s.modQueue n q f).link m = s.link m := rfl
@[simp] theorem State.modQueue_port_read (n q : Nat) (f : Queue → Queue) (m : Nat) : (s.modQueue n q f).port m = s.port m := rfl
@[simp] theorem State.modQueue_ring_read (n q : Nat) (f : Queue → Queue) (m : Nat) : (s.modQueue n q f).ring m = s.ring m := rfl
@[simp] theorem State.modQueue_gop_read (n q : Nat) (f : Queue → Queue) (m : Nat) : (s.modQueue n q f).gop m = s.gop m := rfl
@[simp] theorem State.modQueue_entry_read (n q : Nat) (f : Queue → Queue) (m j : Nat) : (s.modQueue n q f).entry m j = s.entry m j := rfl
@[simp] theorem State.modQueue_now_read (n q : Nat) (f : Queue → Queue)  : (s.modQueue n q f).now = s.now := rfl
@[simp] theorem State.modQueue_byte_read (n q : Nat) (f : Queue → Queue) (m : Nat) : (s.modQueue n q f).byte m = s.byte m := rfl
@[simp] theorem State.modQueue_isRetired_read (n q : Nat) (f : Queue → Queue) (m : Nat) : (s.modQueue n q f).isRetired m = s.isRetired m := rfl
@[simp] theorem State.modQueue_servingShelf_read (n q : Nat) (f : Queue → Queue) (m : Nat) : (s.modQueue n q f).servingShelf m = s.servingShelf m := rfl
@[simp] theorem State.modQueue_rdReg_read (n q : Nat) (f : Queue → Queue) (h : Reg) : rdReg (s.modQueue n q f) h = rdReg s h := rfl
@[simp] theorem State.modQueue_getF_read (n q : Nat) (f : Queue → Queue) (h : Reg) (u w : Nat) : getF (s.modQueue n q f) h u w = getF s h u w := rfl
@[simp] theorem State.modQueue_getB_read (n q : Nat) (f : Queue → Queue) (h : Reg) (u : Nat) : getB (s.modQueue n q f) h u = getB s h u := rfl

/-! ### setRing -/
@[simp] theorem State.setRing_pending (r : Nat) (x : Ring) : (s.setRing r x).pending = s.pending := rfl
@[simp] theorem State.setRing_outbox (r : Nat) (x : Ring) : (s.setRing r x).outbox = s.outbox := rfl
@[simp] theorem State.setRing_freeCtr (r : Nat) (x : Ring) : (s.setRing r x).freeCtr = s.freeCtr := rfl
@[simp] theorem State.setRing_tagCtr (r : Nat) (x : Ring) : (s.setRing r x).tagCtr = s.tagCtr := rfl
@[simp] theorem State.setRing_devtime (r : Nat) (x : Ring) : (s.setRing r x).devtime = s.devtime := rfl
@[simp] theorem State.setRing_regs (r : Nat) (x : Ring) : (s.setRing r x).regs = s.regs := rfl
@[simp] theorem State.setRing_mem (r : Nat) (x : Ring) : (s.setRing r x).mem = s.mem := rfl
@[simp] theorem State.setRing_ctags (r : Nat) (x : Ring) : (s.setRing r x).ctags = s.ctags := rfl
@[simp] theorem State.setRing_bad (r : Nat) (x : Ring) : (s.setRing r x).bad = s.bad := rfl
@[simp] theorem State.setRing_shelves (r : Nat) (x : Ring) : (s.setRing r x).shelves = s.shelves := rfl
@[simp] theorem State.setRing_cores (r : Nat) (x : Ring) : (s.setRing r x).cores = s.cores := rfl
@[simp] theorem State.setRing_ctxs (r : Nat) (x : Ring) : (s.setRing r x).ctxs = s.ctxs := rfl
@[simp] theorem State.setRing_links (r : Nat) (x : Ring) : (s.setRing r x).links = s.links := rfl
@[simp] theorem State.setRing_ports (r : Nat) (x : Ring) : (s.setRing r x).ports = s.ports := rfl
@[simp] theorem State.setRing_queues (r : Nat) (x : Ring) : (s.setRing r x).queues = s.queues := rfl
@[simp] theorem State.setRing_slotWrites (r : Nat) (x : Ring) : (s.setRing r x).slotWrites = s.slotWrites := rfl
@[simp] theorem State.setRing_evsrcs (r : Nat) (x : Ring) : (s.setRing r x).evsrcs = s.evsrcs := rfl
@[simp] theorem State.setRing_holdoff (r : Nat) (x : Ring) : (s.setRing r x).holdoff = s.holdoff := rfl
@[simp] theorem State.setRing_gops (r : Nat) (x : Ring) : (s.setRing r x).gops = s.gops := rfl
@[simp] theorem State.setRing_flue (r : Nat) (x : Ring) : (s.setRing r x).flue = s.flue := rfl
@[simp] theorem State.setRing_arrived (r : Nat) (x : Ring) : (s.setRing r x).arrived = s.arrived := rfl
@[simp] theorem State.setRing_returned (r : Nat) (x : Ring) : (s.setRing r x).returned = s.returned := rfl
@[simp] theorem State.setRing_granted (r : Nat) (x : Ring) : (s.setRing r x).granted = s.granted := rfl
@[simp] theorem State.setRing_routerBad (r : Nat) (x : Ring) : (s.setRing r x).routerBad = s.routerBad := rfl
@[simp] theorem State.setRing_retired (r : Nat) (x : Ring) : (s.setRing r x).retired = s.retired := rfl
@[simp] theorem State.setRing_linkAlt (r : Nat) (x : Ring) : (s.setRing r x).linkAlt = s.linkAlt := rfl
@[simp] theorem State.setRing_sys (r : Nat) (x : Ring) : (s.setRing r x).sys = s.sys := rfl
@[simp] theorem State.setRing_keyCmd (r : Nat) (x : Ring) : (s.setRing r x).keyCmd = s.keyCmd := rfl
@[simp] theorem State.setRing_tlbGone (r : Nat) (x : Ring) : (s.setRing r x).tlbGone = s.tlbGone := rfl
@[simp] theorem State.setRing_hpmapNew (r : Nat) (x : Ring) : (s.setRing r x).hpmapNew = s.hpmapNew := rfl
@[simp] theorem State.setRing_hpmapReply (r : Nat) (x : Ring) : (s.setRing r x).hpmapReply = s.hpmapReply := rfl
@[simp] theorem State.setRing_warden (r : Nat) (x : Ring) : (s.setRing r x).warden = s.warden := rfl
@[simp] theorem State.setRing_fuses (r : Nat) (x : Ring) : (s.setRing r x).fuses = s.fuses := rfl
@[simp] theorem State.setRing_power (r : Nat) (x : Ring) : (s.setRing r x).power = s.power := rfl
@[simp] theorem State.setRing_vexek (r : Nat) (x : Ring) : (s.setRing r x).vexek = s.vexek := rfl
@[simp] theorem State.setRing_shelf_read (r : Nat) (x : Ring) (m : Nat) : (s.setRing r x).shelf m = s.shelf m := rfl
@[simp] theorem State.setRing_core_read (r : Nat) (x : Ring) (m : Nat) : (s.setRing r x).core m = s.core m := rfl
@[simp] theorem State.setRing_ctx_read (r : Nat) (x : Ring) (m q : Nat) : (s.setRing r x).ctx m q = s.ctx m q := rfl
@[simp] theorem State.setRing_link_read (r : Nat) (x : Ring) (m : Nat) : (s.setRing r x).link m = s.link m := rfl
@[simp] theorem State.setRing_port_read (r : Nat) (x : Ring) (m : Nat) : (s.setRing r x).port m = s.port m := rfl
@[simp] theorem State.setRing_queue_read (r : Nat) (x : Ring) (m p : Nat) : (s.setRing r x).queue m p = s.queue m p := rfl
@[simp] theorem State.setRing_gop_read (r : Nat) (x : Ring) (m : Nat) : (s.setRing r x).gop m = s.gop m := rfl
@[simp] theorem State.setRing_entry_read (r : Nat) (x : Ring) (m j : Nat) : (s.setRing r x).entry m j = s.entry m j := rfl
@[simp] theorem State.setRing_now_read (r : Nat) (x : Ring)  : (s.setRing r x).now = s.now := rfl
@[simp] theorem State.setRing_byte_read (r : Nat) (x : Ring) (m : Nat) : (s.setRing r x).byte m = s.byte m := rfl
@[simp] theorem State.setRing_isRetired_read (r : Nat) (x : Ring) (m : Nat) : (s.setRing r x).isRetired m = s.isRetired m := rfl
@[simp] theorem State.setRing_servingShelf_read (r : Nat) (x : Ring) (m : Nat) : (s.setRing r x).servingShelf m = s.servingShelf m := rfl
@[simp] theorem State.setRing_rdReg_read (r : Nat) (x : Ring) (h : Reg) : rdReg (s.setRing r x) h = rdReg s h := rfl
@[simp] theorem State.setRing_getF_read (r : Nat) (x : Ring) (h : Reg) (u w : Nat) : getF (s.setRing r x) h u w = getF s h u w := rfl
@[simp] theorem State.setRing_getB_read (r : Nat) (x : Ring) (h : Reg) (u : Nat) : getB (s.setRing r x) h u = getB s h u := rfl

/-! ### modRing -/
@[simp] theorem State.modRing_pending (r : Nat) (f : Ring → Ring) : (s.modRing r f).pending = s.pending := rfl
@[simp] theorem State.modRing_outbox (r : Nat) (f : Ring → Ring) : (s.modRing r f).outbox = s.outbox := rfl
@[simp] theorem State.modRing_freeCtr (r : Nat) (f : Ring → Ring) : (s.modRing r f).freeCtr = s.freeCtr := rfl
@[simp] theorem State.modRing_tagCtr (r : Nat) (f : Ring → Ring) : (s.modRing r f).tagCtr = s.tagCtr := rfl
@[simp] theorem State.modRing_devtime (r : Nat) (f : Ring → Ring) : (s.modRing r f).devtime = s.devtime := rfl
@[simp] theorem State.modRing_regs (r : Nat) (f : Ring → Ring) : (s.modRing r f).regs = s.regs := rfl
@[simp] theorem State.modRing_mem (r : Nat) (f : Ring → Ring) : (s.modRing r f).mem = s.mem := rfl
@[simp] theorem State.modRing_ctags (r : Nat) (f : Ring → Ring) : (s.modRing r f).ctags = s.ctags := rfl
@[simp] theorem State.modRing_bad (r : Nat) (f : Ring → Ring) : (s.modRing r f).bad = s.bad := rfl
@[simp] theorem State.modRing_shelves (r : Nat) (f : Ring → Ring) : (s.modRing r f).shelves = s.shelves := rfl
@[simp] theorem State.modRing_cores (r : Nat) (f : Ring → Ring) : (s.modRing r f).cores = s.cores := rfl
@[simp] theorem State.modRing_ctxs (r : Nat) (f : Ring → Ring) : (s.modRing r f).ctxs = s.ctxs := rfl
@[simp] theorem State.modRing_links (r : Nat) (f : Ring → Ring) : (s.modRing r f).links = s.links := rfl
@[simp] theorem State.modRing_ports (r : Nat) (f : Ring → Ring) : (s.modRing r f).ports = s.ports := rfl
@[simp] theorem State.modRing_queues (r : Nat) (f : Ring → Ring) : (s.modRing r f).queues = s.queues := rfl
@[simp] theorem State.modRing_slotWrites (r : Nat) (f : Ring → Ring) : (s.modRing r f).slotWrites = s.slotWrites := rfl
@[simp] theorem State.modRing_evsrcs (r : Nat) (f : Ring → Ring) : (s.modRing r f).evsrcs = s.evsrcs := rfl
@[simp] theorem State.modRing_holdoff (r : Nat) (f : Ring → Ring) : (s.modRing r f).holdoff = s.holdoff := rfl
@[simp] theorem State.modRing_gops (r : Nat) (f : Ring → Ring) : (s.modRing r f).gops = s.gops := rfl
@[simp] theorem State.modRing_flue (r : Nat) (f : Ring → Ring) : (s.modRing r f).flue = s.flue := rfl
@[simp] theorem State.modRing_arrived (r : Nat) (f : Ring → Ring) : (s.modRing r f).arrived = s.arrived := rfl
@[simp] theorem State.modRing_returned (r : Nat) (f : Ring → Ring) : (s.modRing r f).returned = s.returned := rfl
@[simp] theorem State.modRing_granted (r : Nat) (f : Ring → Ring) : (s.modRing r f).granted = s.granted := rfl
@[simp] theorem State.modRing_routerBad (r : Nat) (f : Ring → Ring) : (s.modRing r f).routerBad = s.routerBad := rfl
@[simp] theorem State.modRing_retired (r : Nat) (f : Ring → Ring) : (s.modRing r f).retired = s.retired := rfl
@[simp] theorem State.modRing_linkAlt (r : Nat) (f : Ring → Ring) : (s.modRing r f).linkAlt = s.linkAlt := rfl
@[simp] theorem State.modRing_sys (r : Nat) (f : Ring → Ring) : (s.modRing r f).sys = s.sys := rfl
@[simp] theorem State.modRing_keyCmd (r : Nat) (f : Ring → Ring) : (s.modRing r f).keyCmd = s.keyCmd := rfl
@[simp] theorem State.modRing_tlbGone (r : Nat) (f : Ring → Ring) : (s.modRing r f).tlbGone = s.tlbGone := rfl
@[simp] theorem State.modRing_hpmapNew (r : Nat) (f : Ring → Ring) : (s.modRing r f).hpmapNew = s.hpmapNew := rfl
@[simp] theorem State.modRing_hpmapReply (r : Nat) (f : Ring → Ring) : (s.modRing r f).hpmapReply = s.hpmapReply := rfl
@[simp] theorem State.modRing_warden (r : Nat) (f : Ring → Ring) : (s.modRing r f).warden = s.warden := rfl
@[simp] theorem State.modRing_fuses (r : Nat) (f : Ring → Ring) : (s.modRing r f).fuses = s.fuses := rfl
@[simp] theorem State.modRing_power (r : Nat) (f : Ring → Ring) : (s.modRing r f).power = s.power := rfl
@[simp] theorem State.modRing_vexek (r : Nat) (f : Ring → Ring) : (s.modRing r f).vexek = s.vexek := rfl
@[simp] theorem State.modRing_shelf_read (r : Nat) (f : Ring → Ring) (m : Nat) : (s.modRing r f).shelf m = s.shelf m := rfl
@[simp] theorem State.modRing_core_read (r : Nat) (f : Ring → Ring) (m : Nat) : (s.modRing r f).core m = s.core m := rfl
@[simp] theorem State.modRing_ctx_read (r : Nat) (f : Ring → Ring) (m q : Nat) : (s.modRing r f).ctx m q = s.ctx m q := rfl
@[simp] theorem State.modRing_link_read (r : Nat) (f : Ring → Ring) (m : Nat) : (s.modRing r f).link m = s.link m := rfl
@[simp] theorem State.modRing_port_read (r : Nat) (f : Ring → Ring) (m : Nat) : (s.modRing r f).port m = s.port m := rfl
@[simp] theorem State.modRing_queue_read (r : Nat) (f : Ring → Ring) (m p : Nat) : (s.modRing r f).queue m p = s.queue m p := rfl
@[simp] theorem State.modRing_gop_read (r : Nat) (f : Ring → Ring) (m : Nat) : (s.modRing r f).gop m = s.gop m := rfl
@[simp] theorem State.modRing_entry_read (r : Nat) (f : Ring → Ring) (m j : Nat) : (s.modRing r f).entry m j = s.entry m j := rfl
@[simp] theorem State.modRing_now_read (r : Nat) (f : Ring → Ring)  : (s.modRing r f).now = s.now := rfl
@[simp] theorem State.modRing_byte_read (r : Nat) (f : Ring → Ring) (m : Nat) : (s.modRing r f).byte m = s.byte m := rfl
@[simp] theorem State.modRing_isRetired_read (r : Nat) (f : Ring → Ring) (m : Nat) : (s.modRing r f).isRetired m = s.isRetired m := rfl
@[simp] theorem State.modRing_servingShelf_read (r : Nat) (f : Ring → Ring) (m : Nat) : (s.modRing r f).servingShelf m = s.servingShelf m := rfl
@[simp] theorem State.modRing_rdReg_read (r : Nat) (f : Ring → Ring) (h : Reg) : rdReg (s.modRing r f) h = rdReg s h := rfl
@[simp] theorem State.modRing_getF_read (r : Nat) (f : Ring → Ring) (h : Reg) (u w : Nat) : getF (s.modRing r f) h u w = getF s h u w := rfl
@[simp] theorem State.modRing_getB_read (r : Nat) (f : Ring → Ring) (h : Reg) (u : Nat) : getB (s.modRing r f) h u = getB s h u := rfl

/-! ### setGop -/
@[simp] theorem State.setGop_pending (t : Nat) (x : GopTag) : (s.setGop t x).pending = s.pending := rfl
@[simp] theorem State.setGop_outbox (t : Nat) (x : GopTag) : (s.setGop t x).outbox = s.outbox := rfl
@[simp] theorem State.setGop_freeCtr (t : Nat) (x : GopTag) : (s.setGop t x).freeCtr = s.freeCtr := rfl
@[simp] theorem State.setGop_tagCtr (t : Nat) (x : GopTag) : (s.setGop t x).tagCtr = s.tagCtr := rfl
@[simp] theorem State.setGop_devtime (t : Nat) (x : GopTag) : (s.setGop t x).devtime = s.devtime := rfl
@[simp] theorem State.setGop_regs (t : Nat) (x : GopTag) : (s.setGop t x).regs = s.regs := rfl
@[simp] theorem State.setGop_mem (t : Nat) (x : GopTag) : (s.setGop t x).mem = s.mem := rfl
@[simp] theorem State.setGop_ctags (t : Nat) (x : GopTag) : (s.setGop t x).ctags = s.ctags := rfl
@[simp] theorem State.setGop_bad (t : Nat) (x : GopTag) : (s.setGop t x).bad = s.bad := rfl
@[simp] theorem State.setGop_shelves (t : Nat) (x : GopTag) : (s.setGop t x).shelves = s.shelves := rfl
@[simp] theorem State.setGop_cores (t : Nat) (x : GopTag) : (s.setGop t x).cores = s.cores := rfl
@[simp] theorem State.setGop_ctxs (t : Nat) (x : GopTag) : (s.setGop t x).ctxs = s.ctxs := rfl
@[simp] theorem State.setGop_links (t : Nat) (x : GopTag) : (s.setGop t x).links = s.links := rfl
@[simp] theorem State.setGop_ports (t : Nat) (x : GopTag) : (s.setGop t x).ports = s.ports := rfl
@[simp] theorem State.setGop_queues (t : Nat) (x : GopTag) : (s.setGop t x).queues = s.queues := rfl
@[simp] theorem State.setGop_rings (t : Nat) (x : GopTag) : (s.setGop t x).rings = s.rings := rfl
@[simp] theorem State.setGop_slotWrites (t : Nat) (x : GopTag) : (s.setGop t x).slotWrites = s.slotWrites := rfl
@[simp] theorem State.setGop_evsrcs (t : Nat) (x : GopTag) : (s.setGop t x).evsrcs = s.evsrcs := rfl
@[simp] theorem State.setGop_holdoff (t : Nat) (x : GopTag) : (s.setGop t x).holdoff = s.holdoff := rfl
@[simp] theorem State.setGop_flue (t : Nat) (x : GopTag) : (s.setGop t x).flue = s.flue := rfl
@[simp] theorem State.setGop_arrived (t : Nat) (x : GopTag) : (s.setGop t x).arrived = s.arrived := rfl
@[simp] theorem State.setGop_returned (t : Nat) (x : GopTag) : (s.setGop t x).returned = s.returned := rfl
@[simp] theorem State.setGop_granted (t : Nat) (x : GopTag) : (s.setGop t x).granted = s.granted := rfl
@[simp] theorem State.setGop_routerBad (t : Nat) (x : GopTag) : (s.setGop t x).routerBad = s.routerBad := rfl
@[simp] theorem State.setGop_retired (t : Nat) (x : GopTag) : (s.setGop t x).retired = s.retired := rfl
@[simp] theorem State.setGop_linkAlt (t : Nat) (x : GopTag) : (s.setGop t x).linkAlt = s.linkAlt := rfl
@[simp] theorem State.setGop_sys (t : Nat) (x : GopTag) : (s.setGop t x).sys = s.sys := rfl
@[simp] theorem State.setGop_keyCmd (t : Nat) (x : GopTag) : (s.setGop t x).keyCmd = s.keyCmd := rfl
@[simp] theorem State.setGop_tlbGone (t : Nat) (x : GopTag) : (s.setGop t x).tlbGone = s.tlbGone := rfl
@[simp] theorem State.setGop_hpmapNew (t : Nat) (x : GopTag) : (s.setGop t x).hpmapNew = s.hpmapNew := rfl
@[simp] theorem State.setGop_hpmapReply (t : Nat) (x : GopTag) : (s.setGop t x).hpmapReply = s.hpmapReply := rfl
@[simp] theorem State.setGop_warden (t : Nat) (x : GopTag) : (s.setGop t x).warden = s.warden := rfl
@[simp] theorem State.setGop_fuses (t : Nat) (x : GopTag) : (s.setGop t x).fuses = s.fuses := rfl
@[simp] theorem State.setGop_power (t : Nat) (x : GopTag) : (s.setGop t x).power = s.power := rfl
@[simp] theorem State.setGop_vexek (t : Nat) (x : GopTag) : (s.setGop t x).vexek = s.vexek := rfl
@[simp] theorem State.setGop_shelf_read (t : Nat) (x : GopTag) (m : Nat) : (s.setGop t x).shelf m = s.shelf m := rfl
@[simp] theorem State.setGop_core_read (t : Nat) (x : GopTag) (m : Nat) : (s.setGop t x).core m = s.core m := rfl
@[simp] theorem State.setGop_ctx_read (t : Nat) (x : GopTag) (m q : Nat) : (s.setGop t x).ctx m q = s.ctx m q := rfl
@[simp] theorem State.setGop_link_read (t : Nat) (x : GopTag) (m : Nat) : (s.setGop t x).link m = s.link m := rfl
@[simp] theorem State.setGop_port_read (t : Nat) (x : GopTag) (m : Nat) : (s.setGop t x).port m = s.port m := rfl
@[simp] theorem State.setGop_queue_read (t : Nat) (x : GopTag) (m p : Nat) : (s.setGop t x).queue m p = s.queue m p := rfl
@[simp] theorem State.setGop_ring_read (t : Nat) (x : GopTag) (m : Nat) : (s.setGop t x).ring m = s.ring m := rfl
@[simp] theorem State.setGop_entry_read (t : Nat) (x : GopTag) (m j : Nat) : (s.setGop t x).entry m j = s.entry m j := rfl
@[simp] theorem State.setGop_now_read (t : Nat) (x : GopTag)  : (s.setGop t x).now = s.now := rfl
@[simp] theorem State.setGop_byte_read (t : Nat) (x : GopTag) (m : Nat) : (s.setGop t x).byte m = s.byte m := rfl
@[simp] theorem State.setGop_isRetired_read (t : Nat) (x : GopTag) (m : Nat) : (s.setGop t x).isRetired m = s.isRetired m := rfl
@[simp] theorem State.setGop_servingShelf_read (t : Nat) (x : GopTag) (m : Nat) : (s.setGop t x).servingShelf m = s.servingShelf m := rfl
@[simp] theorem State.setGop_rdReg_read (t : Nat) (x : GopTag) (h : Reg) : rdReg (s.setGop t x) h = rdReg s h := rfl
@[simp] theorem State.setGop_getF_read (t : Nat) (x : GopTag) (h : Reg) (u w : Nat) : getF (s.setGop t x) h u w = getF s h u w := rfl
@[simp] theorem State.setGop_getB_read (t : Nat) (x : GopTag) (h : Reg) (u : Nat) : getB (s.setGop t x) h u = getB s h u := rfl

/-! ### modWarden -/
@[simp] theorem State.modWarden_pending (f : Warden → Warden) : (s.modWarden f).pending = s.pending := rfl
@[simp] theorem State.modWarden_outbox (f : Warden → Warden) : (s.modWarden f).outbox = s.outbox := rfl
@[simp] theorem State.modWarden_freeCtr (f : Warden → Warden) : (s.modWarden f).freeCtr = s.freeCtr := rfl
@[simp] theorem State.modWarden_tagCtr (f : Warden → Warden) : (s.modWarden f).tagCtr = s.tagCtr := rfl
@[simp] theorem State.modWarden_devtime (f : Warden → Warden) : (s.modWarden f).devtime = s.devtime := rfl
@[simp] theorem State.modWarden_regs (f : Warden → Warden) : (s.modWarden f).regs = s.regs := rfl
@[simp] theorem State.modWarden_mem (f : Warden → Warden) : (s.modWarden f).mem = s.mem := rfl
@[simp] theorem State.modWarden_ctags (f : Warden → Warden) : (s.modWarden f).ctags = s.ctags := rfl
@[simp] theorem State.modWarden_bad (f : Warden → Warden) : (s.modWarden f).bad = s.bad := rfl
@[simp] theorem State.modWarden_shelves (f : Warden → Warden) : (s.modWarden f).shelves = s.shelves := rfl
@[simp] theorem State.modWarden_cores (f : Warden → Warden) : (s.modWarden f).cores = s.cores := rfl
@[simp] theorem State.modWarden_ctxs (f : Warden → Warden) : (s.modWarden f).ctxs = s.ctxs := rfl
@[simp] theorem State.modWarden_links (f : Warden → Warden) : (s.modWarden f).links = s.links := rfl
@[simp] theorem State.modWarden_ports (f : Warden → Warden) : (s.modWarden f).ports = s.ports := rfl
@[simp] theorem State.modWarden_queues (f : Warden → Warden) : (s.modWarden f).queues = s.queues := rfl
@[simp] theorem State.modWarden_rings (f : Warden → Warden) : (s.modWarden f).rings = s.rings := rfl
@[simp] theorem State.modWarden_slotWrites (f : Warden → Warden) : (s.modWarden f).slotWrites = s.slotWrites := rfl
@[simp] theorem State.modWarden_evsrcs (f : Warden → Warden) : (s.modWarden f).evsrcs = s.evsrcs := rfl
@[simp] theorem State.modWarden_holdoff (f : Warden → Warden) : (s.modWarden f).holdoff = s.holdoff := rfl
@[simp] theorem State.modWarden_gops (f : Warden → Warden) : (s.modWarden f).gops = s.gops := rfl
@[simp] theorem State.modWarden_flue (f : Warden → Warden) : (s.modWarden f).flue = s.flue := rfl
@[simp] theorem State.modWarden_arrived (f : Warden → Warden) : (s.modWarden f).arrived = s.arrived := rfl
@[simp] theorem State.modWarden_returned (f : Warden → Warden) : (s.modWarden f).returned = s.returned := rfl
@[simp] theorem State.modWarden_granted (f : Warden → Warden) : (s.modWarden f).granted = s.granted := rfl
@[simp] theorem State.modWarden_routerBad (f : Warden → Warden) : (s.modWarden f).routerBad = s.routerBad := rfl
@[simp] theorem State.modWarden_retired (f : Warden → Warden) : (s.modWarden f).retired = s.retired := rfl
@[simp] theorem State.modWarden_linkAlt (f : Warden → Warden) : (s.modWarden f).linkAlt = s.linkAlt := rfl
@[simp] theorem State.modWarden_sys (f : Warden → Warden) : (s.modWarden f).sys = s.sys := rfl
@[simp] theorem State.modWarden_keyCmd (f : Warden → Warden) : (s.modWarden f).keyCmd = s.keyCmd := rfl
@[simp] theorem State.modWarden_tlbGone (f : Warden → Warden) : (s.modWarden f).tlbGone = s.tlbGone := rfl
@[simp] theorem State.modWarden_hpmapNew (f : Warden → Warden) : (s.modWarden f).hpmapNew = s.hpmapNew := rfl
@[simp] theorem State.modWarden_hpmapReply (f : Warden → Warden) : (s.modWarden f).hpmapReply = s.hpmapReply := rfl
@[simp] theorem State.modWarden_fuses (f : Warden → Warden) : (s.modWarden f).fuses = s.fuses := rfl
@[simp] theorem State.modWarden_power (f : Warden → Warden) : (s.modWarden f).power = s.power := rfl
@[simp] theorem State.modWarden_vexek (f : Warden → Warden) : (s.modWarden f).vexek = s.vexek := rfl
@[simp] theorem State.modWarden_shelf_read (f : Warden → Warden) (m : Nat) : (s.modWarden f).shelf m = s.shelf m := rfl
@[simp] theorem State.modWarden_core_read (f : Warden → Warden) (m : Nat) : (s.modWarden f).core m = s.core m := rfl
@[simp] theorem State.modWarden_ctx_read (f : Warden → Warden) (m q : Nat) : (s.modWarden f).ctx m q = s.ctx m q := rfl
@[simp] theorem State.modWarden_link_read (f : Warden → Warden) (m : Nat) : (s.modWarden f).link m = s.link m := rfl
@[simp] theorem State.modWarden_port_read (f : Warden → Warden) (m : Nat) : (s.modWarden f).port m = s.port m := rfl
@[simp] theorem State.modWarden_queue_read (f : Warden → Warden) (m p : Nat) : (s.modWarden f).queue m p = s.queue m p := rfl
@[simp] theorem State.modWarden_ring_read (f : Warden → Warden) (m : Nat) : (s.modWarden f).ring m = s.ring m := rfl
@[simp] theorem State.modWarden_gop_read (f : Warden → Warden) (m : Nat) : (s.modWarden f).gop m = s.gop m := rfl
@[simp] theorem State.modWarden_entry_read (f : Warden → Warden) (m j : Nat) : (s.modWarden f).entry m j = s.entry m j := rfl
@[simp] theorem State.modWarden_now_read (f : Warden → Warden)  : (s.modWarden f).now = s.now := rfl
@[simp] theorem State.modWarden_byte_read (f : Warden → Warden) (m : Nat) : (s.modWarden f).byte m = s.byte m := rfl
@[simp] theorem State.modWarden_isRetired_read (f : Warden → Warden) (m : Nat) : (s.modWarden f).isRetired m = s.isRetired m := rfl
@[simp] theorem State.modWarden_servingShelf_read (f : Warden → Warden) (m : Nat) : (s.modWarden f).servingShelf m = s.servingShelf m := rfl
@[simp] theorem State.modWarden_rdReg_read (f : Warden → Warden) (h : Reg) : rdReg (s.modWarden f) h = rdReg s h := rfl
@[simp] theorem State.modWarden_getF_read (f : Warden → Warden) (h : Reg) (u w : Nat) : getF (s.modWarden f) h u w = getF s h u w := rfl
@[simp] theorem State.modWarden_getB_read (f : Warden → Warden) (h : Reg) (u : Nat) : getB (s.modWarden f) h u = getB s h u := rfl

/-! ### modPower -/
@[simp] theorem State.modPower_pending (f : Power → Power) : (s.modPower f).pending = s.pending := rfl
@[simp] theorem State.modPower_outbox (f : Power → Power) : (s.modPower f).outbox = s.outbox := rfl
@[simp] theorem State.modPower_freeCtr (f : Power → Power) : (s.modPower f).freeCtr = s.freeCtr := rfl
@[simp] theorem State.modPower_tagCtr (f : Power → Power) : (s.modPower f).tagCtr = s.tagCtr := rfl
@[simp] theorem State.modPower_devtime (f : Power → Power) : (s.modPower f).devtime = s.devtime := rfl
@[simp] theorem State.modPower_regs (f : Power → Power) : (s.modPower f).regs = s.regs := rfl
@[simp] theorem State.modPower_mem (f : Power → Power) : (s.modPower f).mem = s.mem := rfl
@[simp] theorem State.modPower_ctags (f : Power → Power) : (s.modPower f).ctags = s.ctags := rfl
@[simp] theorem State.modPower_bad (f : Power → Power) : (s.modPower f).bad = s.bad := rfl
@[simp] theorem State.modPower_shelves (f : Power → Power) : (s.modPower f).shelves = s.shelves := rfl
@[simp] theorem State.modPower_cores (f : Power → Power) : (s.modPower f).cores = s.cores := rfl
@[simp] theorem State.modPower_ctxs (f : Power → Power) : (s.modPower f).ctxs = s.ctxs := rfl
@[simp] theorem State.modPower_links (f : Power → Power) : (s.modPower f).links = s.links := rfl
@[simp] theorem State.modPower_ports (f : Power → Power) : (s.modPower f).ports = s.ports := rfl
@[simp] theorem State.modPower_queues (f : Power → Power) : (s.modPower f).queues = s.queues := rfl
@[simp] theorem State.modPower_rings (f : Power → Power) : (s.modPower f).rings = s.rings := rfl
@[simp] theorem State.modPower_slotWrites (f : Power → Power) : (s.modPower f).slotWrites = s.slotWrites := rfl
@[simp] theorem State.modPower_evsrcs (f : Power → Power) : (s.modPower f).evsrcs = s.evsrcs := rfl
@[simp] theorem State.modPower_holdoff (f : Power → Power) : (s.modPower f).holdoff = s.holdoff := rfl
@[simp] theorem State.modPower_gops (f : Power → Power) : (s.modPower f).gops = s.gops := rfl
@[simp] theorem State.modPower_flue (f : Power → Power) : (s.modPower f).flue = s.flue := rfl
@[simp] theorem State.modPower_arrived (f : Power → Power) : (s.modPower f).arrived = s.arrived := rfl
@[simp] theorem State.modPower_returned (f : Power → Power) : (s.modPower f).returned = s.returned := rfl
@[simp] theorem State.modPower_granted (f : Power → Power) : (s.modPower f).granted = s.granted := rfl
@[simp] theorem State.modPower_routerBad (f : Power → Power) : (s.modPower f).routerBad = s.routerBad := rfl
@[simp] theorem State.modPower_retired (f : Power → Power) : (s.modPower f).retired = s.retired := rfl
@[simp] theorem State.modPower_linkAlt (f : Power → Power) : (s.modPower f).linkAlt = s.linkAlt := rfl
@[simp] theorem State.modPower_sys (f : Power → Power) : (s.modPower f).sys = s.sys := rfl
@[simp] theorem State.modPower_keyCmd (f : Power → Power) : (s.modPower f).keyCmd = s.keyCmd := rfl
@[simp] theorem State.modPower_tlbGone (f : Power → Power) : (s.modPower f).tlbGone = s.tlbGone := rfl
@[simp] theorem State.modPower_hpmapNew (f : Power → Power) : (s.modPower f).hpmapNew = s.hpmapNew := rfl
@[simp] theorem State.modPower_hpmapReply (f : Power → Power) : (s.modPower f).hpmapReply = s.hpmapReply := rfl
@[simp] theorem State.modPower_warden (f : Power → Power) : (s.modPower f).warden = s.warden := rfl
@[simp] theorem State.modPower_fuses (f : Power → Power) : (s.modPower f).fuses = s.fuses := rfl
@[simp] theorem State.modPower_vexek (f : Power → Power) : (s.modPower f).vexek = s.vexek := rfl
@[simp] theorem State.modPower_shelf_read (f : Power → Power) (m : Nat) : (s.modPower f).shelf m = s.shelf m := rfl
@[simp] theorem State.modPower_core_read (f : Power → Power) (m : Nat) : (s.modPower f).core m = s.core m := rfl
@[simp] theorem State.modPower_ctx_read (f : Power → Power) (m q : Nat) : (s.modPower f).ctx m q = s.ctx m q := rfl
@[simp] theorem State.modPower_link_read (f : Power → Power) (m : Nat) : (s.modPower f).link m = s.link m := rfl
@[simp] theorem State.modPower_port_read (f : Power → Power) (m : Nat) : (s.modPower f).port m = s.port m := rfl
@[simp] theorem State.modPower_queue_read (f : Power → Power) (m p : Nat) : (s.modPower f).queue m p = s.queue m p := rfl
@[simp] theorem State.modPower_ring_read (f : Power → Power) (m : Nat) : (s.modPower f).ring m = s.ring m := rfl
@[simp] theorem State.modPower_gop_read (f : Power → Power) (m : Nat) : (s.modPower f).gop m = s.gop m := rfl
@[simp] theorem State.modPower_entry_read (f : Power → Power) (m j : Nat) : (s.modPower f).entry m j = s.entry m j := rfl
@[simp] theorem State.modPower_now_read (f : Power → Power)  : (s.modPower f).now = s.now := rfl
@[simp] theorem State.modPower_byte_read (f : Power → Power) (m : Nat) : (s.modPower f).byte m = s.byte m := rfl
@[simp] theorem State.modPower_isRetired_read (f : Power → Power) (m : Nat) : (s.modPower f).isRetired m = s.isRetired m := rfl
@[simp] theorem State.modPower_servingShelf_read (f : Power → Power) (m : Nat) : (s.modPower f).servingShelf m = s.servingShelf m := rfl
@[simp] theorem State.modPower_rdReg_read (f : Power → Power) (h : Reg) : rdReg (s.modPower f) h = rdReg s h := rfl
@[simp] theorem State.modPower_getF_read (f : Power → Power) (h : Reg) (u w : Nat) : getF (s.modPower f) h u w = getF s h u w := rfl
@[simp] theorem State.modPower_getB_read (f : Power → Power) (h : Reg) (u : Nat) : getB (s.modPower f) h u = getB s h u := rfl

/-! ### modVexek -/
@[simp] theorem State.modVexek_pending (f : Vexek → Vexek) : (s.modVexek f).pending = s.pending := rfl
@[simp] theorem State.modVexek_outbox (f : Vexek → Vexek) : (s.modVexek f).outbox = s.outbox := rfl
@[simp] theorem State.modVexek_freeCtr (f : Vexek → Vexek) : (s.modVexek f).freeCtr = s.freeCtr := rfl
@[simp] theorem State.modVexek_tagCtr (f : Vexek → Vexek) : (s.modVexek f).tagCtr = s.tagCtr := rfl
@[simp] theorem State.modVexek_devtime (f : Vexek → Vexek) : (s.modVexek f).devtime = s.devtime := rfl
@[simp] theorem State.modVexek_regs (f : Vexek → Vexek) : (s.modVexek f).regs = s.regs := rfl
@[simp] theorem State.modVexek_mem (f : Vexek → Vexek) : (s.modVexek f).mem = s.mem := rfl
@[simp] theorem State.modVexek_ctags (f : Vexek → Vexek) : (s.modVexek f).ctags = s.ctags := rfl
@[simp] theorem State.modVexek_bad (f : Vexek → Vexek) : (s.modVexek f).bad = s.bad := rfl
@[simp] theorem State.modVexek_shelves (f : Vexek → Vexek) : (s.modVexek f).shelves = s.shelves := rfl
@[simp] theorem State.modVexek_cores (f : Vexek → Vexek) : (s.modVexek f).cores = s.cores := rfl
@[simp] theorem State.modVexek_ctxs (f : Vexek → Vexek) : (s.modVexek f).ctxs = s.ctxs := rfl
@[simp] theorem State.modVexek_links (f : Vexek → Vexek) : (s.modVexek f).links = s.links := rfl
@[simp] theorem State.modVexek_ports (f : Vexek → Vexek) : (s.modVexek f).ports = s.ports := rfl
@[simp] theorem State.modVexek_queues (f : Vexek → Vexek) : (s.modVexek f).queues = s.queues := rfl
@[simp] theorem State.modVexek_rings (f : Vexek → Vexek) : (s.modVexek f).rings = s.rings := rfl
@[simp] theorem State.modVexek_slotWrites (f : Vexek → Vexek) : (s.modVexek f).slotWrites = s.slotWrites := rfl
@[simp] theorem State.modVexek_evsrcs (f : Vexek → Vexek) : (s.modVexek f).evsrcs = s.evsrcs := rfl
@[simp] theorem State.modVexek_holdoff (f : Vexek → Vexek) : (s.modVexek f).holdoff = s.holdoff := rfl
@[simp] theorem State.modVexek_gops (f : Vexek → Vexek) : (s.modVexek f).gops = s.gops := rfl
@[simp] theorem State.modVexek_flue (f : Vexek → Vexek) : (s.modVexek f).flue = s.flue := rfl
@[simp] theorem State.modVexek_arrived (f : Vexek → Vexek) : (s.modVexek f).arrived = s.arrived := rfl
@[simp] theorem State.modVexek_returned (f : Vexek → Vexek) : (s.modVexek f).returned = s.returned := rfl
@[simp] theorem State.modVexek_granted (f : Vexek → Vexek) : (s.modVexek f).granted = s.granted := rfl
@[simp] theorem State.modVexek_routerBad (f : Vexek → Vexek) : (s.modVexek f).routerBad = s.routerBad := rfl
@[simp] theorem State.modVexek_retired (f : Vexek → Vexek) : (s.modVexek f).retired = s.retired := rfl
@[simp] theorem State.modVexek_linkAlt (f : Vexek → Vexek) : (s.modVexek f).linkAlt = s.linkAlt := rfl
@[simp] theorem State.modVexek_sys (f : Vexek → Vexek) : (s.modVexek f).sys = s.sys := rfl
@[simp] theorem State.modVexek_keyCmd (f : Vexek → Vexek) : (s.modVexek f).keyCmd = s.keyCmd := rfl
@[simp] theorem State.modVexek_tlbGone (f : Vexek → Vexek) : (s.modVexek f).tlbGone = s.tlbGone := rfl
@[simp] theorem State.modVexek_hpmapNew (f : Vexek → Vexek) : (s.modVexek f).hpmapNew = s.hpmapNew := rfl
@[simp] theorem State.modVexek_hpmapReply (f : Vexek → Vexek) : (s.modVexek f).hpmapReply = s.hpmapReply := rfl
@[simp] theorem State.modVexek_warden (f : Vexek → Vexek) : (s.modVexek f).warden = s.warden := rfl
@[simp] theorem State.modVexek_fuses (f : Vexek → Vexek) : (s.modVexek f).fuses = s.fuses := rfl
@[simp] theorem State.modVexek_power (f : Vexek → Vexek) : (s.modVexek f).power = s.power := rfl
@[simp] theorem State.modVexek_shelf_read (f : Vexek → Vexek) (m : Nat) : (s.modVexek f).shelf m = s.shelf m := rfl
@[simp] theorem State.modVexek_core_read (f : Vexek → Vexek) (m : Nat) : (s.modVexek f).core m = s.core m := rfl
@[simp] theorem State.modVexek_ctx_read (f : Vexek → Vexek) (m q : Nat) : (s.modVexek f).ctx m q = s.ctx m q := rfl
@[simp] theorem State.modVexek_link_read (f : Vexek → Vexek) (m : Nat) : (s.modVexek f).link m = s.link m := rfl
@[simp] theorem State.modVexek_port_read (f : Vexek → Vexek) (m : Nat) : (s.modVexek f).port m = s.port m := rfl
@[simp] theorem State.modVexek_queue_read (f : Vexek → Vexek) (m p : Nat) : (s.modVexek f).queue m p = s.queue m p := rfl
@[simp] theorem State.modVexek_ring_read (f : Vexek → Vexek) (m : Nat) : (s.modVexek f).ring m = s.ring m := rfl
@[simp] theorem State.modVexek_gop_read (f : Vexek → Vexek) (m : Nat) : (s.modVexek f).gop m = s.gop m := rfl
@[simp] theorem State.modVexek_entry_read (f : Vexek → Vexek) (m j : Nat) : (s.modVexek f).entry m j = s.entry m j := rfl
@[simp] theorem State.modVexek_now_read (f : Vexek → Vexek)  : (s.modVexek f).now = s.now := rfl
@[simp] theorem State.modVexek_byte_read (f : Vexek → Vexek) (m : Nat) : (s.modVexek f).byte m = s.byte m := rfl
@[simp] theorem State.modVexek_isRetired_read (f : Vexek → Vexek) (m : Nat) : (s.modVexek f).isRetired m = s.isRetired m := rfl
@[simp] theorem State.modVexek_servingShelf_read (f : Vexek → Vexek) (m : Nat) : (s.modVexek f).servingShelf m = s.servingShelf m := rfl
@[simp] theorem State.modVexek_rdReg_read (f : Vexek → Vexek) (h : Reg) : rdReg (s.modVexek f) h = rdReg s h := rfl
@[simp] theorem State.modVexek_getF_read (f : Vexek → Vexek) (h : Reg) (u w : Nat) : getF (s.modVexek f) h u w = getF s h u w := rfl
@[simp] theorem State.modVexek_getB_read (f : Vexek → Vexek) (h : Reg) (u : Nat) : getB (s.modVexek f) h u = getB s h u := rfl

/-! ### modSys -/
@[simp] theorem State.modSys_pending (f : Sys → Sys) : (s.modSys f).pending = s.pending := rfl
@[simp] theorem State.modSys_outbox (f : Sys → Sys) : (s.modSys f).outbox = s.outbox := rfl
@[simp] theorem State.modSys_freeCtr (f : Sys → Sys) : (s.modSys f).freeCtr = s.freeCtr := rfl
@[simp] theorem State.modSys_tagCtr (f : Sys → Sys) : (s.modSys f).tagCtr = s.tagCtr := rfl
@[simp] theorem State.modSys_devtime (f : Sys → Sys) : (s.modSys f).devtime = s.devtime := rfl
@[simp] theorem State.modSys_regs (f : Sys → Sys) : (s.modSys f).regs = s.regs := rfl
@[simp] theorem State.modSys_mem (f : Sys → Sys) : (s.modSys f).mem = s.mem := rfl
@[simp] theorem State.modSys_ctags (f : Sys → Sys) : (s.modSys f).ctags = s.ctags := rfl
@[simp] theorem State.modSys_bad (f : Sys → Sys) : (s.modSys f).bad = s.bad := rfl
@[simp] theorem State.modSys_shelves (f : Sys → Sys) : (s.modSys f).shelves = s.shelves := rfl
@[simp] theorem State.modSys_cores (f : Sys → Sys) : (s.modSys f).cores = s.cores := rfl
@[simp] theorem State.modSys_ctxs (f : Sys → Sys) : (s.modSys f).ctxs = s.ctxs := rfl
@[simp] theorem State.modSys_links (f : Sys → Sys) : (s.modSys f).links = s.links := rfl
@[simp] theorem State.modSys_ports (f : Sys → Sys) : (s.modSys f).ports = s.ports := rfl
@[simp] theorem State.modSys_queues (f : Sys → Sys) : (s.modSys f).queues = s.queues := rfl
@[simp] theorem State.modSys_rings (f : Sys → Sys) : (s.modSys f).rings = s.rings := rfl
@[simp] theorem State.modSys_slotWrites (f : Sys → Sys) : (s.modSys f).slotWrites = s.slotWrites := rfl
@[simp] theorem State.modSys_evsrcs (f : Sys → Sys) : (s.modSys f).evsrcs = s.evsrcs := rfl
@[simp] theorem State.modSys_holdoff (f : Sys → Sys) : (s.modSys f).holdoff = s.holdoff := rfl
@[simp] theorem State.modSys_gops (f : Sys → Sys) : (s.modSys f).gops = s.gops := rfl
@[simp] theorem State.modSys_flue (f : Sys → Sys) : (s.modSys f).flue = s.flue := rfl
@[simp] theorem State.modSys_arrived (f : Sys → Sys) : (s.modSys f).arrived = s.arrived := rfl
@[simp] theorem State.modSys_returned (f : Sys → Sys) : (s.modSys f).returned = s.returned := rfl
@[simp] theorem State.modSys_granted (f : Sys → Sys) : (s.modSys f).granted = s.granted := rfl
@[simp] theorem State.modSys_routerBad (f : Sys → Sys) : (s.modSys f).routerBad = s.routerBad := rfl
@[simp] theorem State.modSys_retired (f : Sys → Sys) : (s.modSys f).retired = s.retired := rfl
@[simp] theorem State.modSys_linkAlt (f : Sys → Sys) : (s.modSys f).linkAlt = s.linkAlt := rfl
@[simp] theorem State.modSys_keyCmd (f : Sys → Sys) : (s.modSys f).keyCmd = s.keyCmd := rfl
@[simp] theorem State.modSys_tlbGone (f : Sys → Sys) : (s.modSys f).tlbGone = s.tlbGone := rfl
@[simp] theorem State.modSys_hpmapNew (f : Sys → Sys) : (s.modSys f).hpmapNew = s.hpmapNew := rfl
@[simp] theorem State.modSys_hpmapReply (f : Sys → Sys) : (s.modSys f).hpmapReply = s.hpmapReply := rfl
@[simp] theorem State.modSys_warden (f : Sys → Sys) : (s.modSys f).warden = s.warden := rfl
@[simp] theorem State.modSys_fuses (f : Sys → Sys) : (s.modSys f).fuses = s.fuses := rfl
@[simp] theorem State.modSys_power (f : Sys → Sys) : (s.modSys f).power = s.power := rfl
@[simp] theorem State.modSys_vexek (f : Sys → Sys) : (s.modSys f).vexek = s.vexek := rfl
@[simp] theorem State.modSys_shelf_read (f : Sys → Sys) (m : Nat) : (s.modSys f).shelf m = s.shelf m := rfl
@[simp] theorem State.modSys_core_read (f : Sys → Sys) (m : Nat) : (s.modSys f).core m = s.core m := rfl
@[simp] theorem State.modSys_ctx_read (f : Sys → Sys) (m q : Nat) : (s.modSys f).ctx m q = s.ctx m q := rfl
@[simp] theorem State.modSys_link_read (f : Sys → Sys) (m : Nat) : (s.modSys f).link m = s.link m := rfl
@[simp] theorem State.modSys_port_read (f : Sys → Sys) (m : Nat) : (s.modSys f).port m = s.port m := rfl
@[simp] theorem State.modSys_queue_read (f : Sys → Sys) (m p : Nat) : (s.modSys f).queue m p = s.queue m p := rfl
@[simp] theorem State.modSys_ring_read (f : Sys → Sys) (m : Nat) : (s.modSys f).ring m = s.ring m := rfl
@[simp] theorem State.modSys_gop_read (f : Sys → Sys) (m : Nat) : (s.modSys f).gop m = s.gop m := rfl
@[simp] theorem State.modSys_entry_read (f : Sys → Sys) (m j : Nat) : (s.modSys f).entry m j = s.entry m j := rfl
@[simp] theorem State.modSys_now_read (f : Sys → Sys)  : (s.modSys f).now = s.now := rfl
@[simp] theorem State.modSys_byte_read (f : Sys → Sys) (m : Nat) : (s.modSys f).byte m = s.byte m := rfl
@[simp] theorem State.modSys_isRetired_read (f : Sys → Sys) (m : Nat) : (s.modSys f).isRetired m = s.isRetired m := rfl
@[simp] theorem State.modSys_servingShelf_read (f : Sys → Sys) (m : Nat) : (s.modSys f).servingShelf m = s.servingShelf m := rfl
@[simp] theorem State.modSys_rdReg_read (f : Sys → Sys) (h : Reg) : rdReg (s.modSys f) h = rdReg s h := rfl
@[simp] theorem State.modSys_getF_read (f : Sys → Sys) (h : Reg) (u w : Nat) : getF (s.modSys f) h u w = getF s h u w := rfl
@[simp] theorem State.modSys_getB_read (f : Sys → Sys) (h : Reg) (u : Nat) : getB (s.modSys f) h u = getB s h u := rfl

/-! ### emit -/
@[simp] theorem State.emit_pending (o : Output) : (s.emit o).pending = s.pending := rfl
@[simp] theorem State.emit_freeCtr (o : Output) : (s.emit o).freeCtr = s.freeCtr := rfl
@[simp] theorem State.emit_tagCtr (o : Output) : (s.emit o).tagCtr = s.tagCtr := rfl
@[simp] theorem State.emit_devtime (o : Output) : (s.emit o).devtime = s.devtime := rfl
@[simp] theorem State.emit_regs (o : Output) : (s.emit o).regs = s.regs := rfl
@[simp] theorem State.emit_mem (o : Output) : (s.emit o).mem = s.mem := rfl
@[simp] theorem State.emit_ctags (o : Output) : (s.emit o).ctags = s.ctags := rfl
@[simp] theorem State.emit_bad (o : Output) : (s.emit o).bad = s.bad := rfl
@[simp] theorem State.emit_shelves (o : Output) : (s.emit o).shelves = s.shelves := rfl
@[simp] theorem State.emit_cores (o : Output) : (s.emit o).cores = s.cores := rfl
@[simp] theorem State.emit_ctxs (o : Output) : (s.emit o).ctxs = s.ctxs := rfl
@[simp] theorem State.emit_links (o : Output) : (s.emit o).links = s.links := rfl
@[simp] theorem State.emit_ports (o : Output) : (s.emit o).ports = s.ports := rfl
@[simp] theorem State.emit_queues (o : Output) : (s.emit o).queues = s.queues := rfl
@[simp] theorem State.emit_rings (o : Output) : (s.emit o).rings = s.rings := rfl
@[simp] theorem State.emit_slotWrites (o : Output) : (s.emit o).slotWrites = s.slotWrites := rfl
@[simp] theorem State.emit_evsrcs (o : Output) : (s.emit o).evsrcs = s.evsrcs := rfl
@[simp] theorem State.emit_holdoff (o : Output) : (s.emit o).holdoff = s.holdoff := rfl
@[simp] theorem State.emit_gops (o : Output) : (s.emit o).gops = s.gops := rfl
@[simp] theorem State.emit_flue (o : Output) : (s.emit o).flue = s.flue := rfl
@[simp] theorem State.emit_arrived (o : Output) : (s.emit o).arrived = s.arrived := rfl
@[simp] theorem State.emit_returned (o : Output) : (s.emit o).returned = s.returned := rfl
@[simp] theorem State.emit_granted (o : Output) : (s.emit o).granted = s.granted := rfl
@[simp] theorem State.emit_routerBad (o : Output) : (s.emit o).routerBad = s.routerBad := rfl
@[simp] theorem State.emit_retired (o : Output) : (s.emit o).retired = s.retired := rfl
@[simp] theorem State.emit_linkAlt (o : Output) : (s.emit o).linkAlt = s.linkAlt := rfl
@[simp] theorem State.emit_sys (o : Output) : (s.emit o).sys = s.sys := rfl
@[simp] theorem State.emit_keyCmd (o : Output) : (s.emit o).keyCmd = s.keyCmd := rfl
@[simp] theorem State.emit_tlbGone (o : Output) : (s.emit o).tlbGone = s.tlbGone := rfl
@[simp] theorem State.emit_hpmapNew (o : Output) : (s.emit o).hpmapNew = s.hpmapNew := rfl
@[simp] theorem State.emit_hpmapReply (o : Output) : (s.emit o).hpmapReply = s.hpmapReply := rfl
@[simp] theorem State.emit_warden (o : Output) : (s.emit o).warden = s.warden := rfl
@[simp] theorem State.emit_fuses (o : Output) : (s.emit o).fuses = s.fuses := rfl
@[simp] theorem State.emit_power (o : Output) : (s.emit o).power = s.power := rfl
@[simp] theorem State.emit_vexek (o : Output) : (s.emit o).vexek = s.vexek := rfl
@[simp] theorem State.emit_shelf_read (o : Output) (m : Nat) : (s.emit o).shelf m = s.shelf m := rfl
@[simp] theorem State.emit_core_read (o : Output) (m : Nat) : (s.emit o).core m = s.core m := rfl
@[simp] theorem State.emit_ctx_read (o : Output) (m q : Nat) : (s.emit o).ctx m q = s.ctx m q := rfl
@[simp] theorem State.emit_link_read (o : Output) (m : Nat) : (s.emit o).link m = s.link m := rfl
@[simp] theorem State.emit_port_read (o : Output) (m : Nat) : (s.emit o).port m = s.port m := rfl
@[simp] theorem State.emit_queue_read (o : Output) (m p : Nat) : (s.emit o).queue m p = s.queue m p := rfl
@[simp] theorem State.emit_ring_read (o : Output) (m : Nat) : (s.emit o).ring m = s.ring m := rfl
@[simp] theorem State.emit_gop_read (o : Output) (m : Nat) : (s.emit o).gop m = s.gop m := rfl
@[simp] theorem State.emit_entry_read (o : Output) (m j : Nat) : (s.emit o).entry m j = s.entry m j := rfl
@[simp] theorem State.emit_now_read (o : Output)  : (s.emit o).now = s.now := rfl
@[simp] theorem State.emit_byte_read (o : Output) (m : Nat) : (s.emit o).byte m = s.byte m := rfl
@[simp] theorem State.emit_isRetired_read (o : Output) (m : Nat) : (s.emit o).isRetired m = s.isRetired m := rfl
@[simp] theorem State.emit_servingShelf_read (o : Output) (m : Nat) : (s.emit o).servingShelf m = s.servingShelf m := rfl
@[simp] theorem State.emit_rdReg_read (o : Output) (h : Reg) : rdReg (s.emit o) h = rdReg s h := rfl
@[simp] theorem State.emit_getF_read (o : Output) (h : Reg) (u w : Nat) : getF (s.emit o) h u w = getF s h u w := rfl
@[simp] theorem State.emit_getB_read (o : Output) (h : Reg) (u : Nat) : getB (s.emit o) h u = getB s h u := rfl

/-! ### drawn -/
@[simp] theorem State.drawn_pending  : (s.drawn).pending = s.pending := rfl
@[simp] theorem State.drawn_outbox  : (s.drawn).outbox = s.outbox := rfl
@[simp] theorem State.drawn_tagCtr  : (s.drawn).tagCtr = s.tagCtr := rfl
@[simp] theorem State.drawn_devtime  : (s.drawn).devtime = s.devtime := rfl
@[simp] theorem State.drawn_regs  : (s.drawn).regs = s.regs := rfl
@[simp] theorem State.drawn_mem  : (s.drawn).mem = s.mem := rfl
@[simp] theorem State.drawn_ctags  : (s.drawn).ctags = s.ctags := rfl
@[simp] theorem State.drawn_bad  : (s.drawn).bad = s.bad := rfl
@[simp] theorem State.drawn_shelves  : (s.drawn).shelves = s.shelves := rfl
@[simp] theorem State.drawn_cores  : (s.drawn).cores = s.cores := rfl
@[simp] theorem State.drawn_ctxs  : (s.drawn).ctxs = s.ctxs := rfl
@[simp] theorem State.drawn_links  : (s.drawn).links = s.links := rfl
@[simp] theorem State.drawn_ports  : (s.drawn).ports = s.ports := rfl
@[simp] theorem State.drawn_queues  : (s.drawn).queues = s.queues := rfl
@[simp] theorem State.drawn_rings  : (s.drawn).rings = s.rings := rfl
@[simp] theorem State.drawn_slotWrites  : (s.drawn).slotWrites = s.slotWrites := rfl
@[simp] theorem State.drawn_evsrcs  : (s.drawn).evsrcs = s.evsrcs := rfl
@[simp] theorem State.drawn_holdoff  : (s.drawn).holdoff = s.holdoff := rfl
@[simp] theorem State.drawn_gops  : (s.drawn).gops = s.gops := rfl
@[simp] theorem State.drawn_flue  : (s.drawn).flue = s.flue := rfl
@[simp] theorem State.drawn_arrived  : (s.drawn).arrived = s.arrived := rfl
@[simp] theorem State.drawn_returned  : (s.drawn).returned = s.returned := rfl
@[simp] theorem State.drawn_granted  : (s.drawn).granted = s.granted := rfl
@[simp] theorem State.drawn_routerBad  : (s.drawn).routerBad = s.routerBad := rfl
@[simp] theorem State.drawn_retired  : (s.drawn).retired = s.retired := rfl
@[simp] theorem State.drawn_linkAlt  : (s.drawn).linkAlt = s.linkAlt := rfl
@[simp] theorem State.drawn_sys  : (s.drawn).sys = s.sys := rfl
@[simp] theorem State.drawn_keyCmd  : (s.drawn).keyCmd = s.keyCmd := rfl
@[simp] theorem State.drawn_tlbGone  : (s.drawn).tlbGone = s.tlbGone := rfl
@[simp] theorem State.drawn_hpmapNew  : (s.drawn).hpmapNew = s.hpmapNew := rfl
@[simp] theorem State.drawn_hpmapReply  : (s.drawn).hpmapReply = s.hpmapReply := rfl
@[simp] theorem State.drawn_warden  : (s.drawn).warden = s.warden := rfl
@[simp] theorem State.drawn_fuses  : (s.drawn).fuses = s.fuses := rfl
@[simp] theorem State.drawn_power  : (s.drawn).power = s.power := rfl
@[simp] theorem State.drawn_vexek  : (s.drawn).vexek = s.vexek := rfl
@[simp] theorem State.drawn_shelf_read  (m : Nat) : (s.drawn).shelf m = s.shelf m := rfl
@[simp] theorem State.drawn_core_read  (m : Nat) : (s.drawn).core m = s.core m := rfl
@[simp] theorem State.drawn_ctx_read  (m q : Nat) : (s.drawn).ctx m q = s.ctx m q := rfl
@[simp] theorem State.drawn_link_read  (m : Nat) : (s.drawn).link m = s.link m := rfl
@[simp] theorem State.drawn_port_read  (m : Nat) : (s.drawn).port m = s.port m := rfl
@[simp] theorem State.drawn_queue_read  (m p : Nat) : (s.drawn).queue m p = s.queue m p := rfl
@[simp] theorem State.drawn_ring_read  (m : Nat) : (s.drawn).ring m = s.ring m := rfl
@[simp] theorem State.drawn_gop_read  (m : Nat) : (s.drawn).gop m = s.gop m := rfl
@[simp] theorem State.drawn_entry_read  (m j : Nat) : (s.drawn).entry m j = s.entry m j := rfl
@[simp] theorem State.drawn_now_read   : (s.drawn).now = s.now := rfl
@[simp] theorem State.drawn_byte_read  (m : Nat) : (s.drawn).byte m = s.byte m := rfl
@[simp] theorem State.drawn_isRetired_read  (m : Nat) : (s.drawn).isRetired m = s.isRetired m := rfl
@[simp] theorem State.drawn_servingShelf_read  (m : Nat) : (s.drawn).servingShelf m = s.servingShelf m := rfl
@[simp] theorem State.drawn_rdReg_read  (h : Reg) : rdReg (s.drawn) h = rdReg s h := rfl
@[simp] theorem State.drawn_getF_read  (h : Reg) (u w : Nat) : getF (s.drawn) h u w = getF s h u w := rfl
@[simp] theorem State.drawn_getB_read  (h : Reg) (u : Nat) : getB (s.drawn) h u = getB s h u := rfl

/-! ### wrReg -/
@[simp] theorem wrReg_pending (g : Reg) (v : Word) : (wrReg s g v).pending = s.pending := rfl
@[simp] theorem wrReg_outbox (g : Reg) (v : Word) : (wrReg s g v).outbox = s.outbox := rfl
@[simp] theorem wrReg_freeCtr (g : Reg) (v : Word) : (wrReg s g v).freeCtr = s.freeCtr := rfl
@[simp] theorem wrReg_tagCtr (g : Reg) (v : Word) : (wrReg s g v).tagCtr = s.tagCtr := rfl
@[simp] theorem wrReg_devtime (g : Reg) (v : Word) : (wrReg s g v).devtime = s.devtime := rfl
@[simp] theorem wrReg_mem (g : Reg) (v : Word) : (wrReg s g v).mem = s.mem := rfl
@[simp] theorem wrReg_ctags (g : Reg) (v : Word) : (wrReg s g v).ctags = s.ctags := rfl
@[simp] theorem wrReg_bad (g : Reg) (v : Word) : (wrReg s g v).bad = s.bad := rfl
@[simp] theorem wrReg_shelves (g : Reg) (v : Word) : (wrReg s g v).shelves = s.shelves := rfl
@[simp] theorem wrReg_cores (g : Reg) (v : Word) : (wrReg s g v).cores = s.cores := rfl
@[simp] theorem wrReg_ctxs (g : Reg) (v : Word) : (wrReg s g v).ctxs = s.ctxs := rfl
@[simp] theorem wrReg_links (g : Reg) (v : Word) : (wrReg s g v).links = s.links := rfl
@[simp] theorem wrReg_ports (g : Reg) (v : Word) : (wrReg s g v).ports = s.ports := rfl
@[simp] theorem wrReg_queues (g : Reg) (v : Word) : (wrReg s g v).queues = s.queues := rfl
@[simp] theorem wrReg_rings (g : Reg) (v : Word) : (wrReg s g v).rings = s.rings := rfl
@[simp] theorem wrReg_slotWrites (g : Reg) (v : Word) : (wrReg s g v).slotWrites = s.slotWrites := rfl
@[simp] theorem wrReg_evsrcs (g : Reg) (v : Word) : (wrReg s g v).evsrcs = s.evsrcs := rfl
@[simp] theorem wrReg_holdoff (g : Reg) (v : Word) : (wrReg s g v).holdoff = s.holdoff := rfl
@[simp] theorem wrReg_gops (g : Reg) (v : Word) : (wrReg s g v).gops = s.gops := rfl
@[simp] theorem wrReg_flue (g : Reg) (v : Word) : (wrReg s g v).flue = s.flue := rfl
@[simp] theorem wrReg_arrived (g : Reg) (v : Word) : (wrReg s g v).arrived = s.arrived := rfl
@[simp] theorem wrReg_returned (g : Reg) (v : Word) : (wrReg s g v).returned = s.returned := rfl
@[simp] theorem wrReg_granted (g : Reg) (v : Word) : (wrReg s g v).granted = s.granted := rfl
@[simp] theorem wrReg_routerBad (g : Reg) (v : Word) : (wrReg s g v).routerBad = s.routerBad := rfl
@[simp] theorem wrReg_retired (g : Reg) (v : Word) : (wrReg s g v).retired = s.retired := rfl
@[simp] theorem wrReg_linkAlt (g : Reg) (v : Word) : (wrReg s g v).linkAlt = s.linkAlt := rfl
@[simp] theorem wrReg_sys (g : Reg) (v : Word) : (wrReg s g v).sys = s.sys := rfl
@[simp] theorem wrReg_keyCmd (g : Reg) (v : Word) : (wrReg s g v).keyCmd = s.keyCmd := rfl
@[simp] theorem wrReg_tlbGone (g : Reg) (v : Word) : (wrReg s g v).tlbGone = s.tlbGone := rfl
@[simp] theorem wrReg_hpmapNew (g : Reg) (v : Word) : (wrReg s g v).hpmapNew = s.hpmapNew := rfl
@[simp] theorem wrReg_hpmapReply (g : Reg) (v : Word) : (wrReg s g v).hpmapReply = s.hpmapReply := rfl
@[simp] theorem wrReg_warden (g : Reg) (v : Word) : (wrReg s g v).warden = s.warden := rfl
@[simp] theorem wrReg_fuses (g : Reg) (v : Word) : (wrReg s g v).fuses = s.fuses := rfl
@[simp] theorem wrReg_power (g : Reg) (v : Word) : (wrReg s g v).power = s.power := rfl
@[simp] theorem wrReg_vexek (g : Reg) (v : Word) : (wrReg s g v).vexek = s.vexek := rfl
@[simp] theorem wrReg_shelf_read (g : Reg) (v : Word) (m : Nat) : (wrReg s g v).shelf m = s.shelf m := rfl
@[simp] theorem wrReg_core_read (g : Reg) (v : Word) (m : Nat) : (wrReg s g v).core m = s.core m := rfl
@[simp] theorem wrReg_ctx_read (g : Reg) (v : Word) (m q : Nat) : (wrReg s g v).ctx m q = s.ctx m q := rfl
@[simp] theorem wrReg_link_read (g : Reg) (v : Word) (m : Nat) : (wrReg s g v).link m = s.link m := rfl
@[simp] theorem wrReg_port_read (g : Reg) (v : Word) (m : Nat) : (wrReg s g v).port m = s.port m := rfl
@[simp] theorem wrReg_queue_read (g : Reg) (v : Word) (m p : Nat) : (wrReg s g v).queue m p = s.queue m p := rfl
@[simp] theorem wrReg_ring_read (g : Reg) (v : Word) (m : Nat) : (wrReg s g v).ring m = s.ring m := rfl
@[simp] theorem wrReg_gop_read (g : Reg) (v : Word) (m : Nat) : (wrReg s g v).gop m = s.gop m := rfl
@[simp] theorem wrReg_entry_read (g : Reg) (v : Word) (m j : Nat) : (wrReg s g v).entry m j = s.entry m j := rfl
@[simp] theorem wrReg_now_read (g : Reg) (v : Word)  : (wrReg s g v).now = s.now := rfl
@[simp] theorem wrReg_byte_read (g : Reg) (v : Word) (m : Nat) : (wrReg s g v).byte m = s.byte m := rfl
@[simp] theorem wrReg_isRetired_read (g : Reg) (v : Word) (m : Nat) : (wrReg s g v).isRetired m = s.isRetired m := rfl
@[simp] theorem wrReg_servingShelf_read (g : Reg) (v : Word) (m : Nat) : (wrReg s g v).servingShelf m = s.servingShelf m := rfl

/-! ### rstReg -/
@[simp] theorem rstReg_pending (g : Reg) : (rstReg s g).pending = s.pending := rfl
@[simp] theorem rstReg_outbox (g : Reg) : (rstReg s g).outbox = s.outbox := rfl
@[simp] theorem rstReg_freeCtr (g : Reg) : (rstReg s g).freeCtr = s.freeCtr := rfl
@[simp] theorem rstReg_tagCtr (g : Reg) : (rstReg s g).tagCtr = s.tagCtr := rfl
@[simp] theorem rstReg_devtime (g : Reg) : (rstReg s g).devtime = s.devtime := rfl
@[simp] theorem rstReg_mem (g : Reg) : (rstReg s g).mem = s.mem := rfl
@[simp] theorem rstReg_ctags (g : Reg) : (rstReg s g).ctags = s.ctags := rfl
@[simp] theorem rstReg_bad (g : Reg) : (rstReg s g).bad = s.bad := rfl
@[simp] theorem rstReg_shelves (g : Reg) : (rstReg s g).shelves = s.shelves := rfl
@[simp] theorem rstReg_cores (g : Reg) : (rstReg s g).cores = s.cores := rfl
@[simp] theorem rstReg_ctxs (g : Reg) : (rstReg s g).ctxs = s.ctxs := rfl
@[simp] theorem rstReg_links (g : Reg) : (rstReg s g).links = s.links := rfl
@[simp] theorem rstReg_ports (g : Reg) : (rstReg s g).ports = s.ports := rfl
@[simp] theorem rstReg_queues (g : Reg) : (rstReg s g).queues = s.queues := rfl
@[simp] theorem rstReg_rings (g : Reg) : (rstReg s g).rings = s.rings := rfl
@[simp] theorem rstReg_slotWrites (g : Reg) : (rstReg s g).slotWrites = s.slotWrites := rfl
@[simp] theorem rstReg_evsrcs (g : Reg) : (rstReg s g).evsrcs = s.evsrcs := rfl
@[simp] theorem rstReg_holdoff (g : Reg) : (rstReg s g).holdoff = s.holdoff := rfl
@[simp] theorem rstReg_gops (g : Reg) : (rstReg s g).gops = s.gops := rfl
@[simp] theorem rstReg_flue (g : Reg) : (rstReg s g).flue = s.flue := rfl
@[simp] theorem rstReg_arrived (g : Reg) : (rstReg s g).arrived = s.arrived := rfl
@[simp] theorem rstReg_returned (g : Reg) : (rstReg s g).returned = s.returned := rfl
@[simp] theorem rstReg_granted (g : Reg) : (rstReg s g).granted = s.granted := rfl
@[simp] theorem rstReg_routerBad (g : Reg) : (rstReg s g).routerBad = s.routerBad := rfl
@[simp] theorem rstReg_retired (g : Reg) : (rstReg s g).retired = s.retired := rfl
@[simp] theorem rstReg_linkAlt (g : Reg) : (rstReg s g).linkAlt = s.linkAlt := rfl
@[simp] theorem rstReg_sys (g : Reg) : (rstReg s g).sys = s.sys := rfl
@[simp] theorem rstReg_keyCmd (g : Reg) : (rstReg s g).keyCmd = s.keyCmd := rfl
@[simp] theorem rstReg_tlbGone (g : Reg) : (rstReg s g).tlbGone = s.tlbGone := rfl
@[simp] theorem rstReg_hpmapNew (g : Reg) : (rstReg s g).hpmapNew = s.hpmapNew := rfl
@[simp] theorem rstReg_hpmapReply (g : Reg) : (rstReg s g).hpmapReply = s.hpmapReply := rfl
@[simp] theorem rstReg_warden (g : Reg) : (rstReg s g).warden = s.warden := rfl
@[simp] theorem rstReg_fuses (g : Reg) : (rstReg s g).fuses = s.fuses := rfl
@[simp] theorem rstReg_power (g : Reg) : (rstReg s g).power = s.power := rfl
@[simp] theorem rstReg_vexek (g : Reg) : (rstReg s g).vexek = s.vexek := rfl
@[simp] theorem rstReg_shelf_read (g : Reg) (m : Nat) : (rstReg s g).shelf m = s.shelf m := rfl
@[simp] theorem rstReg_core_read (g : Reg) (m : Nat) : (rstReg s g).core m = s.core m := rfl
@[simp] theorem rstReg_ctx_read (g : Reg) (m q : Nat) : (rstReg s g).ctx m q = s.ctx m q := rfl
@[simp] theorem rstReg_link_read (g : Reg) (m : Nat) : (rstReg s g).link m = s.link m := rfl
@[simp] theorem rstReg_port_read (g : Reg) (m : Nat) : (rstReg s g).port m = s.port m := rfl
@[simp] theorem rstReg_queue_read (g : Reg) (m p : Nat) : (rstReg s g).queue m p = s.queue m p := rfl
@[simp] theorem rstReg_ring_read (g : Reg) (m : Nat) : (rstReg s g).ring m = s.ring m := rfl
@[simp] theorem rstReg_gop_read (g : Reg) (m : Nat) : (rstReg s g).gop m = s.gop m := rfl
@[simp] theorem rstReg_entry_read (g : Reg) (m j : Nat) : (rstReg s g).entry m j = s.entry m j := rfl
@[simp] theorem rstReg_now_read (g : Reg)  : (rstReg s g).now = s.now := rfl
@[simp] theorem rstReg_byte_read (g : Reg) (m : Nat) : (rstReg s g).byte m = s.byte m := rfl
@[simp] theorem rstReg_isRetired_read (g : Reg) (m : Nat) : (rstReg s g).isRetired m = s.isRetired m := rfl
@[simp] theorem rstReg_servingShelf_read (g : Reg) (m : Nat) : (rstReg s g).servingShelf m = s.servingShelf m := rfl

/-! ### setF -/
@[simp] theorem setF_pending (g : Reg) (hi lo x : Nat) : (setF s g hi lo x).pending = s.pending := rfl
@[simp] theorem setF_outbox (g : Reg) (hi lo x : Nat) : (setF s g hi lo x).outbox = s.outbox := rfl
@[simp] theorem setF_freeCtr (g : Reg) (hi lo x : Nat) : (setF s g hi lo x).freeCtr = s.freeCtr := rfl
@[simp] theorem setF_tagCtr (g : Reg) (hi lo x : Nat) : (setF s g hi lo x).tagCtr = s.tagCtr := rfl
@[simp] theorem setF_devtime (g : Reg) (hi lo x : Nat) : (setF s g hi lo x).devtime = s.devtime := rfl
@[simp] theorem setF_mem (g : Reg) (hi lo x : Nat) : (setF s g hi lo x).mem = s.mem := rfl
@[simp] theorem setF_ctags (g : Reg) (hi lo x : Nat) : (setF s g hi lo x).ctags = s.ctags := rfl
@[simp] theorem setF_bad (g : Reg) (hi lo x : Nat) : (setF s g hi lo x).bad = s.bad := rfl
@[simp] theorem setF_shelves (g : Reg) (hi lo x : Nat) : (setF s g hi lo x).shelves = s.shelves := rfl
@[simp] theorem setF_cores (g : Reg) (hi lo x : Nat) : (setF s g hi lo x).cores = s.cores := rfl
@[simp] theorem setF_ctxs (g : Reg) (hi lo x : Nat) : (setF s g hi lo x).ctxs = s.ctxs := rfl
@[simp] theorem setF_links (g : Reg) (hi lo x : Nat) : (setF s g hi lo x).links = s.links := rfl
@[simp] theorem setF_ports (g : Reg) (hi lo x : Nat) : (setF s g hi lo x).ports = s.ports := rfl
@[simp] theorem setF_queues (g : Reg) (hi lo x : Nat) : (setF s g hi lo x).queues = s.queues := rfl
@[simp] theorem setF_rings (g : Reg) (hi lo x : Nat) : (setF s g hi lo x).rings = s.rings := rfl
@[simp] theorem setF_slotWrites (g : Reg) (hi lo x : Nat) : (setF s g hi lo x).slotWrites = s.slotWrites := rfl
@[simp] theorem setF_evsrcs (g : Reg) (hi lo x : Nat) : (setF s g hi lo x).evsrcs = s.evsrcs := rfl
@[simp] theorem setF_holdoff (g : Reg) (hi lo x : Nat) : (setF s g hi lo x).holdoff = s.holdoff := rfl
@[simp] theorem setF_gops (g : Reg) (hi lo x : Nat) : (setF s g hi lo x).gops = s.gops := rfl
@[simp] theorem setF_flue (g : Reg) (hi lo x : Nat) : (setF s g hi lo x).flue = s.flue := rfl
@[simp] theorem setF_arrived (g : Reg) (hi lo x : Nat) : (setF s g hi lo x).arrived = s.arrived := rfl
@[simp] theorem setF_returned (g : Reg) (hi lo x : Nat) : (setF s g hi lo x).returned = s.returned := rfl
@[simp] theorem setF_granted (g : Reg) (hi lo x : Nat) : (setF s g hi lo x).granted = s.granted := rfl
@[simp] theorem setF_routerBad (g : Reg) (hi lo x : Nat) : (setF s g hi lo x).routerBad = s.routerBad := rfl
@[simp] theorem setF_retired (g : Reg) (hi lo x : Nat) : (setF s g hi lo x).retired = s.retired := rfl
@[simp] theorem setF_linkAlt (g : Reg) (hi lo x : Nat) : (setF s g hi lo x).linkAlt = s.linkAlt := rfl
@[simp] theorem setF_sys (g : Reg) (hi lo x : Nat) : (setF s g hi lo x).sys = s.sys := rfl
@[simp] theorem setF_keyCmd (g : Reg) (hi lo x : Nat) : (setF s g hi lo x).keyCmd = s.keyCmd := rfl
@[simp] theorem setF_tlbGone (g : Reg) (hi lo x : Nat) : (setF s g hi lo x).tlbGone = s.tlbGone := rfl
@[simp] theorem setF_hpmapNew (g : Reg) (hi lo x : Nat) : (setF s g hi lo x).hpmapNew = s.hpmapNew := rfl
@[simp] theorem setF_hpmapReply (g : Reg) (hi lo x : Nat) : (setF s g hi lo x).hpmapReply = s.hpmapReply := rfl
@[simp] theorem setF_warden (g : Reg) (hi lo x : Nat) : (setF s g hi lo x).warden = s.warden := rfl
@[simp] theorem setF_fuses (g : Reg) (hi lo x : Nat) : (setF s g hi lo x).fuses = s.fuses := rfl
@[simp] theorem setF_power (g : Reg) (hi lo x : Nat) : (setF s g hi lo x).power = s.power := rfl
@[simp] theorem setF_vexek (g : Reg) (hi lo x : Nat) : (setF s g hi lo x).vexek = s.vexek := rfl
@[simp] theorem setF_shelf_read (g : Reg) (hi lo x : Nat) (m : Nat) : (setF s g hi lo x).shelf m = s.shelf m := rfl
@[simp] theorem setF_core_read (g : Reg) (hi lo x : Nat) (m : Nat) : (setF s g hi lo x).core m = s.core m := rfl
@[simp] theorem setF_ctx_read (g : Reg) (hi lo x : Nat) (m q : Nat) : (setF s g hi lo x).ctx m q = s.ctx m q := rfl
@[simp] theorem setF_link_read (g : Reg) (hi lo x : Nat) (m : Nat) : (setF s g hi lo x).link m = s.link m := rfl
@[simp] theorem setF_port_read (g : Reg) (hi lo x : Nat) (m : Nat) : (setF s g hi lo x).port m = s.port m := rfl
@[simp] theorem setF_queue_read (g : Reg) (hi lo x : Nat) (m p : Nat) : (setF s g hi lo x).queue m p = s.queue m p := rfl
@[simp] theorem setF_ring_read (g : Reg) (hi lo x : Nat) (m : Nat) : (setF s g hi lo x).ring m = s.ring m := rfl
@[simp] theorem setF_gop_read (g : Reg) (hi lo x : Nat) (m : Nat) : (setF s g hi lo x).gop m = s.gop m := rfl
@[simp] theorem setF_entry_read (g : Reg) (hi lo x : Nat) (m j : Nat) : (setF s g hi lo x).entry m j = s.entry m j := rfl
@[simp] theorem setF_now_read (g : Reg) (hi lo x : Nat)  : (setF s g hi lo x).now = s.now := rfl
@[simp] theorem setF_byte_read (g : Reg) (hi lo x : Nat) (m : Nat) : (setF s g hi lo x).byte m = s.byte m := rfl
@[simp] theorem setF_isRetired_read (g : Reg) (hi lo x : Nat) (m : Nat) : (setF s g hi lo x).isRetired m = s.isRetired m := rfl
@[simp] theorem setF_servingShelf_read (g : Reg) (hi lo x : Nat) (m : Nat) : (setF s g hi lo x).servingShelf m = s.servingShelf m := rfl

/-! ### setB -/
@[simp] theorem setB_pending (g : Reg) (i : Nat) (b : Bool) : (setB s g i b).pending = s.pending := rfl
@[simp] theorem setB_outbox (g : Reg) (i : Nat) (b : Bool) : (setB s g i b).outbox = s.outbox := rfl
@[simp] theorem setB_freeCtr (g : Reg) (i : Nat) (b : Bool) : (setB s g i b).freeCtr = s.freeCtr := rfl
@[simp] theorem setB_tagCtr (g : Reg) (i : Nat) (b : Bool) : (setB s g i b).tagCtr = s.tagCtr := rfl
@[simp] theorem setB_devtime (g : Reg) (i : Nat) (b : Bool) : (setB s g i b).devtime = s.devtime := rfl
@[simp] theorem setB_mem (g : Reg) (i : Nat) (b : Bool) : (setB s g i b).mem = s.mem := rfl
@[simp] theorem setB_ctags (g : Reg) (i : Nat) (b : Bool) : (setB s g i b).ctags = s.ctags := rfl
@[simp] theorem setB_bad (g : Reg) (i : Nat) (b : Bool) : (setB s g i b).bad = s.bad := rfl
@[simp] theorem setB_shelves (g : Reg) (i : Nat) (b : Bool) : (setB s g i b).shelves = s.shelves := rfl
@[simp] theorem setB_cores (g : Reg) (i : Nat) (b : Bool) : (setB s g i b).cores = s.cores := rfl
@[simp] theorem setB_ctxs (g : Reg) (i : Nat) (b : Bool) : (setB s g i b).ctxs = s.ctxs := rfl
@[simp] theorem setB_links (g : Reg) (i : Nat) (b : Bool) : (setB s g i b).links = s.links := rfl
@[simp] theorem setB_ports (g : Reg) (i : Nat) (b : Bool) : (setB s g i b).ports = s.ports := rfl
@[simp] theorem setB_queues (g : Reg) (i : Nat) (b : Bool) : (setB s g i b).queues = s.queues := rfl
@[simp] theorem setB_rings (g : Reg) (i : Nat) (b : Bool) : (setB s g i b).rings = s.rings := rfl
@[simp] theorem setB_slotWrites (g : Reg) (i : Nat) (b : Bool) : (setB s g i b).slotWrites = s.slotWrites := rfl
@[simp] theorem setB_evsrcs (g : Reg) (i : Nat) (b : Bool) : (setB s g i b).evsrcs = s.evsrcs := rfl
@[simp] theorem setB_holdoff (g : Reg) (i : Nat) (b : Bool) : (setB s g i b).holdoff = s.holdoff := rfl
@[simp] theorem setB_gops (g : Reg) (i : Nat) (b : Bool) : (setB s g i b).gops = s.gops := rfl
@[simp] theorem setB_flue (g : Reg) (i : Nat) (b : Bool) : (setB s g i b).flue = s.flue := rfl
@[simp] theorem setB_arrived (g : Reg) (i : Nat) (b : Bool) : (setB s g i b).arrived = s.arrived := rfl
@[simp] theorem setB_returned (g : Reg) (i : Nat) (b : Bool) : (setB s g i b).returned = s.returned := rfl
@[simp] theorem setB_granted (g : Reg) (i : Nat) (b : Bool) : (setB s g i b).granted = s.granted := rfl
@[simp] theorem setB_routerBad (g : Reg) (i : Nat) (b : Bool) : (setB s g i b).routerBad = s.routerBad := rfl
@[simp] theorem setB_retired (g : Reg) (i : Nat) (b : Bool) : (setB s g i b).retired = s.retired := rfl
@[simp] theorem setB_linkAlt (g : Reg) (i : Nat) (b : Bool) : (setB s g i b).linkAlt = s.linkAlt := rfl
@[simp] theorem setB_sys (g : Reg) (i : Nat) (b : Bool) : (setB s g i b).sys = s.sys := rfl
@[simp] theorem setB_keyCmd (g : Reg) (i : Nat) (b : Bool) : (setB s g i b).keyCmd = s.keyCmd := rfl
@[simp] theorem setB_tlbGone (g : Reg) (i : Nat) (b : Bool) : (setB s g i b).tlbGone = s.tlbGone := rfl
@[simp] theorem setB_hpmapNew (g : Reg) (i : Nat) (b : Bool) : (setB s g i b).hpmapNew = s.hpmapNew := rfl
@[simp] theorem setB_hpmapReply (g : Reg) (i : Nat) (b : Bool) : (setB s g i b).hpmapReply = s.hpmapReply := rfl
@[simp] theorem setB_warden (g : Reg) (i : Nat) (b : Bool) : (setB s g i b).warden = s.warden := rfl
@[simp] theorem setB_fuses (g : Reg) (i : Nat) (b : Bool) : (setB s g i b).fuses = s.fuses := rfl
@[simp] theorem setB_power (g : Reg) (i : Nat) (b : Bool) : (setB s g i b).power = s.power := rfl
@[simp] theorem setB_vexek (g : Reg) (i : Nat) (b : Bool) : (setB s g i b).vexek = s.vexek := rfl
@[simp] theorem setB_shelf_read (g : Reg) (i : Nat) (b : Bool) (m : Nat) : (setB s g i b).shelf m = s.shelf m := rfl
@[simp] theorem setB_core_read (g : Reg) (i : Nat) (b : Bool) (m : Nat) : (setB s g i b).core m = s.core m := rfl
@[simp] theorem setB_ctx_read (g : Reg) (i : Nat) (b : Bool) (m q : Nat) : (setB s g i b).ctx m q = s.ctx m q := rfl
@[simp] theorem setB_link_read (g : Reg) (i : Nat) (b : Bool) (m : Nat) : (setB s g i b).link m = s.link m := rfl
@[simp] theorem setB_port_read (g : Reg) (i : Nat) (b : Bool) (m : Nat) : (setB s g i b).port m = s.port m := rfl
@[simp] theorem setB_queue_read (g : Reg) (i : Nat) (b : Bool) (m p : Nat) : (setB s g i b).queue m p = s.queue m p := rfl
@[simp] theorem setB_ring_read (g : Reg) (i : Nat) (b : Bool) (m : Nat) : (setB s g i b).ring m = s.ring m := rfl
@[simp] theorem setB_gop_read (g : Reg) (i : Nat) (b : Bool) (m : Nat) : (setB s g i b).gop m = s.gop m := rfl
@[simp] theorem setB_entry_read (g : Reg) (i : Nat) (b : Bool) (m j : Nat) : (setB s g i b).entry m j = s.entry m j := rfl
@[simp] theorem setB_now_read (g : Reg) (i : Nat) (b : Bool)  : (setB s g i b).now = s.now := rfl
@[simp] theorem setB_byte_read (g : Reg) (i : Nat) (b : Bool) (m : Nat) : (setB s g i b).byte m = s.byte m := rfl
@[simp] theorem setB_isRetired_read (g : Reg) (i : Nat) (b : Bool) (m : Nat) : (setB s g i b).isRetired m = s.isRetired m := rfl
@[simp] theorem setB_servingShelf_read (g : Reg) (i : Nat) (b : Bool) (m : Nat) : (setB s g i b).servingShelf m = s.servingShelf m := rfl

/-! ### bumpF -/
@[simp] theorem bumpF_pending (g : Reg) (hi lo x : Nat) : (bumpF s g hi lo x).pending = s.pending := rfl
@[simp] theorem bumpF_outbox (g : Reg) (hi lo x : Nat) : (bumpF s g hi lo x).outbox = s.outbox := rfl
@[simp] theorem bumpF_freeCtr (g : Reg) (hi lo x : Nat) : (bumpF s g hi lo x).freeCtr = s.freeCtr := rfl
@[simp] theorem bumpF_tagCtr (g : Reg) (hi lo x : Nat) : (bumpF s g hi lo x).tagCtr = s.tagCtr := rfl
@[simp] theorem bumpF_devtime (g : Reg) (hi lo x : Nat) : (bumpF s g hi lo x).devtime = s.devtime := rfl
@[simp] theorem bumpF_mem (g : Reg) (hi lo x : Nat) : (bumpF s g hi lo x).mem = s.mem := rfl
@[simp] theorem bumpF_ctags (g : Reg) (hi lo x : Nat) : (bumpF s g hi lo x).ctags = s.ctags := rfl
@[simp] theorem bumpF_bad (g : Reg) (hi lo x : Nat) : (bumpF s g hi lo x).bad = s.bad := rfl
@[simp] theorem bumpF_shelves (g : Reg) (hi lo x : Nat) : (bumpF s g hi lo x).shelves = s.shelves := rfl
@[simp] theorem bumpF_cores (g : Reg) (hi lo x : Nat) : (bumpF s g hi lo x).cores = s.cores := rfl
@[simp] theorem bumpF_ctxs (g : Reg) (hi lo x : Nat) : (bumpF s g hi lo x).ctxs = s.ctxs := rfl
@[simp] theorem bumpF_links (g : Reg) (hi lo x : Nat) : (bumpF s g hi lo x).links = s.links := rfl
@[simp] theorem bumpF_ports (g : Reg) (hi lo x : Nat) : (bumpF s g hi lo x).ports = s.ports := rfl
@[simp] theorem bumpF_queues (g : Reg) (hi lo x : Nat) : (bumpF s g hi lo x).queues = s.queues := rfl
@[simp] theorem bumpF_rings (g : Reg) (hi lo x : Nat) : (bumpF s g hi lo x).rings = s.rings := rfl
@[simp] theorem bumpF_slotWrites (g : Reg) (hi lo x : Nat) : (bumpF s g hi lo x).slotWrites = s.slotWrites := rfl
@[simp] theorem bumpF_evsrcs (g : Reg) (hi lo x : Nat) : (bumpF s g hi lo x).evsrcs = s.evsrcs := rfl
@[simp] theorem bumpF_holdoff (g : Reg) (hi lo x : Nat) : (bumpF s g hi lo x).holdoff = s.holdoff := rfl
@[simp] theorem bumpF_gops (g : Reg) (hi lo x : Nat) : (bumpF s g hi lo x).gops = s.gops := rfl
@[simp] theorem bumpF_flue (g : Reg) (hi lo x : Nat) : (bumpF s g hi lo x).flue = s.flue := rfl
@[simp] theorem bumpF_arrived (g : Reg) (hi lo x : Nat) : (bumpF s g hi lo x).arrived = s.arrived := rfl
@[simp] theorem bumpF_returned (g : Reg) (hi lo x : Nat) : (bumpF s g hi lo x).returned = s.returned := rfl
@[simp] theorem bumpF_granted (g : Reg) (hi lo x : Nat) : (bumpF s g hi lo x).granted = s.granted := rfl
@[simp] theorem bumpF_routerBad (g : Reg) (hi lo x : Nat) : (bumpF s g hi lo x).routerBad = s.routerBad := rfl
@[simp] theorem bumpF_retired (g : Reg) (hi lo x : Nat) : (bumpF s g hi lo x).retired = s.retired := rfl
@[simp] theorem bumpF_linkAlt (g : Reg) (hi lo x : Nat) : (bumpF s g hi lo x).linkAlt = s.linkAlt := rfl
@[simp] theorem bumpF_sys (g : Reg) (hi lo x : Nat) : (bumpF s g hi lo x).sys = s.sys := rfl
@[simp] theorem bumpF_keyCmd (g : Reg) (hi lo x : Nat) : (bumpF s g hi lo x).keyCmd = s.keyCmd := rfl
@[simp] theorem bumpF_tlbGone (g : Reg) (hi lo x : Nat) : (bumpF s g hi lo x).tlbGone = s.tlbGone := rfl
@[simp] theorem bumpF_hpmapNew (g : Reg) (hi lo x : Nat) : (bumpF s g hi lo x).hpmapNew = s.hpmapNew := rfl
@[simp] theorem bumpF_hpmapReply (g : Reg) (hi lo x : Nat) : (bumpF s g hi lo x).hpmapReply = s.hpmapReply := rfl
@[simp] theorem bumpF_warden (g : Reg) (hi lo x : Nat) : (bumpF s g hi lo x).warden = s.warden := rfl
@[simp] theorem bumpF_fuses (g : Reg) (hi lo x : Nat) : (bumpF s g hi lo x).fuses = s.fuses := rfl
@[simp] theorem bumpF_power (g : Reg) (hi lo x : Nat) : (bumpF s g hi lo x).power = s.power := rfl
@[simp] theorem bumpF_vexek (g : Reg) (hi lo x : Nat) : (bumpF s g hi lo x).vexek = s.vexek := rfl
@[simp] theorem bumpF_shelf_read (g : Reg) (hi lo x : Nat) (m : Nat) : (bumpF s g hi lo x).shelf m = s.shelf m := rfl
@[simp] theorem bumpF_core_read (g : Reg) (hi lo x : Nat) (m : Nat) : (bumpF s g hi lo x).core m = s.core m := rfl
@[simp] theorem bumpF_ctx_read (g : Reg) (hi lo x : Nat) (m q : Nat) : (bumpF s g hi lo x).ctx m q = s.ctx m q := rfl
@[simp] theorem bumpF_link_read (g : Reg) (hi lo x : Nat) (m : Nat) : (bumpF s g hi lo x).link m = s.link m := rfl
@[simp] theorem bumpF_port_read (g : Reg) (hi lo x : Nat) (m : Nat) : (bumpF s g hi lo x).port m = s.port m := rfl
@[simp] theorem bumpF_queue_read (g : Reg) (hi lo x : Nat) (m p : Nat) : (bumpF s g hi lo x).queue m p = s.queue m p := rfl
@[simp] theorem bumpF_ring_read (g : Reg) (hi lo x : Nat) (m : Nat) : (bumpF s g hi lo x).ring m = s.ring m := rfl
@[simp] theorem bumpF_gop_read (g : Reg) (hi lo x : Nat) (m : Nat) : (bumpF s g hi lo x).gop m = s.gop m := rfl
@[simp] theorem bumpF_entry_read (g : Reg) (hi lo x : Nat) (m j : Nat) : (bumpF s g hi lo x).entry m j = s.entry m j := rfl
@[simp] theorem bumpF_now_read (g : Reg) (hi lo x : Nat)  : (bumpF s g hi lo x).now = s.now := rfl
@[simp] theorem bumpF_byte_read (g : Reg) (hi lo x : Nat) (m : Nat) : (bumpF s g hi lo x).byte m = s.byte m := rfl
@[simp] theorem bumpF_isRetired_read (g : Reg) (hi lo x : Nat) (m : Nat) : (bumpF s g hi lo x).isRetired m = s.isRetired m := rfl
@[simp] theorem bumpF_servingShelf_read (g : Reg) (hi lo x : Nat) (m : Nat) : (bumpF s g hi lo x).servingShelf m = s.servingShelf m := rfl

/-! ### store -/
@[simp] theorem State.store_pending (a : Nat) (b : List Byte) : (s.store a b).pending = s.pending := by unfold State.store; split <;> rfl
@[simp] theorem State.store_outbox (a : Nat) (b : List Byte) : (s.store a b).outbox = s.outbox := by unfold State.store; split <;> rfl
@[simp] theorem State.store_freeCtr (a : Nat) (b : List Byte) : (s.store a b).freeCtr = s.freeCtr := by unfold State.store; split <;> rfl
@[simp] theorem State.store_tagCtr (a : Nat) (b : List Byte) : (s.store a b).tagCtr = s.tagCtr := by unfold State.store; split <;> rfl
@[simp] theorem State.store_devtime (a : Nat) (b : List Byte) : (s.store a b).devtime = s.devtime := by unfold State.store; split <;> rfl
@[simp] theorem State.store_regs (a : Nat) (b : List Byte) : (s.store a b).regs = s.regs := by unfold State.store; split <;> rfl
@[simp] theorem State.store_shelves (a : Nat) (b : List Byte) : (s.store a b).shelves = s.shelves := by unfold State.store; split <;> rfl
@[simp] theorem State.store_cores (a : Nat) (b : List Byte) : (s.store a b).cores = s.cores := by unfold State.store; split <;> rfl
@[simp] theorem State.store_ctxs (a : Nat) (b : List Byte) : (s.store a b).ctxs = s.ctxs := by unfold State.store; split <;> rfl
@[simp] theorem State.store_links (a : Nat) (b : List Byte) : (s.store a b).links = s.links := by unfold State.store; split <;> rfl
@[simp] theorem State.store_ports (a : Nat) (b : List Byte) : (s.store a b).ports = s.ports := by unfold State.store; split <;> rfl
@[simp] theorem State.store_queues (a : Nat) (b : List Byte) : (s.store a b).queues = s.queues := by unfold State.store; split <;> rfl
@[simp] theorem State.store_rings (a : Nat) (b : List Byte) : (s.store a b).rings = s.rings := by unfold State.store; split <;> rfl
@[simp] theorem State.store_slotWrites (a : Nat) (b : List Byte) : (s.store a b).slotWrites = s.slotWrites := by unfold State.store; split <;> rfl
@[simp] theorem State.store_evsrcs (a : Nat) (b : List Byte) : (s.store a b).evsrcs = s.evsrcs := by unfold State.store; split <;> rfl
@[simp] theorem State.store_holdoff (a : Nat) (b : List Byte) : (s.store a b).holdoff = s.holdoff := by unfold State.store; split <;> rfl
@[simp] theorem State.store_gops (a : Nat) (b : List Byte) : (s.store a b).gops = s.gops := by unfold State.store; split <;> rfl
@[simp] theorem State.store_flue (a : Nat) (b : List Byte) : (s.store a b).flue = s.flue := by unfold State.store; split <;> rfl
@[simp] theorem State.store_arrived (a : Nat) (b : List Byte) : (s.store a b).arrived = s.arrived := by unfold State.store; split <;> rfl
@[simp] theorem State.store_returned (a : Nat) (b : List Byte) : (s.store a b).returned = s.returned := by unfold State.store; split <;> rfl
@[simp] theorem State.store_granted (a : Nat) (b : List Byte) : (s.store a b).granted = s.granted := by unfold State.store; split <;> rfl
@[simp] theorem State.store_routerBad (a : Nat) (b : List Byte) : (s.store a b).routerBad = s.routerBad := by unfold State.store; split <;> rfl
@[simp] theorem State.store_retired (a : Nat) (b : List Byte) : (s.store a b).retired = s.retired := by unfold State.store; split <;> rfl
@[simp] theorem State.store_linkAlt (a : Nat) (b : List Byte) : (s.store a b).linkAlt = s.linkAlt := by unfold State.store; split <;> rfl
@[simp] theorem State.store_sys (a : Nat) (b : List Byte) : (s.store a b).sys = s.sys := by unfold State.store; split <;> rfl
@[simp] theorem State.store_keyCmd (a : Nat) (b : List Byte) : (s.store a b).keyCmd = s.keyCmd := by unfold State.store; split <;> rfl
@[simp] theorem State.store_tlbGone (a : Nat) (b : List Byte) : (s.store a b).tlbGone = s.tlbGone := by unfold State.store; split <;> rfl
@[simp] theorem State.store_hpmapNew (a : Nat) (b : List Byte) : (s.store a b).hpmapNew = s.hpmapNew := by unfold State.store; split <;> rfl
@[simp] theorem State.store_hpmapReply (a : Nat) (b : List Byte) : (s.store a b).hpmapReply = s.hpmapReply := by unfold State.store; split <;> rfl
@[simp] theorem State.store_warden (a : Nat) (b : List Byte) : (s.store a b).warden = s.warden := by unfold State.store; split <;> rfl
@[simp] theorem State.store_fuses (a : Nat) (b : List Byte) : (s.store a b).fuses = s.fuses := by unfold State.store; split <;> rfl
@[simp] theorem State.store_power (a : Nat) (b : List Byte) : (s.store a b).power = s.power := by unfold State.store; split <;> rfl
@[simp] theorem State.store_vexek (a : Nat) (b : List Byte) : (s.store a b).vexek = s.vexek := by unfold State.store; split <;> rfl
@[simp] theorem State.store_shelf_read (a : Nat) (b : List Byte) (m : Nat) : (s.store a b).shelf m = s.shelf m := by unfold State.store; split <;> rfl
@[simp] theorem State.store_core_read (a : Nat) (b : List Byte) (m : Nat) : (s.store a b).core m = s.core m := by unfold State.store; split <;> rfl
@[simp] theorem State.store_ctx_read (a : Nat) (b : List Byte) (m q : Nat) : (s.store a b).ctx m q = s.ctx m q := by unfold State.store; split <;> rfl
@[simp] theorem State.store_link_read (a : Nat) (b : List Byte) (m : Nat) : (s.store a b).link m = s.link m := by unfold State.store; split <;> rfl
@[simp] theorem State.store_port_read (a : Nat) (b : List Byte) (m : Nat) : (s.store a b).port m = s.port m := by unfold State.store; split <;> rfl
@[simp] theorem State.store_queue_read (a : Nat) (b : List Byte) (m p : Nat) : (s.store a b).queue m p = s.queue m p := by unfold State.store; split <;> rfl
@[simp] theorem State.store_ring_read (a : Nat) (b : List Byte) (m : Nat) : (s.store a b).ring m = s.ring m := by unfold State.store; split <;> rfl
@[simp] theorem State.store_gop_read (a : Nat) (b : List Byte) (m : Nat) : (s.store a b).gop m = s.gop m := by unfold State.store; split <;> rfl
@[simp] theorem State.store_entry_read (a : Nat) (b : List Byte) (m j : Nat) : (s.store a b).entry m j = s.entry m j := by unfold State.store; split <;> rfl
@[simp] theorem State.store_now_read (a : Nat) (b : List Byte)  : (s.store a b).now = s.now := by unfold State.store; split <;> rfl
@[simp] theorem State.store_isRetired_read (a : Nat) (b : List Byte) (m : Nat) : (s.store a b).isRetired m = s.isRetired m := by unfold State.store; split <;> rfl
@[simp] theorem State.store_servingShelf_read (a : Nat) (b : List Byte) (m : Nat) : (s.store a b).servingShelf m = s.servingShelf m := by unfold State.store; split <;> rfl
@[simp] theorem State.store_rdReg_read (a : Nat) (b : List Byte) (h : Reg) : rdReg (s.store a b) h = rdReg s h := by simp only [rdReg, State.store_regs, State.store_fuses]
@[simp] theorem State.store_getF_read (a : Nat) (b : List Byte) (h : Reg) (u w : Nat) : getF (s.store a b) h u w = getF s h u w := by simp only [getF, rdReg, State.store_regs, State.store_fuses]
@[simp] theorem State.store_getB_read (a : Nat) (b : List Byte) (h : Reg) (u : Nat) : getB (s.store a b) h u = getB s h u := by simp only [getB, rdReg, State.store_regs, State.store_fuses]

/-! ### storeWords -/
@[simp] theorem State.storeWords_pending (a : Nat) (ws : List Word) : (s.storeWords a ws).pending = s.pending := State.store_pending s a _
@[simp] theorem State.storeWords_outbox (a : Nat) (ws : List Word) : (s.storeWords a ws).outbox = s.outbox := State.store_outbox s a _
@[simp] theorem State.storeWords_freeCtr (a : Nat) (ws : List Word) : (s.storeWords a ws).freeCtr = s.freeCtr := State.store_freeCtr s a _
@[simp] theorem State.storeWords_tagCtr (a : Nat) (ws : List Word) : (s.storeWords a ws).tagCtr = s.tagCtr := State.store_tagCtr s a _
@[simp] theorem State.storeWords_devtime (a : Nat) (ws : List Word) : (s.storeWords a ws).devtime = s.devtime := State.store_devtime s a _
@[simp] theorem State.storeWords_regs (a : Nat) (ws : List Word) : (s.storeWords a ws).regs = s.regs := State.store_regs s a _
@[simp] theorem State.storeWords_shelves (a : Nat) (ws : List Word) : (s.storeWords a ws).shelves = s.shelves := State.store_shelves s a _
@[simp] theorem State.storeWords_cores (a : Nat) (ws : List Word) : (s.storeWords a ws).cores = s.cores := State.store_cores s a _
@[simp] theorem State.storeWords_ctxs (a : Nat) (ws : List Word) : (s.storeWords a ws).ctxs = s.ctxs := State.store_ctxs s a _
@[simp] theorem State.storeWords_links (a : Nat) (ws : List Word) : (s.storeWords a ws).links = s.links := State.store_links s a _
@[simp] theorem State.storeWords_ports (a : Nat) (ws : List Word) : (s.storeWords a ws).ports = s.ports := State.store_ports s a _
@[simp] theorem State.storeWords_queues (a : Nat) (ws : List Word) : (s.storeWords a ws).queues = s.queues := State.store_queues s a _
@[simp] theorem State.storeWords_rings (a : Nat) (ws : List Word) : (s.storeWords a ws).rings = s.rings := State.store_rings s a _
@[simp] theorem State.storeWords_slotWrites (a : Nat) (ws : List Word) : (s.storeWords a ws).slotWrites = s.slotWrites := State.store_slotWrites s a _
@[simp] theorem State.storeWords_evsrcs (a : Nat) (ws : List Word) : (s.storeWords a ws).evsrcs = s.evsrcs := State.store_evsrcs s a _
@[simp] theorem State.storeWords_holdoff (a : Nat) (ws : List Word) : (s.storeWords a ws).holdoff = s.holdoff := State.store_holdoff s a _
@[simp] theorem State.storeWords_gops (a : Nat) (ws : List Word) : (s.storeWords a ws).gops = s.gops := State.store_gops s a _
@[simp] theorem State.storeWords_flue (a : Nat) (ws : List Word) : (s.storeWords a ws).flue = s.flue := State.store_flue s a _
@[simp] theorem State.storeWords_arrived (a : Nat) (ws : List Word) : (s.storeWords a ws).arrived = s.arrived := State.store_arrived s a _
@[simp] theorem State.storeWords_returned (a : Nat) (ws : List Word) : (s.storeWords a ws).returned = s.returned := State.store_returned s a _
@[simp] theorem State.storeWords_granted (a : Nat) (ws : List Word) : (s.storeWords a ws).granted = s.granted := State.store_granted s a _
@[simp] theorem State.storeWords_routerBad (a : Nat) (ws : List Word) : (s.storeWords a ws).routerBad = s.routerBad := State.store_routerBad s a _
@[simp] theorem State.storeWords_retired (a : Nat) (ws : List Word) : (s.storeWords a ws).retired = s.retired := State.store_retired s a _
@[simp] theorem State.storeWords_linkAlt (a : Nat) (ws : List Word) : (s.storeWords a ws).linkAlt = s.linkAlt := State.store_linkAlt s a _
@[simp] theorem State.storeWords_sys (a : Nat) (ws : List Word) : (s.storeWords a ws).sys = s.sys := State.store_sys s a _
@[simp] theorem State.storeWords_keyCmd (a : Nat) (ws : List Word) : (s.storeWords a ws).keyCmd = s.keyCmd := State.store_keyCmd s a _
@[simp] theorem State.storeWords_tlbGone (a : Nat) (ws : List Word) : (s.storeWords a ws).tlbGone = s.tlbGone := State.store_tlbGone s a _
@[simp] theorem State.storeWords_hpmapNew (a : Nat) (ws : List Word) : (s.storeWords a ws).hpmapNew = s.hpmapNew := State.store_hpmapNew s a _
@[simp] theorem State.storeWords_hpmapReply (a : Nat) (ws : List Word) : (s.storeWords a ws).hpmapReply = s.hpmapReply := State.store_hpmapReply s a _
@[simp] theorem State.storeWords_warden (a : Nat) (ws : List Word) : (s.storeWords a ws).warden = s.warden := State.store_warden s a _
@[simp] theorem State.storeWords_fuses (a : Nat) (ws : List Word) : (s.storeWords a ws).fuses = s.fuses := State.store_fuses s a _
@[simp] theorem State.storeWords_power (a : Nat) (ws : List Word) : (s.storeWords a ws).power = s.power := State.store_power s a _
@[simp] theorem State.storeWords_vexek (a : Nat) (ws : List Word) : (s.storeWords a ws).vexek = s.vexek := State.store_vexek s a _
@[simp] theorem State.storeWords_shelf_read (a : Nat) (ws : List Word) (m : Nat) : (s.storeWords a ws).shelf m = s.shelf m := State.store_shelf_read s a _ m
@[simp] theorem State.storeWords_core_read (a : Nat) (ws : List Word) (m : Nat) : (s.storeWords a ws).core m = s.core m := State.store_core_read s a _ m
@[simp] theorem State.storeWords_ctx_read (a : Nat) (ws : List Word) (m q : Nat) : (s.storeWords a ws).ctx m q = s.ctx m q := State.store_ctx_read s a _ m q
@[simp] theorem State.storeWords_link_read (a : Nat) (ws : List Word) (m : Nat) : (s.storeWords a ws).link m = s.link m := State.store_link_read s a _ m
@[simp] theorem State.storeWords_port_read (a : Nat) (ws : List Word) (m : Nat) : (s.storeWords a ws).port m = s.port m := State.store_port_read s a _ m
@[simp] theorem State.storeWords_queue_read (a : Nat) (ws : List Word) (m p : Nat) : (s.storeWords a ws).queue m p = s.queue m p := State.store_queue_read s a _ m p
@[simp] theorem State.storeWords_ring_read (a : Nat) (ws : List Word) (m : Nat) : (s.storeWords a ws).ring m = s.ring m := State.store_ring_read s a _ m
@[simp] theorem State.storeWords_gop_read (a : Nat) (ws : List Word) (m : Nat) : (s.storeWords a ws).gop m = s.gop m := State.store_gop_read s a _ m
@[simp] theorem State.storeWords_entry_read (a : Nat) (ws : List Word) (m j : Nat) : (s.storeWords a ws).entry m j = s.entry m j := State.store_entry_read s a _ m j
@[simp] theorem State.storeWords_now_read (a : Nat) (ws : List Word)  : (s.storeWords a ws).now = s.now := State.store_now_read s a _
@[simp] theorem State.storeWords_isRetired_read (a : Nat) (ws : List Word) (m : Nat) : (s.storeWords a ws).isRetired m = s.isRetired m := State.store_isRetired_read s a _ m
@[simp] theorem State.storeWords_servingShelf_read (a : Nat) (ws : List Word) (m : Nat) : (s.storeWords a ws).servingShelf m = s.servingShelf m := State.store_servingShelf_read s a _ m
@[simp] theorem State.storeWords_rdReg_read (a : Nat) (ws : List Word) (h : Reg) : rdReg (s.storeWords a ws) h = rdReg s h := by simp only [rdReg, State.storeWords_regs, State.storeWords_fuses]
@[simp] theorem State.storeWords_getF_read (a : Nat) (ws : List Word) (h : Reg) (u w : Nat) : getF (s.storeWords a ws) h u w = getF s h u w := by simp only [getF, rdReg, State.storeWords_regs, State.storeWords_fuses]
@[simp] theorem State.storeWords_getB_read (a : Nat) (ws : List Word) (h : Reg) (u : Nat) : getB (s.storeWords a ws) h u = getB s h u := by simp only [getB, rdReg, State.storeWords_regs, State.storeWords_fuses]

/-! ### setTag -/
@[simp] theorem State.setTag_pending (a : Nat) (t : Bool) : (s.setTag a t).pending = s.pending := rfl
@[simp] theorem State.setTag_outbox (a : Nat) (t : Bool) : (s.setTag a t).outbox = s.outbox := rfl
@[simp] theorem State.setTag_freeCtr (a : Nat) (t : Bool) : (s.setTag a t).freeCtr = s.freeCtr := rfl
@[simp] theorem State.setTag_tagCtr (a : Nat) (t : Bool) : (s.setTag a t).tagCtr = s.tagCtr := rfl
@[simp] theorem State.setTag_devtime (a : Nat) (t : Bool) : (s.setTag a t).devtime = s.devtime := rfl
@[simp] theorem State.setTag_regs (a : Nat) (t : Bool) : (s.setTag a t).regs = s.regs := rfl
@[simp] theorem State.setTag_mem (a : Nat) (t : Bool) : (s.setTag a t).mem = s.mem := rfl
@[simp] theorem State.setTag_bad (a : Nat) (t : Bool) : (s.setTag a t).bad = s.bad := rfl
@[simp] theorem State.setTag_shelves (a : Nat) (t : Bool) : (s.setTag a t).shelves = s.shelves := rfl
@[simp] theorem State.setTag_cores (a : Nat) (t : Bool) : (s.setTag a t).cores = s.cores := rfl
@[simp] theorem State.setTag_ctxs (a : Nat) (t : Bool) : (s.setTag a t).ctxs = s.ctxs := rfl
@[simp] theorem State.setTag_links (a : Nat) (t : Bool) : (s.setTag a t).links = s.links := rfl
@[simp] theorem State.setTag_ports (a : Nat) (t : Bool) : (s.setTag a t).ports = s.ports := rfl
@[simp] theorem State.setTag_queues (a : Nat) (t : Bool) : (s.setTag a t).queues = s.queues := rfl
@[simp] theorem State.setTag_rings (a : Nat) (t : Bool) : (s.setTag a t).rings = s.rings := rfl
@[simp] theorem State.setTag_slotWrites (a : Nat) (t : Bool) : (s.setTag a t).slotWrites = s.slotWrites := rfl
@[simp] theorem State.setTag_evsrcs (a : Nat) (t : Bool) : (s.setTag a t).evsrcs = s.evsrcs := rfl
@[simp] theorem State.setTag_holdoff (a : Nat) (t : Bool) : (s.setTag a t).holdoff = s.holdoff := rfl
@[simp] theorem State.setTag_gops (a : Nat) (t : Bool) : (s.setTag a t).gops = s.gops := rfl
@[simp] theorem State.setTag_flue (a : Nat) (t : Bool) : (s.setTag a t).flue = s.flue := rfl
@[simp] theorem State.setTag_arrived (a : Nat) (t : Bool) : (s.setTag a t).arrived = s.arrived := rfl
@[simp] theorem State.setTag_returned (a : Nat) (t : Bool) : (s.setTag a t).returned = s.returned := rfl
@[simp] theorem State.setTag_granted (a : Nat) (t : Bool) : (s.setTag a t).granted = s.granted := rfl
@[simp] theorem State.setTag_routerBad (a : Nat) (t : Bool) : (s.setTag a t).routerBad = s.routerBad := rfl
@[simp] theorem State.setTag_retired (a : Nat) (t : Bool) : (s.setTag a t).retired = s.retired := rfl
@[simp] theorem State.setTag_linkAlt (a : Nat) (t : Bool) : (s.setTag a t).linkAlt = s.linkAlt := rfl
@[simp] theorem State.setTag_sys (a : Nat) (t : Bool) : (s.setTag a t).sys = s.sys := rfl
@[simp] theorem State.setTag_keyCmd (a : Nat) (t : Bool) : (s.setTag a t).keyCmd = s.keyCmd := rfl
@[simp] theorem State.setTag_tlbGone (a : Nat) (t : Bool) : (s.setTag a t).tlbGone = s.tlbGone := rfl
@[simp] theorem State.setTag_hpmapNew (a : Nat) (t : Bool) : (s.setTag a t).hpmapNew = s.hpmapNew := rfl
@[simp] theorem State.setTag_hpmapReply (a : Nat) (t : Bool) : (s.setTag a t).hpmapReply = s.hpmapReply := rfl
@[simp] theorem State.setTag_warden (a : Nat) (t : Bool) : (s.setTag a t).warden = s.warden := rfl
@[simp] theorem State.setTag_fuses (a : Nat) (t : Bool) : (s.setTag a t).fuses = s.fuses := rfl
@[simp] theorem State.setTag_power (a : Nat) (t : Bool) : (s.setTag a t).power = s.power := rfl
@[simp] theorem State.setTag_vexek (a : Nat) (t : Bool) : (s.setTag a t).vexek = s.vexek := rfl
@[simp] theorem State.setTag_shelf_read (a : Nat) (t : Bool) (m : Nat) : (s.setTag a t).shelf m = s.shelf m := rfl
@[simp] theorem State.setTag_core_read (a : Nat) (t : Bool) (m : Nat) : (s.setTag a t).core m = s.core m := rfl
@[simp] theorem State.setTag_ctx_read (a : Nat) (t : Bool) (m q : Nat) : (s.setTag a t).ctx m q = s.ctx m q := rfl
@[simp] theorem State.setTag_link_read (a : Nat) (t : Bool) (m : Nat) : (s.setTag a t).link m = s.link m := rfl
@[simp] theorem State.setTag_port_read (a : Nat) (t : Bool) (m : Nat) : (s.setTag a t).port m = s.port m := rfl
@[simp] theorem State.setTag_queue_read (a : Nat) (t : Bool) (m p : Nat) : (s.setTag a t).queue m p = s.queue m p := rfl
@[simp] theorem State.setTag_ring_read (a : Nat) (t : Bool) (m : Nat) : (s.setTag a t).ring m = s.ring m := rfl
@[simp] theorem State.setTag_gop_read (a : Nat) (t : Bool) (m : Nat) : (s.setTag a t).gop m = s.gop m := rfl
@[simp] theorem State.setTag_entry_read (a : Nat) (t : Bool) (m j : Nat) : (s.setTag a t).entry m j = s.entry m j := rfl
@[simp] theorem State.setTag_now_read (a : Nat) (t : Bool)  : (s.setTag a t).now = s.now := rfl
@[simp] theorem State.setTag_byte_read (a : Nat) (t : Bool) (m : Nat) : (s.setTag a t).byte m = s.byte m := rfl
@[simp] theorem State.setTag_isRetired_read (a : Nat) (t : Bool) (m : Nat) : (s.setTag a t).isRetired m = s.isRetired m := rfl
@[simp] theorem State.setTag_servingShelf_read (a : Nat) (t : Bool) (m : Nat) : (s.setTag a t).servingShelf m = s.servingShelf m := rfl
@[simp] theorem State.setTag_rdReg_read (a : Nat) (t : Bool) (h : Reg) : rdReg (s.setTag a t) h = rdReg s h := rfl
@[simp] theorem State.setTag_getF_read (a : Nat) (t : Bool) (h : Reg) (u w : Nat) : getF (s.setTag a t) h u w = getF s h u w := rfl
@[simp] theorem State.setTag_getB_read (a : Nat) (t : Bool) (h : Reg) (u : Nat) : getB (s.setTag a t) h u = getB s h u := rfl

/-! ### A read after its own update -/

theorem State.shelf_setShelf (n m : Nat) (x : Shelf) : (s.setShelf n x).shelf m = if n = m then x else s.shelf m := tget_tset ..
theorem State.core_setCore (k m : Nat) (x : Core) : (s.setCore k x).core m = if k = m then x else s.core m := tget_tset ..
theorem State.link_setLink (l m : Nat) (x : Link) : (s.setLink l x).link m = if l = m then x else s.link m := tget_tset ..
theorem State.port_setPort (p m : Nat) (x : Port) : (s.setPort p x).port m = if p = m then x else s.port m := tget_tset ..
theorem State.ring_setRing (r m : Nat) (x : Ring) : (s.setRing r x).ring m = if r = m then x else s.ring m := tget_tset ..
theorem State.gop_setGop (t m : Nat) (x : GopTag) : (s.setGop t x).gop m = if t = m then x else s.gop m := tget_tset ..
/-- Contexts and queues are numbered by two numbers. -/
theorem State.ctx_setCtx (k r m q : Nat) (x : Ctx) : (s.setCtx k r x).ctx m q = if 16 * k + r = 16 * m + q then x else s.ctx m q := tget_tset ..
theorem State.queue_setQueue (n q m p : Nat) (x : Queue) :
    (s.setQueue n q x).queue m p = if 1024 * n + q = 1024 * m + p then x else s.queue m p := tget_tset ..

@[simp] theorem State.setShelf_shelf_same (n : Nat) (x : Shelf) : (s.setShelf n x).shelf n = x := by simp [State.shelf_setShelf]
@[simp] theorem State.setCore_core_same (k : Nat) (x : Core) : (s.setCore k x).core k = x := by simp [State.core_setCore]
@[simp] theorem State.setLink_link_same (l : Nat) (x : Link) : (s.setLink l x).link l = x := by simp [State.link_setLink]
@[simp] theorem State.setPort_port_same (p : Nat) (x : Port) : (s.setPort p x).port p = x := by simp [State.port_setPort]
@[simp] theorem State.setRing_ring_same (r : Nat) (x : Ring) : (s.setRing r x).ring r = x := by simp [State.ring_setRing]
@[simp] theorem State.setGop_gop_same (t : Nat) (x : GopTag) : (s.setGop t x).gop t = x := by simp [State.gop_setGop]
@[simp] theorem State.setCtx_ctx_same (k r : Nat) (x : Ctx) : (s.setCtx k r x).ctx k r = x := by simp [State.ctx_setCtx]
@[simp] theorem State.setQueue_queue_same (n q : Nat) (x : Queue) : (s.setQueue n q x).queue n q = x := by simp [State.queue_setQueue]

@[simp] theorem State.modShelf_shelf_same (n : Nat) (f : Shelf → Shelf) : (s.modShelf n f).shelf n = f (s.shelf n) := State.setShelf_shelf_same ..
@[simp] theorem State.modCore_core_same (k : Nat) (f : Core → Core) : (s.modCore k f).core k = f (s.core k) := State.setCore_core_same ..
@[simp] theorem State.modLink_link_same (l : Nat) (f : Link → Link) : (s.modLink l f).link l = f (s.link l) := State.setLink_link_same ..
@[simp] theorem State.modPort_port_same (p : Nat) (f : Port → Port) : (s.modPort p f).port p = f (s.port p) := State.setPort_port_same ..
@[simp] theorem State.modRing_ring_same (r : Nat) (f : Ring → Ring) : (s.modRing r f).ring r = f (s.ring r) := State.setRing_ring_same ..
@[simp] theorem State.modCtx_ctx_same (k r : Nat) (f : Ctx → Ctx) : (s.modCtx k r f).ctx k r = f (s.ctx k r) := State.setCtx_ctx_same ..
@[simp] theorem State.modQueue_queue_same (n q : Nat) (f : Queue → Queue) : (s.modQueue n q f).queue n q = f (s.queue n q) :=
  State.setQueue_queue_same ..

theorem State.setShelf_shelf_other (n m : Nat) (x : Shelf) (h : n ≠ m) : (s.setShelf n x).shelf m = s.shelf m := by simp [State.shelf_setShelf, h]
theorem State.modShelf_shelf_other (n m : Nat) (f : Shelf → Shelf) (h : n ≠ m) : (s.modShelf n f).shelf m = s.shelf m :=
  State.setShelf_shelf_other _ _ _ _ h
theorem State.setCore_core_other (k m : Nat) (x : Core) (h : k ≠ m) : (s.setCore k x).core m = s.core m := by simp [State.core_setCore, h]
theorem State.modCore_core_other (k m : Nat) (f : Core → Core) (h : k ≠ m) : (s.modCore k f).core m = s.core m :=
  State.setCore_core_other _ _ _ _ h
theorem State.setCtx_ctx_other (k r m q : Nat) (x : Ctx) (h : 16 * k + r ≠ 16 * m + q) : (s.setCtx k r x).ctx m q = s.ctx m q := by
  simp [State.ctx_setCtx, h]
theorem State.modCtx_ctx_other (k r m q : Nat) (f : Ctx → Ctx) (h : 16 * k + r ≠ 16 * m + q) : (s.modCtx k r f).ctx m q = s.ctx m q :=
  State.setCtx_ctx_other _ _ _ _ _ _ h

/-! ### Outputs, free values and records -/

@[simp] theorem State.emit_outbox (o : Output) : (s.emit o).outbox = o :: s.outbox := rfl
@[simp] theorem State.drawn_freeCtr : s.drawn.freeCtr = s.freeCtr + 1 := rfl
@[simp] theorem State.modWarden_warden (f : Warden → Warden) : (s.modWarden f).warden = f s.warden := rfl
@[simp] theorem State.modPower_power (f : Power → Power) : (s.modPower f).power = f s.power := rfl
@[simp] theorem State.modVexek_vexek (f : Vexek → Vexek) : (s.modVexek f).vexek = f s.vexek := rfl
@[simp] theorem State.modSys_sys (f : Sys → Sys) : (s.modSys f).sys = f s.sys := rfl

/-! ### Registers -/

theorem rdReg_wrReg (g h : Reg) (v : Word) : rdReg (wrReg s g v) h = if g.off = h.off then (if v = regRst s.fuses g then none else some v).getD (regRst s.fuses h) else rdReg s h := by
  simp only [rdReg, wrReg, tget_tset]; split <;> rfl

/-- A register reads back what hardware wrote. -/
@[simp] theorem rdReg_wrReg_same (g : Reg) (v : Word) : rdReg (wrReg s g v) g = v := by
  rw [rdReg_wrReg, if_pos rfl]; split
  · rename_i h; exact h.symm
  · rfl

/-- A register at another offset keeps its value. -/
theorem rdReg_wrReg_other (g h : Reg) (v : Word) (ne : g.off ≠ h.off) : rdReg (wrReg s g v) h = rdReg s h := by
  rw [rdReg_wrReg, if_neg ne]

@[simp] theorem rdReg_setF_same (g : Reg) (hi lo x : Nat) : rdReg (setF s g hi lo x) g = setFld (rdReg s g) hi lo x := rdReg_wrReg_same ..
theorem rdReg_setF_other (g h : Reg) (hi lo x : Nat) (ne : g.off ≠ h.off) : rdReg (setF s g hi lo x) h = rdReg s h := rdReg_wrReg_other _ _ _ _ ne
theorem getF_wrReg_other (g h : Reg) (v : Word) (hi lo : Nat) (ne : g.off ≠ h.off) : getF (wrReg s g v) h hi lo = getF s h hi lo := by
  unfold getF; rw [rdReg_wrReg_other _ _ _ _ ne]
theorem getB_wrReg_other (g h : Reg) (v : Word) (i : Nat) (ne : g.off ≠ h.off) : getB (wrReg s g v) h i = getB s h i := by
  unfold getB; rw [rdReg_wrReg_other _ _ _ _ ne]
@[simp] theorem getF_wrReg_same (g : Reg) (v : Word) (hi lo : Nat) : getF (wrReg s g v) g hi lo = fld v hi lo := by simp [getF]
@[simp] theorem getB_wrReg_same (g : Reg) (v : Word) (i : Nat) : getB (wrReg s g v) g i = bitAt v i := by simp [getB]

end Sys2Proof.Machine
end

