-- ==== Sys2Proof/Laws/Memory.lean ====
section
/-! SUPPORT. Shelf memory: a store writes its bytes and no others, clears the tags of the granules it touches and no others, and every memory operation
keeps the canonical form (log entry 5). -/

namespace Sys2Proof.Machine

/-! ## Bytes after a store -/

theorem tget_putMem (b : List Byte) (m : List Host.Cell) (a x : Nat) :
    tget 0 (putMem m a b) x = if a ≤ x ∧ x < a + b.length then b.getD (x - a) 0 else tget 0 m x := by
  induction b generalizing m a with
  | nil => simp [putMem]
  | cons v t ih =>
    simp only [putMem, ih, tget_tset, List.length_cons]
    by_cases h1 : a + 1 ≤ x ∧ x < a + 1 + t.length
    · have e : x - a = x - (a + 1) + 1 := by omega
      rw [if_pos h1, if_pos (by omega), e]; simp
    · rw [if_neg h1]
      by_cases h2 : a = x
      · subst h2; rw [if_pos rfl, if_pos (by omega)]; simp
      · rw [if_neg h2, if_neg (by omega)]

/-- A byte after a store: the stored byte inside, the old byte outside. -/
theorem State.byte_store (s : State) (a x : Nat) (b : List Byte) :
    (s.store a b).byte x = if a ≤ x ∧ x < a + b.length then b.getD (x - a) 0 else s.byte x := by
  unfold State.store
  split
  · rename_i h; subst h; simp
  · exact tget_putMem b s.mem a x

theorem State.byte_store_other (s : State) (a x : Nat) (b : List Byte) (h : x < a ∨ a + b.length ≤ x) : (s.store a b).byte x = s.byte x := by
  rw [State.byte_store, if_neg (by omega)]

theorem State.bytes_store_other (s : State) (a x k : Nat) (b : List Byte) (h : x + k ≤ a ∨ a + b.length ≤ x) : (s.store a b).bytes x k = s.bytes x k := by
  unfold State.bytes
  refine List.map_congr_left fun i hi => State.byte_store_other s a (x + i) b ?_
  have := List.mem_range.1 hi
  omega

/-- The stored bytes are read back. -/
theorem State.bytes_store_same (s : State) (a : Nat) (b : List Byte) : (s.store a b).bytes a b.length = b := by
  refine List.ext_getElem (by simp [State.bytes]) fun i h1 h2 => ?_
  simp [State.bytes, State.byte_store, h2]

theorem State.word_store_other (s : State) (a x : Nat) (b : List Byte) (h : x + 8 ≤ a ∨ a + b.length ≤ x) : (s.store a b).word x = s.word x := by
  unfold State.word
  rw [State.bytes_store_other s a x 8 b h]

/-- A store clears the tag of every granule that it touches, and of no other (R251). -/
theorem State.tagAt_store (s : State) (a x : Nat) (b : List Byte) (h : b ≠ []) :
    (s.store a b).tagAt x = if granule a ≤ granule x ∧ granule x ≤ granule (a + b.length - 1) then false else s.tagAt x := by
  have drop : ∀ (t : Tbl Bool) (lo hi k : Nat), tget false (dropKeys t lo hi) k = if lo ≤ k ∧ k < hi then false else tget false t k := by
    intro t lo hi k
    induction t with
    | nil => simp [dropKeys, tget]
    | cons e t ih =>
      obtain ⟨j, v⟩ := e
      unfold dropKeys at ih ⊢
      rw [List.filter_cons]
      split
      · rename_i hj
        simp only [decide_eq_true_eq] at hj
        simp only [tget, ih]
        by_cases hjk : j = k
        · subst hjk; rw [if_pos rfl, if_neg (by omega), if_pos rfl]
        · rw [if_neg hjk, if_neg hjk]
      · rename_i hj
        simp only [decide_eq_true_eq] at hj
        rw [ih]
        by_cases hjk : j = k
        · subst hjk; rw [if_pos (by omega), if_pos (by omega)]
        · simp only [tget, if_neg hjk]
  simp only [State.tagAt, State.store, if_neg h, drop]
  congr 1
  exact propext (by omega)

/-! ## The canonical form -/

theorem putMem_wf (b : List Byte) (m : List Host.Cell) (a : Nat) (h : Memory.wf m = true) : Memory.wf (putMem m a b) = true := by
  induction b generalizing m a with
  | nil => exact h
  | cons v t ih => exact ih _ _ (tset_ok 0 v m a h)

/-- A store keeps the canonical form of memory. -/
theorem State.store_wf (s : State) (a : Nat) (b : List Byte) (h : Memory.wf s.mem = true) : Memory.wf (s.store a b).mem = true := by
  unfold State.store
  split
  · exact h
  · exact putMem_wf b s.mem a h

theorem State.storeWords_wf (s : State) (a : Nat) (ws : List Word) (h : Memory.wf s.mem = true) : Memory.wf (s.storeWords a ws).mem = true :=
  State.store_wf s a _ h

/-- Zeroing the general region of a shelf keeps it (R400). -/
theorem State.zeroGeneral_wf (s : State) (n : Nat) (h : Memory.wf s.mem = true) : Memory.wf (s.zeroGeneral n).mem = true :=
  dropped_ok 0 _ s.mem h

theorem reset_mem_wf : Memory.wf State.reset.mem = true := rfl

end Sys2Proof.Machine
end

