-- ==== Sys2Proof/Laws/Pipeline.lean ====
section
/-! SUPPORT. The operand window and the issue of an instruction: what each answers where nothing is in the way. -/

namespace Sys2Proof.Machine

/-! ## Chains -/

@[simp] theorem Res.bind_ok {α β : Type} (a : α) (s : State) (f : α → State → Res β) : (Res.ok a s).bind f = f a s := rfl
@[simp] theorem Res.bind_wait {α β : Type} (w : WaitWhy) (s : State) (f : α → State → Res β) : (Res.wait w s).bind f = .wait w s := rfl
@[simp] theorem Res.bind_exc {α β : Type} (x : ExcReport) (s : State) (f : α → State → Res β) : (Res.exc x s).bind f = .exc x s := rfl

/-! ## Operands -/

/-- A slot of the ring that holds a value is the operand. -/
theorem State.operand_val (s : State) (k r i : Nat) (v : Word) (h : (s.ctx k r).ring[i]? = some (.val v)) : s.operand k r i = .ok v s := by
  simp [State.operand, State.slotAt, h]

/-- A pending slot makes the instruction wait for its tag (R169). -/
theorem State.operand_tag (s : State) (k r i t : Nat) (h : (s.ctx k r).ring[i]? = some (.tag t)) : s.operand k r i = .wait (.tag t) s := by
  simp [State.operand, State.slotAt, h]

/-- A poisoned slot raises DE (R173). -/
theorem State.operand_poison (s : State) (k r i : Nat) (p : Poison) (h : (s.ctx k r).ring[i]? = some (.poison p)) :
    s.operand k r i = .exc p.report s := by
  simp [State.operand, State.slotAt, h]

theorem State.operands_from (s : State) (k r : Nat) (vs : List Word) (i : Nat)
    (h : ∀ j, (hj : j < vs.length) → (s.ctx k r).ring[i + j]? = some (.val vs[j])) : State.operands vs.length s k r i = .ok vs s := by
  induction vs generalizing i with
  | nil => rfl
  | cons v t ih =>
    have h0 := h 0 (Nat.zero_lt_succ _)
    have ht := ih (i + 1) (fun j hj => by
      have := h (j + 1) (Nat.succ_lt_succ hj)
      rw [show i + 1 + j = i + (j + 1) by omega]; simpa using this)
    simp only [List.length_cons, State.operands]
    rw [State.operand_val s k r i v (by simpa using h0)]
    simp [ht]

/-- Values on top of the ring are the operands. -/
theorem State.operands_vals (s : State) (k r : Nat) (vs : List Word) (rest : List Slot)
    (h : (s.ctx k r).ring = vs.map Slot.val ++ rest) : State.operands vs.length s k r 0 = .ok vs s :=
  s.operands_from k r vs 0 (fun j hj => by rw [h, List.getElem?_append_left (by simpa using hj)]; simp)

/-- There is room in the ring (R236). -/
theorem State.room_ok (s : State) (k r pops pushes : Nat) (h : (s.ctx k r).ring.length - pops + pushes ≤ ringSize) :
    s.room k r pops pushes = .ok () s := by
  simp [State.room, h]

/-- What `popPush` does where the operands are values and there is room. -/
theorem popPush_ok (n m : Nat) (f : List Word → List Word) (k r : Nat) (s : State) (vs : List Word) (rest : List Slot)
    (h : (s.ctx k r).ring = vs.map Slot.val ++ rest) (hn : vs.length = n) (hr : rest.length + m ≤ ringSize) :
    popPush n m f k r s = .ok none (s.modCtx k r (fun x => { x with ring := (f vs).map Slot.val ++ rest })) := by
  subst hn
  have hroom : (s.ctx k r).ring.length - vs.length + m ≤ ringSize := by simp [h]; omega
  simp only [popPush, s.operands_vals k r vs rest h, Res.bind_ok, s.room_ok k r _ m hroom, doneIn]
  congr 1
  simp [State.modCtx, Ctx.replace, h]

/-! ## Issue -/

theorem Fetched.eq_ok (f : Fetched) (h : f.isOk = true) : ∃ l, f = .ok l := by cases f <;> simp_all [Fetched.isOk]

/-- What `act` does once the action has answered and no fused pair waits. -/
def State.acted (s : State) (c : CoreId) (o : Op) (r : Nat) : Res (Option Nat) → State
  | .ok f t => (((t.modCtx (s.coreKey c) r (fun y => y.land (s.at_ c r).prod (s.at_ c r).rkeyNext)).modCore (s.coreKey c) (fun d =>
      ((s.issuing c).codeLines (s.coreKey c) (s.at_ c r) (s.prefixLen c + o.code.length)).foldl Core.useLine d)).retire (s.coreKey c) r
        (f.getD ((s.at_ c r).pc.toNat + o.code.length + s.prefixLen c)) (s.pairAt c r o.code = .opens)).stepped (s.coreKey c)
  | .wait w t =>
    let t := (t.modCtx (s.coreKey c) r (fun y => (y.land (s.at_ c r).prod (s.at_ c r).rkeyNext).waits w (s.issuing c).now)).modCore (s.coreKey c)
      (fun d => { d with alone := d.alone || w == .drain })
    if w = .element then t.stepped (s.coreKey c) else t
  | .exc e t => (((t.modCtx (s.coreKey c) r (fun y => y.land (s.at_ c r).prod (s.at_ c r).rkeyNext)).modCore (s.coreKey c) (fun d =>
      ((s.issuing c).codeLines (s.coreKey c) (s.at_ c r) (s.prefixLen c + o.code.length)).foldl Core.useLine d)).takeExc (s.coreKey c) r e).stepped
        (s.coreKey c)

/-- An instruction that is not slow acts on the context with nothing on its way in it. -/
theorem issue_ok (c : CoreId) (o : Op) (s : State) (r : Nat) (h : Issues s c r o.code) (hp : Bare s c ∨ o.segOk = true) (hs : o.slow = false) :
    issue c o s = s.acted c o r (o.act (s.coreKey c) r ((s.issuing c).modCtx (s.coreKey c) r Ctx.found)) := by
  obtain ⟨hm, hr, hf, hw⟩ := h
  obtain ⟨l, hl⟩ := Fetched.eq_ok _ hf
  have hpre : ¬ (s.prefixLen c ≠ 0 ∧ o.segOk = false) := by
    rintro ⟨h1, h2⟩
    rcases hp with hp | hp
    · exact h1 (by unfold State.prefixLen; rw [show ((s.issuing c).core (s.coreKey c)).seg = none from hp]; rfl)
    · rw [hp] at h2; cases h2
  have hrun : issue c o s = (s.issuing c).act (s.coreKey c) r (s.prefixLen c) o := by
    have hl' : ((s.schedule (s.coreKey c)).readied (s.coreKey c)).fetchOp (s.coreKey c)
        (((s.schedule (s.coreKey c)).readied (s.coreKey c)).ctx (s.coreKey c) r)
        (b2n (((s.schedule (s.coreKey c)).readied (s.coreKey c)).core (s.coreKey c)).seg.isSome) o.code = .ok l := hl
    unfold issue
    simp only [hm, hr, if_true, State.runOp, hl']
    rfl
  have hw' : ((s.issuing c).pairing (s.coreKey c) ((s.issuing c).ctx (s.coreKey c) r) (s.prefixLen c) o.code).holds = false := hw
  rw [hrun]
  unfold State.act State.acted State.pairAt
  simp only [hs, Bool.false_eq_true, if_false, hpre]
  have hfound : ((s.issuing c).modCtx (s.coreKey c) r (fun y => { y with prod := none, rkeyNext := none })) =
      (s.issuing c).modCtx (s.coreKey c) r Ctx.found := rfl
  rw [hfound]
  cases ha : o.act (s.coreKey c) r ((s.issuing c).modCtx (s.coreKey c) r Ctx.found) with
  | ok f t =>
    cases hg : (s.issuing c).pairing (s.coreKey c) ((s.issuing c).ctx (s.coreKey c) r) (s.prefixLen c) o.code with
    | no => simp only [State.at_, hg]
    | opens => simp only [State.at_, hg]
    | waits t => rw [hg] at hw'; cases hw'
  | wait w t => rfl
  | exc e t => rfl

/-- The instruction retires where its action ends well. -/
theorem issue_done (c : CoreId) (o : Op) (s : State) (r : Nat) (f : Option Nat) (w : State) (h : Issues s c r o.code)
    (hp : Bare s c ∨ o.segOk = true) (hs : o.slow = false)
    (ha : o.act (s.coreKey c) r ((s.issuing c).modCtx (s.coreKey c) r Ctx.found) = .ok f w) :
    issue c o s = s.acted c o r (.ok f w) := by
  rw [issue_ok c o s r h hp hs, ha]

/-- The context waits where its action does. -/
theorem issue_waits (c : CoreId) (o : Op) (s : State) (r : Nat) (y : WaitWhy) (w : State) (h : Issues s c r o.code)
    (hp : Bare s c ∨ o.segOk = true) (hs : o.slow = false) (hy : y ≠ .element) (hd : y ≠ .drain)
    (ha : o.act (s.coreKey c) r ((s.issuing c).modCtx (s.coreKey c) r Ctx.found) = .wait y w) :
    issue c o s = (w.modCtx (s.coreKey c) r (fun x => (x.land (s.at_ c r).prod (s.at_ c r).rkeyNext).waits y (s.issuing c).now)).modCore
      (s.coreKey c) id := by
  rw [issue_ok c o s r h hp hs, ha]
  have : (y == WaitWhy.drain) = false := by simpa using hd
  simp only [State.acted, hy, if_false, this, Bool.or_false]
  rfl

/-- The exception of the action is taken. -/
theorem issue_raises (c : CoreId) (o : Op) (s : State) (r : Nat) (e : ExcReport) (w : State) (h : Issues s c r o.code)
    (hp : Bare s c ∨ o.segOk = true) (hs : o.slow = false)
    (ha : o.act (s.coreKey c) r ((s.issuing c).modCtx (s.coreKey c) r Ctx.found) = .exc e w) :
    issue c o s = s.acted c o r (.exc e w) := by
  rw [issue_ok c o s r h hp hs, ha]

/-- The state in which the action of an instruction that is not slow runs. -/
theorem found_ctx (s : State) (c : CoreId) (r : Nat) :
    ((s.issuing c).modCtx (s.coreKey c) r Ctx.found).ctx (s.coreKey c) r = (s.at_ c r).found := by simp [State.at_]

/-- What a step of the debugger leaves of the core. -/
theorem State.stepped_core (s : State) (k : Nat) :
    (s.stepped k).core k = { s.core k with
      step := (s.core k).step && (s.core k).pair
      haltReq := (s.core k).haltReq || ((s.core k).step && !(s.core k).pair) } := by
  have hx : ∀ d : Core, (if (d.step && !d.pair) = true then { d with step := false, haltReq := true } else d) =
      { d with step := d.step && d.pair, haltReq := d.haltReq || (d.step && !d.pair) } := by
    intro d
    obtain ⟨⟩ := d
    rename_i st _ _
    simp only
    split <;> simp_all
  unfold State.stepped
  rw [← hx]
  split <;> simp_all

theorem State.stepped_ctx (s : State) (k m q : Nat) : (s.stepped k).ctx m q = s.ctx m q := by
  unfold State.stepped; split <;> simp

theorem State.stepped_core_other (s : State) (k j : Nat) (h : j ≠ k) : (s.stepped k).core j = s.core j := by
  unfold State.stepped; split
  · exact State.modCore_core_other _ _ _ _ (Ne.symm h)
  · rfl

/-- Beside contexts and cores it leaves everything. -/
theorem State.stepped_rest (s : State) (k : Nat) (a : Tbl Ctx) (b : Tbl Core) :
    { s.stepped k with ctxs := a, cores := b } = { s with ctxs := a, cores := b } := by
  unfold State.stepped; split <;> rfl

theorem State.acted_rest (s : State) (c : CoreId) (o : Op) (r : Nat) (f : Option Nat) (w : State) (a : Tbl Ctx) (b : Tbl Core) :
    { s.acted c o r (.ok f w) with ctxs := a, cores := b } = { w with ctxs := a, cores := b } := by
  simp only [State.acted]
  rw [State.stepped_rest]
  simp only [State.retire]
  generalize (fun d : Core => _) = g1
  simp

/-- An action that ends well and changes only its own context and core gives `RunsTo`. -/
theorem runsTo_of (i : Instr) (c : CoreId) (o : Op) (s : State) (r : Nat) (f : Option Nat) (w : State) (F : Ctx → Ctx) (G : Core → Core) (H : State → State)
    (he : exec i s = .next (issue c o s)) (h : Issues s c r o.code) (hp : Bare s c ∨ o.segOk = true) (hs : o.slow = false)
    (ha : o.act (s.coreKey c) r ((s.issuing c).modCtx (s.coreKey c) r Ctx.found) = .ok f w)
    (hc : w.ctx (s.coreKey c) r = F (s.at_ c r).found)
    (hd : w.core (s.coreKey c) = G ((s.issuing c).core (s.coreKey c)))
    (ho : ∀ m q, 16 * m + q ≠ 16 * s.coreKey c + r → w.ctx m q = (s.issuing c).ctx m q)
    (hk : ∀ j, j ≠ s.coreKey c → w.core j = (s.issuing c).core j)
    (hr : { w with ctxs := (s.issuing c).ctxs, cores := (s.issuing c).cores } = H (s.issuing c)) :
    RunsTo i s c r o.code (f.getD ((s.at_ c r).pc.toNat + o.code.length + s.prefixLen c)) F G H := by
  refine ⟨_, by rw [he, issue_done c o s r f w h hp hs ha], ?_, ?_, ?_, ?_, ?_⟩
  · simp only [State.acted, State.stepped_ctx, State.retire]
    simp [hc, Ctx.goneOn]
  · simp only [State.acted, State.stepped_core, State.retire]
    simp [hd, Core.finished]
  · intro m q hj
    have hx : ∀ (v : State) (g : Ctx → Ctx), (v.modCtx (s.coreKey c) r g).ctx m q = v.ctx m q := fun v g =>
      State.modCtx_ctx_other _ _ _ _ _ _ (Ne.symm hj)
    simp only [State.acted, State.stepped_ctx, State.retire]
    simp [hx, ho m q hj]
  · intro j hj
    have hx : ∀ (v : State) (g : Core → Core), (v.modCore (s.coreKey c) g).core j = v.core j := fun v g =>
      State.modCore_core_other _ _ _ _ (Ne.symm hj)
    simp only [State.acted, State.stepped_core_other _ _ _ hj, State.retire]
    simp [hx, hk j hj]
  · refine Eq.trans ?_ hr
    exact State.acted_rest s c o r f w _ _

/-- An action that ends well and changes only its own context gives `Runs`. -/
theorem runs_ctx (i : Instr) (c : CoreId) (o : Op) (s : State) (r : Nat) (F : Ctx → Ctx)
    (he : exec i s = .next (issue c o s)) (h : Issues s c r o.code) (hp : Bare s c ∨ o.segOk = true) (hs : o.slow = false)
    (ha : ∀ t : State, t.ctx (s.coreKey c) r = (s.at_ c r).found → o.act (s.coreKey c) r t = .ok none (t.modCtx (s.coreKey c) r F)) :
    Runs i s c r o.code F id := by
  refine runsTo_of i c o s r none _ F id id he h hp hs (ha _ (found_ctx s c r)) ?_ ?_ ?_ ?_ ?_
  · simp [State.at_]
  · simp
  · intro m q hj; rw [State.modCtx_ctx_other _ _ _ _ _ _ (Ne.symm hj), State.modCtx_ctx_other _ _ _ _ _ _ (Ne.symm hj)]
  · intro j hj; simp
  · generalize s.issuing c = t; rfl

/-- A stack instruction over values: what `popPush` completes. -/
theorem runs_popPush (i : Instr) (c : CoreId) (o : Op) (s : State) (r n m : Nat) (f : List Word → List Word) (vs : List Word) (rest : List Slot)
    (he : exec i s = .next (issue c o s)) (h : Issues s c r o.code) (hp : Bare s c) (hs : o.slow = false)
    (ho : ∀ t : State, t.ctx (s.coreKey c) r = (s.at_ c r).found → o.act (s.coreKey c) r t = popPush n m f (s.coreKey c) r t)
    (hv : (s.at_ c r).ring = vs.map Slot.val ++ rest) (hn : vs.length = n) (hr : rest.length + m ≤ ringSize) :
    Runs i s c r o.code (fun x => { x with ring := (f vs).map Slot.val ++ rest }) id :=
  runs_ctx i c o s r _ he h (.inl hp) hs (fun t ht => by
    rw [ho t ht, popPush_ok n m f _ r t vs rest (by rw [ht]; exact hv) hn hr])

/-! ## Tagged operations -/

theorem alook_aput {α : Type} (k j : Nat) (v : α) (t : List (Nat × α)) : alook j (aput k v t) = if k = j then some v else alook j t := by
  have hf : ∀ l : List (Nat × α), k ≠ j → alook j (l.filter (fun e => e.1 ≠ k)) = alook j l := by
    intro l h
    induction l with
    | nil => rfl
    | cons e l ih =>
      obtain ⟨i, w⟩ := e
      by_cases hi : i = k
      · subst hi; simp [alook, h] at ih ⊢; exact ih
      · simp [List.filter_cons, hi, alook] at ih ⊢; rw [ih]
  unfold aput
  by_cases h : k = j
  · simp [alook, h]
  · simp only [alook, h, if_false]; exact hf t h

@[simp] theorem alook_aput_same {α : Type} (k : Nat) (v : α) (t : List (Nat × α)) : alook k (aput k v t) = some v := by simp [alook_aput]

/-- The result of the tag that was opened last. -/
theorem putResult_aput (q : TagRef) (d : TagRec) (r : TagRes) (l : List (Nat × TagRec)) (hg : d.gen = q.gen) (hm : d.mate = none) :
    putResult q r (aput q.tag d l) = aput q.tag { d with res := some r.fst } l := by
  unfold putResult
  rw [alook_aput_same]
  simp only [hg, if_true, hm, reduceCtorEq, if_false]
  unfold aput
  rw [List.map_cons, if_pos ⟨rfl, hg⟩]
  have hf : ∀ (g : Nat × TagRec → Nat × TagRec) (l : List (Nat × TagRec)), (∀ e ∈ l, g e = e) → l.map g = l := fun g l h =>
    (List.map_congr_left h).trans (List.map_id l)
  rw [hf _ (l.filter (fun e => e.1 ≠ q.tag)) (fun e he => by
    have hne : e.1 ≠ q.tag := by simpa using (List.mem_filter.1 he).2
    simp [hne])]
  simp [hm, hg]

/-- A free tag is the lowest one not outstanding, and it is taken. -/
theorem State.takeTags_ok (s : State) (k r : Nat) (h : (s.ctx k r).tagFree) :
    ∃ l, s.takeTags k r 1 = .ok l s ∧ l.getD 0 0 = (s.ctx k r).nextTag := by
  unfold Ctx.tagFree at h
  unfold State.takeTags Ctx.nextTag
  cases hl : (s.ctx k r).freeTags with
  | nil => exact absurd hl h
  | cons a t => exact ⟨[a], by simp, rfl⟩

/-- The context once a tag is open. -/
@[simp] theorem State.openTag_ctx_same (s : State) (k r t : Nat) (d : TagRec) :
    (s.openTag k r t d).ctx k r = { s.ctx k r with tags := aput t { d with gen := s.tagCtr } (s.ctx k r).tags } :=
  State.modCtx_ctx_same s k r (fun x => { x with tags := aput t { d with gen := s.tagCtr } x.tags })
theorem State.openTag_ctx_other (s : State) (k r t m q : Nat) (d : TagRec) (h : 16 * k + r ≠ 16 * m + q) :
    (s.openTag k r t d).ctx m q = s.ctx m q :=
  State.modCtx_ctx_other s k r m q (fun x => { x with tags := aput t { d with gen := s.tagCtr } x.tags }) h
@[simp] theorem State.openTag_core (s : State) (k r t m : Nat) (d : TagRec) : (s.openTag k r t d).core m = s.core m := rfl
/-- The context once a pending slot is pushed. -/
@[simp] theorem State.pushTag_ctx_same (s : State) (k r n t : Nat) (d : TagRec) :
    (s.pushTag k r n t d).ctx k r = { s.ctx k r with
      ring := .tag t :: (s.ctx k r).ring.drop n
      tags := aput t { d with
        dpc := (s.ctx k r).pc
        gen := s.tagCtr } (s.ctx k r).tags } := by
  unfold State.pushTag
  rw [State.openTag_ctx_same, State.modCtx_ctx_same]
  rfl
theorem State.pushTag_ctx_other (s : State) (k r n t m q : Nat) (d : TagRec) (h : 16 * k + r ≠ 16 * m + q) :
    (s.pushTag k r n t d).ctx m q = s.ctx m q := by
  unfold State.pushTag
  rw [State.openTag_ctx_other _ _ _ _ _ _ _ h, State.modCtx_ctx_other _ _ _ _ _ _ h]
@[simp] theorem State.pushTag_core (s : State) (k r n t m : Nat) (d : TagRec) : (s.pushTag k r n t d).core m = s.core m := rfl
@[simp] theorem State.tagDone_core (s : State) (q : TagRef) (x : TagRes) (m : Nat) : (s.tagDone q x).core m = s.core m := rfl
theorem State.tagDone_ctx_other (s : State) (q : TagRef) (x : TagRes) (m j : Nat) (h : 16 * q.core + q.store ≠ 16 * m + j) :
    (s.tagDone q x).ctx m j = s.ctx m j := State.modCtx_ctx_other _ _ _ _ _ _ h
@[simp] theorem State.tagDone_ctx_same (s : State) (q : TagRef) (x : TagRes) :
    (s.tagDone q x).ctx q.core q.store = { s.ctx q.core q.store with tags := putResult q x (s.ctx q.core q.store).tags } :=
  State.modCtx_ctx_same s q.core q.store _

/-- A tagged operation whose result exists at once. -/
theorem runs_tagged (i : Instr) (c : CoreId) (o : Op) (s : State) (r n : Nat) (arith : Bool) (f : List Word → TagRef → State → State)
    (res : TagRes) (vs : List Word) (rest : List Slot)
    (he : exec i s = .next (issue c o s)) (h : Issues s c r o.code) (hp : Bare s c) (hs : o.slow = false)
    (ho : ∀ t : State, t.ctx (s.coreKey c) r = (s.at_ c r).found → o.act (s.coreKey c) r t = tagged n arith f (s.coreKey c) r t)
    (hf : ∀ q t, f vs q t = t.tagDone q res)
    (hv : (s.at_ c r).ring = vs.map Slot.val ++ rest) (hn : vs.length = n) (hr : rest.length + 1 ≤ ringSize) (ht : (s.at_ c r).tagFree) :
    RunsTagged i s c r o.code rest { dpc := 0, addr := 0, dest := .stack, arith := arith, res := some res.fst } := by
  subst hn
  let t0 := (s.issuing c).modCtx (s.coreKey c) r Ctx.found
  have h0 : t0.ctx (s.coreKey c) r = (s.at_ c r).found := found_ctx s c r
  have hv0 : (t0.ctx (s.coreKey c) r).ring = vs.map Slot.val ++ rest := by rw [h0]; exact hv
  have hroom : (t0.ctx (s.coreKey c) r).ring.length - vs.length + 1 ≤ ringSize := by simp [hv0]; omega
  obtain ⟨l, hl, hl0⟩ := t0.takeTags_ok (s.coreKey c) r (by rw [h0]; exact ht)
  have ha : o.act (s.coreKey c) r t0 = .ok none ((t0.pushTag (s.coreKey c) r vs.length (t0.ctx (s.coreKey c) r).nextTag
      { dpc := 0, addr := 0, dest := .stack, arith := arith }).tagDone
        ((t0.pushTag (s.coreKey c) r vs.length (t0.ctx (s.coreKey c) r).nextTag { dpc := 0, addr := 0, dest := .stack, arith := arith }).tagRef
          (s.coreKey c) r (t0.ctx (s.coreKey c) r).nextTag) res) := by
    rw [ho t0 h0]
    simp only [tagged, t0.operands_vals _ r vs rest hv0, Res.bind_ok, t0.room_ok _ r _ 1 hroom, hl, hl0, doneIn, hf]
  unfold RunsTagged
  refine runsTo_of i c o s r none _ _ id (fun t => { t with tagCtr := t.tagCtr + 1 }) he h (.inl hp) hs ha ?_ ?_ ?_ ?_ ?_
  · have hq : ∀ (w : State) (t : Nat), (w.tagRef (s.coreKey c) r t).core = s.coreKey c ∧ (w.tagRef (s.coreKey c) r t).store = r ∧
        (w.tagRef (s.coreKey c) r t).tag = t := fun w t => ⟨rfl, rfl, rfl⟩
    have hd := State.tagDone_ctx_same
    refine (State.modCtx_ctx_same _ (s.coreKey c) r _).trans ?_
    rw [State.pushTag_ctx_same, h0]
    have hg : ∀ (w : State) (t : Nat) (d : TagRec) (l : List (Nat × TagRec)), (w.ctx (s.coreKey c) r).tags = aput t d l →
        w.tagRef (s.coreKey c) r t = { core := s.coreKey c, store := r, tag := t, gen := d.gen } := by
      intro w t d l hw
      simp only [State.tagRef, hw, alook_aput_same]
    rw [hg _ _ _ _ (by rw [State.pushTag_ctx_same]), h0]
    have hx := putResult_aput { core := s.coreKey c, store := r, tag := (s.at_ c r).found.nextTag, gen := t0.tagCtr }
      { dpc := (s.at_ c r).found.pc, addr := 0, dest := .stack, arith := arith, gen := t0.tagCtr } res (s.at_ c r).found.tags rfl rfl
    simp only [hx]
    have hring : (s.at_ c r).found.ring = vs.map Slot.val ++ rest := hv
    simp only [hring, List.drop_left' (List.length_map ..)]
    rfl
  · rw [State.tagDone_core, State.pushTag_core]
    exact State.modCtx_core_read ..
  · intro m q hm
    rw [State.tagDone_ctx_other _ _ _ _ _ (Ne.symm hm), State.pushTag_ctx_other _ _ _ _ _ _ _ _ (Ne.symm hm)]
    exact State.modCtx_ctx_other (s.issuing c) (s.coreKey c) r m q Ctx.found (Ne.symm hm)
  · intro j _
    rw [State.tagDone_core, State.pushTag_core]
    exact State.modCtx_core_read ..
  · simp [State.tagDone, State.pushTag, State.openTag, t0]

end Sys2Proof.Machine
end

