-- ==== Sys2Proof/Laws/Registers.lean ====
section
/-! SUPPORT. Bit fields and registers: what a field reads after another field or itself was set, and what the gate of a control write lets through. -/

namespace Sys2Proof.Machine

/-! ## Bit fields -/

theorem bitAt_fmask (hi lo i : Nat) : bitAt (fmask hi lo) i = decide (i < 64 ∧ lo ≤ i ∧ i < lo + (hi + 1 - lo)) := by
  simp only [bitAt, fmask, BitVec.getLsbD_ofNat, Nat.testBit_mul_two_pow, Nat.testBit_two_pow_sub_one]
  rw [Bool.eq_iff_iff]
  simp only [Bool.and_eq_true, decide_eq_true_eq]
  omega

theorem bitAt_place (hi lo x i : Nat) : bitAt (place hi lo x) i = (decide (i < 64 ∧ lo ≤ i ∧ i < lo + (hi + 1 - lo)) && x.testBit (i - lo)) := by
  simp only [bitAt, place, BitVec.getLsbD_ofNat, Nat.testBit_mul_two_pow, Nat.testBit_mod_two_pow]
  rw [Bool.eq_iff_iff]
  simp only [Bool.and_eq_true, decide_eq_true_eq]
  refine ⟨fun ⟨h, h2, h3, h4⟩ => ⟨⟨h, h2, by omega⟩, h4⟩, fun ⟨⟨h, h2, h3⟩, h4⟩ => ⟨h, h2, by omega, h4⟩⟩

/-- A bit of a word whose field was replaced: the new value's inside the field, the old one outside. -/
theorem bitAt_setFld (w : Word) (hi lo x i : Nat) (h : i < 64) :
    bitAt (setFld w hi lo x) i = if lo ≤ i ∧ i < lo + (hi + 1 - lo) then x.testBit (i - lo) else bitAt w i := by
  have hm := bitAt_fmask hi lo i
  have hp := bitAt_place hi lo x i
  unfold bitAt at hm hp ⊢
  simp only [setFld, BitVec.getLsbD_or, BitVec.getLsbD_and, BitVec.getLsbD_not, hm, hp, h, decide_true, true_and, Bool.true_and]
  split
  · rename_i hc; simp [hc]
  · rename_i hc; simp [hc]

theorem testBit_fld (w : Word) (hi lo i : Nat) : (fld w hi lo).testBit i = (decide (i < hi + 1 - lo) && bitAt w (lo + i)) := by
  simp [fld, bitAt, Nat.testBit_mod_two_pow, Nat.testBit_div_two_pow, BitVec.getLsbD, Nat.add_comm]

/-- A field reads back what it was set to. -/
theorem fld_setFld_same (w : Word) (hi lo x : Nat) (h : hi < 64) : fld (setFld w hi lo x) hi lo = x % 2 ^ (hi + 1 - lo) := by
  refine Nat.eq_of_testBit_eq fun i => ?_
  rw [testBit_fld, Nat.testBit_mod_two_pow]
  by_cases hi' : i < hi + 1 - lo
  · rw [bitAt_setFld _ _ _ _ _ (by omega), if_pos (by omega)]
    simp [hi']
  · simp [hi']

/-- A field apart from the one that was set keeps its value. -/
theorem fld_setFld_other (w : Word) (hi lo x a b : Nat) (h : a < lo ∨ hi < b) : fld (setFld w hi lo x) a b = fld w a b := by
  refine Nat.eq_of_testBit_eq fun i => ?_
  rw [testBit_fld, testBit_fld]
  by_cases hi' : i < a + 1 - b
  · by_cases h64 : b + i < 64
    · rw [bitAt_setFld _ _ _ _ _ h64, if_neg (by omega)]
    · unfold bitAt; rw [BitVec.getLsbD_of_ge _ _ (by omega), BitVec.getLsbD_of_ge _ _ (by omega)]
  · simp [hi']

theorem bitAt_setFld_other (w : Word) (hi lo x i : Nat) (h : i < lo ∨ hi < i) : bitAt (setFld w hi lo x) i = bitAt w i := by
  by_cases h64 : i < 64
  · rw [bitAt_setFld _ _ _ _ _ h64, if_neg (by omega)]
  · unfold bitAt; rw [BitVec.getLsbD_of_ge _ _ (by omega), BitVec.getLsbD_of_ge _ _ (by omega)]

/-! ## Fields of registers -/

variable (s : State)

theorem getF_setF_same (g : Reg) (hi lo x : Nat) (h : hi < 64) : getF (setF s g hi lo x) g hi lo = x % 2 ^ (hi + 1 - lo) := by
  rw [getF, rdReg_setF_same, fld_setFld_same _ _ _ _ h]

theorem getF_setF_other (g : Reg) (hi lo x a b : Nat) (h : a < lo ∨ hi < b) : getF (setF s g hi lo x) g a b = getF s g a b := by
  rw [getF, rdReg_setF_same, fld_setFld_other _ _ _ _ _ _ h]; rfl

theorem getB_setB_same (g : Reg) (i : Nat) (b : Bool) (h : i < 64) : getB (setB s g i b) g i = b := by
  rw [getB, setB, rdReg_setF_same, bitAt_setFld _ _ _ _ _ h, if_pos (by omega)]
  cases b <;> simp [b2n]

theorem getB_setB_other (g : Reg) (i j : Nat) (b : Bool) (h : i ≠ j) : getB (setB s g i b) g j = getB s g j := by
  rw [getB, setB, rdReg_setF_same, bitAt_setFld_other _ _ _ _ _ (by omega)]; rfl

theorem getF_setB_other (g : Reg) (i a b : Nat) (v : Bool) (h : a < i ∨ i < b) : getF (setB s g i v) g a b = getF s g a b := getF_setF_other s g i i _ a b h

/-- A counting field goes up by one below its limit and stays at it. -/
theorem getF_bumpF_same (g : Reg) (hi lo k : Nat) (h : hi < 64) :
    getF (bumpF s g hi lo k) g hi lo = satAdd (2 ^ (hi + 1 - lo) - 1) (getF s g hi lo) k % 2 ^ (hi + 1 - lo) := getF_setF_same s g hi lo _ h

theorem getF_bumpF_other (g : Reg) (hi lo k a b : Nat) (h : a < lo ∨ hi < b) : getF (bumpF s g hi lo k) g a b = getF s g a b :=
  getF_setF_other s g hi lo _ a b h

/-! ## The gate of a control write (R12, R373, R443) -/

/-- With an open gate and authority the register's effect acts. -/
theorem State.gateWrite_acts (who : Party) (r : Reg) (v : Word) (f : State → State) (ho : s.partyOpen who r.off = true)
    (hr : s.shelfRangeOff r.off = false) (hp : s.permitted who r.off true = true) (hw : who = .warden ∨ s.actsOnWarden r v = false) :
    s.gateWrite who r v f = f s := by
  unfold State.gateWrite
  rcases hw with hw | hw
  · subst hw; simp [ho, hr, hp]
  · simp [ho, hr, hp, hw]

/-- Without authority the write is ignored and counted. -/
theorem State.gateWrite_violates (who : Party) (r : Reg) (v : Word) (f : State → State) (ho : s.partyOpen who r.off = true)
    (hr : s.shelfRangeOff r.off = false) (hp : s.permitted who r.off true = false) : s.gateWrite who r v f = s.violate who true r.off := by
  simp [State.gateWrite, ho, hr, hp]

/-- A closed gate, or a shelf in reset, drops the write. -/
theorem State.gateWrite_drops (who : Party) (r : Reg) (v : Word) (f : State → State) (h : s.partyOpen who r.off = false ∨ s.shelfRangeOff r.off = true) :
    s.gateWrite who r v f = s := by
  unfold State.gateWrite
  rcases h with h | h <;> simp [h]

end Sys2Proof.Machine
end

