-- ==== Sys2Proof/Machine/Pins.lean ====
section
/-! DEFINITION. What a host port sends, as the bits of its signals (Tables 13.2, 13.3 and 18.2, R424). -/

namespace Sys2Proof.Machine

/-- OP of a request (Table 13.2). -/
def HostOp.code : HostOp → Nat
  | .acqShare => 0x11
  | .acqOwn => 0x12
  | .acqRaise => 0x13
  | .readThrough => 0x14
  | .putLine => 0x15
  | .putMasked => 0x16
  | .evictDirty => 0x17

/-- Fields packed from bit 0 on: width and value of each. -/
def packFields : List (Nat × Nat) → Nat
  | [] => 0
  | (w, v) :: t => v % 2 ^ w + 2 ^ w * packFields t

/-- A message on channel REQ: OP, RQTAG, ADDR, FLAGS. -/
def reqBits (t : Nat) (r : HostReq) : BitVec 65 := BitVec.ofNat 65 (packFields [(6, r.op.code), (10, t), (46, r.line), (3, b2n r.se)])

/-- A message on channel RSP: OP, RCTAG, VALUE, STATUS; a field that the message does not carry is 0. -/
def rspBits (op : Nat) (rctag : BitVec 8) (value : Word) (status : BitVec 2) : BitVec 80 :=
  BitVec.ofNat 80 (packFields [(6, op), (8, rctag.toNat), (64, value.toNat), (2, status.toNat)])

/-- A message on channel DAT: OP, the tag, BE, FLAGS, and the data beat (log entry 149). -/
def datBits (op tag : Nat) (be : Word) (flags : Nat) (data : List Byte) : BitVec 595 :=
  BitVec.ofNat 595 (packFields [(6, op), (10, tag), (64, be.toNat), (3, flags), (512, leNat data)])

/-- The channel signal that carries a message: its width and its bits. -/
def HostMsg.signal : HostMsg → (w : Nat) × BitVec w
  | .request t r => ⟨65, reqBits t r⟩
  | .ansNone c => ⟨80, rspBits 0x31 c 0 0⟩
  | .ansKept c => ⟨80, rspBits 0x32 c 0 0⟩
  | .ctlData c st v => ⟨80, rspBits 0x33 c v st⟩
  | .ctlAck c st => ⟨80, rspBits 0x34 c 0 st⟩
  | .datWr t data be poison => ⟨595, datBits 0x3B t be (b2n poison) data⟩
  | .datRecall c data dirty keep wbif => ⟨595, datBits 0x3C c.toNat 0 (b2n dirty + 2 * b2n keep + 4 * b2n wbif) data⟩

end Sys2Proof.Machine
end

