-- ==== Sys2Proof/Tests/Slice0.lean ====
section
/-! SUPPORT. The author's own tests: ill-formed commands, worked examples of the spec, and for every statement with hypotheses a state that meets them. -/

open Sys2Proof Sys2Proof.Machine

namespace Sys2Proof.Tests

set_option Elab.async false

/-- The state that an outcome answers, if it answers one. -/
def after (o : Host.Outcome State Fault Refusal) (p : State → Bool) : Bool :=
  match o with
  | .next t => p t
  | _ => false

/-- The outcome is the next state `x`. -/
def gives (o : Host.Outcome State Fault Refusal) (x : State) : Bool := after o (fun t => decide (t = x))

/-! ## Ill-formed commands (WellFormed.lean) -/

theorem test_wf_submitSlotFetch : (Instr.submitSlotFetch 0 ⟨List.replicate 7 0, [], 0⟩).wf = false := by decide
theorem test_wf_flits : (∀ i ∈ [Instr.dataFlit 0 [] true, .idleFlit 0 [] true, .retryReq 0 [] true, .sync 0 [] true, .abort 0 [] true], i.wf = false) := by
  decide
theorem test_wf_keyRecordFetched : (Instr.keyRecordFetched [0]).wf = false := by decide
theorem test_wf_exceptionEntry : (Instr.exceptionEntry .warden { desc := 12, finfo := 0, faddr := 0 }).wf = false := by decide
theorem test_wf_datFill : (Instr.datFill 0 0 .S 0 false [1]).wf = false := by decide
theorem test_wf_grantFetchDone : (Instr.grantFetchDone 0 0 [1, 2, 3]).wf = false := by decide
theorem test_wf_requestFirmwareData : (Instr.requestFirmwareData .i3c true (List.replicate 1025 0)).wf = false := by decide +kernel
theorem test_wf_lcreq : (Instr.lcreq 0 (List.replicate 513 0)).wf = false := by decide +kernel
theorem test_decode_none : decodeTableWord 8 0 = none := by decide

/-! ## A small state

Shelf 0 is active, and its core 0 runs one root context, whose segments cover the shelf's memory, at the entry of the code bank. -/

def ctx0 (l : List Slot) : Ctx := { rootCtx 0xFF000100000000 0xFF0001001FFFFF 0x1E0000 with
  st := .running
  ring := l }

def box (l : List Slot) : State := { State.reset with
  power := { block := .hostReady }
  shelves := [(0, { phase := .active, started := true })]
  cores := [(0, { run := some 0 })]
  ctxs := [(0, ctx0 l)] }

def c0 : CoreId := .shelf 0 0

/-- The bytes of an instruction (Tables 7.4 to 7.9). -/
def codeOf : Instr → List Byte
  | .lit16 _ x => 0x11 :: leBytes 2 x.toNat
  | .lit32 _ x => 0x12 :: leBytes 4 x.toNat
  | .lit64 _ x => 0x13 :: leBytes 8 x.toNat
  | .beq _ d => 0x70 :: leBytes 2 d.toNat
  | .bne _ d => 0x71 :: leBytes 2 d.toNat
  | .blt _ d => 0x72 :: leBytes 2 d.toNat
  | .bltu _ d => 0x73 :: leBytes 2 d.toNat
  | .bge _ d => 0x74 :: leBytes 2 d.toNat
  | .bgeu _ d => 0x75 :: leBytes 2 d.toNat
  | .beqz _ d => 0x76 :: leBytes 2 d.toNat
  | .bnez _ d => 0x77 :: leBytes 2 d.toNat
  | .bltz _ d => 0x78 :: leBytes 2 d.toNat
  | .bgez _ d => 0x79 :: leBytes 2 d.toNat
  | .bgtz _ d => 0x7A :: leBytes 2 d.toNat
  | .blez _ d => 0x7B :: leBytes 2 d.toNat
  | .jmp _ d => 0x7C :: leBytes 3 d.toNat
  | .call _ n d => 0x7E :: n :: leBytes 3 d.toNat
  | .stm _ m => 0x84 :: leBytes 2 m.toNat
  | .ldm _ m => 0x85 :: leBytes 2 m.toNat
  | .ctlrd _ k => 0xF1 :: leBytes 2 k.toNat
  | .ctlwr _ k => 0xF2 :: leBytes 2 k.toNat
  | .nop _ => [0x00]
  | .dup _ => [0x01]
  | .drop _ => [0x02]
  | .swap _ => [0x03]
  | .over _ => [0x04]
  | .rot _ => [0x05]
  | .nip _ => [0x06]
  | .tuck _ => [0x07]
  | .pick _ u => [0x08, u]
  | .depth _ => [0x09]
  | .rpush _ => [0x0A]
  | .rpop _ => [0x0B]
  | .rpeek _ => [0x0C]
  | .lit8 _ x => [0x10, x]
  | .add _ => [0x20]
  | .sub _ => [0x21]
  | .and _ => [0x22]
  | .or _ => [0x23]
  | .xor _ => [0x24]
  | .not _ => [0x25]
  | .neg _ => [0x26]
  | .shl _ => [0x27]
  | .shr _ => [0x28]
  | .sar _ => [0x29]
  | .rol _ => [0x2A]
  | .ror _ => [0x2B]
  | .mul _ => [0x2C]
  | .muls _ => [0x2D]
  | .rdmph _ => [0x2E]
  | .rdmpl _ => [0x2F]
  | .eq _ => [0x30]
  | .lt _ => [0x31]
  | .ltu _ => [0x32]
  | .min _ => [0x33]
  | .max _ => [0x34]
  | .minu _ => [0x35]
  | .maxu _ => [0x36]
  | .sext _ u => [0x37, u]
  | .zext _ u => [0x38, u]
  | .div _ => [0x39]
  | .divu _ => [0x3A]
  | .rem _ => [0x3B]
  | .remu _ => [0x3C]
  | .popc _ => [0x3D]
  | .clz _ => [0x3E]
  | .bswap _ => [0x3F]
  | .ldb _ => [0x40]
  | .ldbs _ => [0x41]
  | .ldh _ => [0x42]
  | .ldhs _ => [0x43]
  | .ldw _ => [0x44]
  | .ldws _ => [0x45]
  | .ld _ => [0x46]
  | .stb _ => [0x48]
  | .sth _ => [0x49]
  | .stw _ => [0x4A]
  | .st _ => [0x4B]
  | .cas _ => [0x4C]
  | .aadd _ => [0x4D]
  | .aor _ => [0x4E]
  | .aand _ => [0x4F]
  | .ldc _ r => [0x50 + r.setWidth 8]
  | .stc _ r => [0x58 + r.setWidth 8]
  | .snarrow _ imm => [0x68, imm]
  | .scopy _ imm => [0x69, imm]
  | .slock _ imm => [0x6A, imm]
  | .sunlock _ imm => [0x6B, imm]
  | .sfield _ imm => [0x6C, imm]
  | .svoid _ imm => [0x6D, imm]
  | .jmpi _ => [0x7D]
  | .calli _ n => [0x7F, n]
  | .ret _ => [0x80]
  | .bmove _ imm => [0x81, imm]
  | .bfill _ imm => [0x82, imm]
  | .crc64 _ imm => [0x83, imm]
  | .qres _ => [0x88]
  | .qwr _ => [0x89]
  | .qcommit _ => [0x8A]
  | .qpop _ => [0x8B]
  | .qrel _ => [0x8C]
  | .qflush _ => [0x8D]
  | .ledopen _ => [0x90]
  | .ledset _ => [0x91]
  | .ledrd _ => [0x92]
  | .gbar _ => [0x94]
  | .gred _ op => [0x95, op]
  | .gbcast _ => [0x96]
  | .grecv _ => [0x97]
  | .rkld _ => [0x98]
  | .aese _ => [0x99]
  | .aesel _ => [0x9A]
  | .aesd _ => [0x9B]
  | .aesdl _ => [0x9C]
  | .gqry _ => [0x9D]
  | .wait _ _ => [0xF0, 0x00]
  | .yield _ => [0xF0, 0x01]
  | .fence _ => [0xF0, 0x02]
  | .evsync _ => [0xF0, 0x03]
  | .eret _ => [0xF0, 0x04]
  | .trap _ u => [0xF0, 0x05, u]
  | .bkpt _ => [0xF0, 0x06]
  | .rsmode _ => [0xF0, 0x07]
  | .rdtime _ => [0xF0, 0x08]
  | .stim _ u => [0xF0, 0x09, u]
  | .probe _ => [0xF0, 0x10]
  | .tlbwr _ => [0xF0, 0x11]
  | .tlbinv _ => [0xF0, 0x12]
  | .tlbinva _ => [0xF0, 0x13]
  | .evclaim _ => [0xF1, 0x00, 0x04]
  | .ctxLoad _ => [0xF2, 0x00, 0x07]
  | .ctxNewload _ => [0xF2, 0x00, 0x07]
  | .ctxPark _ => [0xF2, 0x00, 0x07]
  | .ctxFree _ => [0xF2, 0x00, 0x07]
  | .eveoi _ => [0xF2, 0x01, 0x04]
  | .evwdogWrite _ => [0xF2, 0x07, 0x04]
  | .pipecfgIcinv _ => [0xF2, 0x11, 0x00]
  | .ccwWrite _ => [0xF2, 0x60, 0x00]
  | .tsbpSet _ => [0xF2, 0x90, 0x00]
  | .etsbSet _ => [0xF2, 0x91, 0x00]
  | .dtpSet _ => [0xF2, 0x92, 0x00]
  | .tsbpGet _ => [0xF2, 0x98, 0x00]
  | .etsbGet _ => [0xF2, 0x99, 0x00]
  | .dtpGet _ => [0xF2, 0x9A, 0x00]
  | .fadd _ f r => [fpOpcode f 0x0, r]
  | .fsub _ f r => [fpOpcode f 0x1, r]
  | .fmul _ f r => [fpOpcode f 0x2, r]
  | .fdiv _ f r => [fpOpcode f 0x3, r]
  | .fsqrt _ f r => [fpOpcode f 0x4, r]
  | .fmin _ f r => [fpOpcode f 0x5, r]
  | .fmax _ f r => [fpOpcode f 0x6, r]
  | .fcmp _ f r => [fpOpcode f 0x7, r]
  | .fmovi _ f r => [fpOpcode f 0x8, r]
  | .fmovo _ f r => [fpOpcode f 0x9, r]
  | .fcvti _ f r => [fpOpcode f 0xA, r]
  | .fcvtf _ f r => [fpOpcode f 0xB, r]
  | .fmov _ f r => [fpOpcode f 0xC, r]
  | .fneg _ f r => [fpOpcode f 0xD, r]
  | .fabs _ f r => [fpOpcode f 0xE, r]
  | .fcvt _ f r => [fpOpcode f 0xF, r]
  | .asrAccess _ wr => [if wr then 0xF2 else 0xF1, 0x50, 0x00]
  | .seg _ r => [0x60 + r.setWidth 8]
  | _ => []

/-- The instruction cache of core 0 holds the bytes at the PC, behind the prefix if there is one; NOPs follow. -/
def codedAs (s : State) (l : List Byte) : State := s.modCore 0 (fun d =>
  let pre := match d.seg with
    | some r => [0x60 + r.setWidth 8]
    | none => []
  { d with icache := [(0, { ways := [(0, { line := 0x7800, data := pre ++ l })] })] })

/-- The instruction stands there. -/
def coded (s : State) (i : Instr) : State := codedAs s (codeOf i)

/-- What the instruction answers where its bytes stand at the PC. -/
def ex (i : Instr) (s : State) : Host.Outcome State Fault Refusal := exec i (coded s i)

/-- The conclusion of `RunsTo`, as a check of every entry that the tables hold. -/
def runsTo (i : Instr) (s : State) (pc : Nat) (f : Ctx → Ctx) (g : Core → Core) (h : State → State) : Bool :=
  let s := coded s i
  let t := s.issuing c0
  let x := s.at_ c0 0
  after (exec i s) fun u =>
    decide (u.ctx 0 0 = (f x.found).goneOn x pc) &&
    decide (u.core 0 = (g (t.core 0)).finished (t.codeLines 0 x (s.prefixLen c0 + (codeOf i).length)) (decide (s.pairAt c0 0 (codeOf i) = .opens))) &&
    decide (u.ctxs.filter (fun e => e.1 ≠ 0) = t.ctxs.filter (fun e => e.1 ≠ 0)) &&
    decide (u.cores.filter (fun e => e.1 ≠ 0) = t.cores.filter (fun e => e.1 ≠ 0)) &&
    decide ({ u with ctxs := t.ctxs, cores := t.cores } = h t)

/-- The conclusion of `Runs`. -/
def runs (i : Instr) (s : State) (f : Ctx → Ctx) (g : Core → Core) : Bool :=
  runsTo i s (0x1E0000 + (codeOf i).length + s.prefixLen c0) f g id

/-- Instruction `i` leaves the ring `out` of the small state with the ring `ins`, and changes nothing else. -/
def leaves (i : Instr) (ins out : List Slot) : Bool := runs i (box ins) (fun x => { x with ring := out }) id

/-- As `leaves`, for words. -/
def words (i : Instr) (ins out : List Word) : Bool := leaves i (ins.map .val) (out.map .val)

/-- The conclusion of `RunsTagged` in the small state. -/
def tagged (i : Instr) (ins rest : List Slot) (d : TagRec) : Bool :=
  let s := box ins
  runsTo i s (0x1E0000 + (codeOf i).length) (fun x => { x with
    ring := .tag 0 :: rest
    tags := [(0, { d with
      dpc := x.pc
      gen := s.tagCtr })] }) id (fun t => { t with tagCtr := t.tagCtr + 1 })

/-- The instruction issues in the state, and no prefix stands before it. -/
def Ready (s : State) (i : Instr) : Prop := Issues (coded s i) c0 0 (codeOf i) ∧ Bare (coded s i) c0

/-! ## Stack, literal and integer instructions -/

/-- What the statements about one core assume of a state at an issue: the small state meets it, for an instruction of every length and one that
may open a fused pair. -/
theorem meets_issue : (∀ i ∈ [Instr.nop c0, .lit8 c0 1, .lit16 c0 1, .jmp c0 1, .lit32 c0 1, .lit64 c0 1, .dup c0], Ready (box [.val 3, .val 4]) i) ∧
    ((box [.val 3, .val 4]).at_ c0 0).tagFree ∧ ((box [.val 3, .val 4]).at_ c0 0).sysctl = true ∧
    ((box [.val 3, .val 4]).at_ c0 0).arithTag = none := by
  unfold Ready Issues Bare Ctx.tagFree
  decide +kernel

theorem test_stackMoves : words (.nop c0) [1, 2, 3] [1, 2, 3] && words (.dup c0) [1, 2] [1, 1, 2] && words (.swap c0) [1, 2] [2, 1] &&
    words (.over c0) [1, 2] [2, 1, 2] && words (.rot c0) [1, 2, 3, 4] [3, 1, 2, 4] && words (.nip c0) [1, 2] [1] &&
    words (.tuck c0) [1, 2] [1, 2, 1] = true := by decide +kernel

/-- The instruction after DUP is ADD: the two are a fused pair, and the second uses the pair up (R166). -/
def fused (d : Core) : State := (coded (box [.val 3, .val 4]) (.dup c0)).modCore 0 (fun _ => { d with
  run := some 0
  icache := [(0, { ways := [(0, { line := 0x7800, data := [0x01, 0x20] })] })] })

theorem test_fused : (fused {}).pairAt c0 0 [0x01] = .opens ∧ (fused { fuse := false }).pairAt c0 0 [0x01] = .no ∧
    after (exec (.dup c0) (fused {})) (fun u => decide ((u.core 0).pair = true ∧ (u.ctx 0 0).ring = [.val 3, .val 3, .val 4]) &&
      after (exec (.add c0) u) (fun w => decide ((w.core 0).pair = false ∧ tget 0 (w.core 0).perf 2 = 1 ∧ (w.ctx 0 0).ring = [.val 6, .val 4]))) = true := by
  decide +kernel

/-- Statement `BinaryOps`: values at the ends of the range. -/
theorem test_binaryOps :
    (∀ x ∈ ([(.add c0, BitVec.allOnes 64, 2, 1), (.sub c0, 0, 1, BitVec.allOnes 64), (.and c0, 6, 3, 2), (.or c0, 6, 3, 7), (.xor c0, 6, 3, 5),
      (.shl c0, 1, 127, 0x8000000000000000), (.shr c0, 0x8000000000000000, 63, 1), (.sar c0, 0x8000000000000000, 63, BitVec.allOnes 64),
      (.rol c0, 0x8000000000000000, 1, 1), (.ror c0, 1, 1, 0x8000000000000000), (.rol c0, 5, 64, 5), (.eq c0, 4, 4, 1), (.eq c0, 4, 5, 0),
      (.lt c0, BitVec.allOnes 64, 0, 1), (.ltu c0, BitVec.allOnes 64, 0, 0), (.min c0, BitVec.allOnes 64, 1, BitVec.allOnes 64),
      (.max c0, BitVec.allOnes 64, 1, 1), (.minu c0, BitVec.allOnes 64, 1, 1), (.maxu c0, BitVec.allOnes 64, 1, BitVec.allOnes 64)]
      : List (Instr × Word × Word × Word)),
      words x.1 [x.2.2.1, x.2.1, 9] [x.2.2.2, 9] = true) := by decide +kernel

theorem test_unaryOps :
    (∀ x ∈ ([(.not c0, 0, BitVec.allOnes 64), (.neg c0, 1, BitVec.allOnes 64), (.popc c0, 0xF0F, 8), (.clz c0, 0, 64), (.clz c0, 1, 63),
      (.bswap c0, 0x0102030405060708, 0x0807060504030201), (.sext c0 7, 0x80, 0xFFFFFFFFFFFFFF80), (.sext c0 63, 5, 5),
      (.zext c0 0, 3, 1), (.zext c0 63, BitVec.allOnes 64, BitVec.allOnes 64)] : List (Instr × Word × Word)),
      words x.1 [x.2.1, 9] [x.2.2, 9] = true) := by decide +kernel

theorem test_pushedWords :
    (∀ x ∈ ([(.lit8 c0 0x80, 0xFFFFFFFFFFFFFF80), (.lit16 c0 0x8000, 0xFFFFFFFFFFFF8000), (.lit32 c0 0x80000000, 0xFFFFFFFF80000000),
      (.lit64 c0 0x0123456789ABCDEF, 0x0123456789ABCDEF), (.depth c0, 1), (.rdmph c0, 0), (.rdmpl c0, 0), (.rdtime c0, 0)]
      : List (Instr × Word)), words x.1 [9] [x.2, 9] = true) := by decide +kernel

def bad0 : Poison := { tag := 3, cause := 11, dpc := 0, addr := 0 }

theorem test_dropAndPick : leaves (.drop c0) [.val 1, .val 2] [.val 2] && leaves (.drop c0) [.tag 3, .val 2] [.val 2] &&
    runs (.drop c0) (box [.poison bad0]) (fun x => { x with
      ring := []
      pdrop := 1 }) id &&
    words (.pick c0 2) [1, 2, 3] [3, 1, 2, 3] && words (.pick c0 0) [1] [1, 1] = true := by decide +kernel

/-- The small state with an address on the return stack. -/
def called : State := (box [.val 5]).modCtx 0 0 (fun x => { x with rstack := [(0x1E0040, 1)] })

theorem meets_returnStack : Ready called (.rpop c0) ∧ (called.at_ c0 0).rstack = [(0x1E0040, 1)] ∧ (called.at_ c0 0).rsFloor ≤ 0 := by
  unfold Ready Issues Bare
  decide +kernel

theorem test_returnStack :
    runs (.rpush c0) called (fun x => { x with
      ring := []
      rstack := [(5, 0), (0x1E0040, 1)] }) id &&
    runs (.rpop c0) called (fun x => { x with
      ring := [.val 0x1E0040, .val 5]
      rstack := [] }) id &&
    runs (.rpeek c0) called (fun x => { x with ring := [.val 0x1E0040, .val 5] }) id = true := by decide +kernel

/-- (2^64 - 1)^2 = (2^64 - 2) 2^64 + 1, and (-1)(-1) = 1. -/
theorem test_products :
    runs (.mul c0) (box [.val (BitVec.allOnes 64), .val (BitVec.allOnes 64)]) (fun x => { x with
      ring := [.val 1]
      prod := some (0xFFFFFFFFFFFFFFFE, 1) }) id &&
    runs (.muls c0) (box [.val (BitVec.allOnes 64), .val (BitVec.allOnes 64)]) (fun x => { x with
      ring := [.val 1]
      prod := some (0, 1) }) id = true := by decide +kernel

/-- The record of an arithmetic tag. -/
def arith (v f : Word) : TagRec := { dpc := 0, addr := 0, dest := .stack, arith := true, res := some (.value v f) }

/-- DIVU of 1,000,000 by 7 (Figure 8.2's operands), the truncation of -7 / 2, and both exceptional cases of Table 8.1. -/
theorem test_divisions :
    (∀ x ∈ ([(.divu c0, 1000000, 7, 142857, 0), (.remu c0, 1000000, 7, 1, 0), (.div c0, BitVec.ofInt 64 (-7), 2, BitVec.ofInt 64 (-3), 0),
      (.rem c0, BitVec.ofInt 64 (-7), 2, BitVec.ofInt 64 (-1), 0), (.div c0, 5, 0, 5, fDZ), (.rem c0, 5, 0, 5, fDZ), (.divu c0, 5, 0, 5, fDZ),
      (.remu c0, 5, 0, 5, fDZ), (.div c0, 0x8000000000000000, BitVec.allOnes 64, 0x8000000000000000, fDV),
      (.rem c0, 0x8000000000000000, BitVec.allOnes 64, 0, fDV)] : List (Instr × Word × Word × Word × Word)),
      tagged x.1 [.val x.2.2.1, .val x.2.1] [] (arith x.2.2.2.1 x.2.2.2.2) = true) := by decide +kernel

/-! ## Control transfer -/

/-- The instruction goes to `pc`, and the ring is `out`. -/
def goes (i : Instr) (ins out : List Word) (pc : Nat) : Bool :=
  runsTo i (box (ins.map .val)) pc (fun x => { x with ring := out.map .val }) id id

/-- The branch goes to `pc`, and the prediction table learns of it. -/
def turns (i : Instr) (ins : List Word) (taken : Bool) (pc : Nat) : Bool :=
  let s := box (ins.map .val)
  runsTo i s pc (fun x => { x with ring := [] }) (Stated.learns (coded s i) c0 0 taken) id

theorem test_branches :
    (∀ x ∈ ([(.beq c0 0x10, [2, 2], true), (.beq c0 0x10, [2, 3], false), (.bne c0 0x10, [2, 3], true), (.blt c0 0x10, [1, BitVec.allOnes 64], true),
      (.bltu c0 0x10, [1, BitVec.allOnes 64], false), (.bge c0 0x10, [1, 1], true), (.bgeu c0 0x10, [1, BitVec.allOnes 64], true), (.beqz c0 0x10, [0], true),
      (.bnez c0 0x10, [0], false), (.bltz c0 0x10, [BitVec.allOnes 64], true), (.bgez c0 0x10, [0], true), (.bgtz c0 0x10, [0], false),
      (.blez c0 0x10, [0], true)] : List (Instr × List Word × Bool)),
      turns x.1 x.2.1 x.2.2 (if x.2.2 then 0x1E0013 else 0x1E0003) = true) ∧ turns (.beqz c0 0xFFFD) [0] true 0x1E0000 = true := by decide +kernel

theorem test_jumpsAndCalls : goes (.jmp c0 0xFFFFFC) [7] [7] 0x1E0000 && goes (.jmpi c0) [0x1E0100, 7] [7] 0x1E0100 &&
    runsTo (.call c0 1 0x10) (box [.val 7, .val 8]) 0x1E0015 (fun x => { x with
      rstack := [(0x1E0005, 0)]
      wb := 1 }) id id &&
    runsTo (.calli c0 0) (box [.val 0x1E0100, .val 8]) 0x1E0100 (fun x => { x with
      ring := [.val 8]
      rstack := [(0x1E0002, 0)]
      wb := 1 }) id id &&
    runsTo (.ret c0) called 0x1E0040 (fun x => { x with
      rstack := []
      wb := 1 }) id id = true := by decide +kernel

/-! ## Capabilities, round keys, floating point -/

/-- The check answers `a`. -/
def okIs {α : Type} [DecidableEq α] (x : Chk α) (a : α) : Bool :=
  match x with
  | .ok b => decide (b = a)
  | _ => false

theorem ok_of_is {α : Type} [DecidableEq α] {x : Chk α} {a : α} (h : okIs x a = true) : x = .ok a := by
  unfold okIs at h
  split at h <;> simp_all

/-- A capability over the first kilobyte of shelf 0's memory. -/
def cap0 : Cap := { rights := 0xC4, otype := 0, limit := 0xFF0001000003FF, base := 0xFF000100000000, tag := true }

/-- The small state with `e` in segment register 5. -/
def held (e : Cap) (l : List Slot) : State := (box l).modCtx 0 0 (fun x => x.setSeg 5 e)

theorem meets_snarrow : Ready (held cap0 [.val 0xC0, .val 0xFF0001000003FF, .val 0xFF000100000000]) (.snarrow c0 5) ∧
    ((held cap0 []).at_ c0 0).segReady 5 = .ok cap0 ∧ alook 5 ((held cap0 []).at_ c0 0).segPoison = none ∧
    (0xC0 : Word).setWidth 8 &&& ~~~ cap0.rights = 0 :=
  ⟨by unfold Ready Issues Bare; decide +kernel, ok_of_is (by decide +kernel), by decide +kernel, by decide +kernel⟩

theorem test_snarrow : runs (.snarrow c0 5) (held cap0 [.val 0xC0, .val 0xFF0001000003FF, .val 0xFF000100000010])
    (fun x => ({ x with ring := [] }).setSeg 5 { cap0 with
      rights := 0xC0
      base := 0xFF000100000010 }) id = true := by decide +kernel

theorem test_capabilityMoves : runs (.scopy c0 0x15) (held cap0 []) (fun x => x.setSeg 1 cap0) id &&
    runs (.svoid c0 5) (held cap0 []) (fun x => x.setSeg 5 { cap0 with tag := false }) id &&
    [0, 1, 2, 3, 4].all (fun f => runs (.sfield c0 (BitVec.ofNat 8 (16 * f + 5))) (held cap0 []) (fun x => { x with
      ring := [.val ([0xFF000100000000, 0xFF0001000003FF, 0xC4, 0, 1].getD f 0)] }) id) = true := by decide +kernel

theorem meets_sealing : ((held cap0 [.val 255]).at_ c0 0).segReady 4 = .ok (rootCap 0x0C 0 1 255) ∧ (rootCap 0x0C 0 1 255).s = true :=
  ⟨ok_of_is (by decide +kernel), by decide⟩

theorem test_sealing : runs (.slock c0 0x54) (held cap0 [.val 255]) (fun x => ({ x with ring := [] }).setSeg 5 { cap0 with otype := 255 }) id &&
    runs (.sunlock c0 0x54) (held { cap0 with otype := 255 } []) (fun x => x.setSeg 5 cap0) id = true := by decide +kernel

/-- The first round of FIPS 197, appendix C.3. -/
theorem test_aesRound : aesRound ((List.range 16).map (fun i => byteOf (16 + i))) ((List.range 16).map (fun i => byteOf (16 * i))) =
    [0x4f, 0x63, 0x76, 0x06, 0x43, 0xe0, 0xaa, 0x85, 0xef, 0xa7, 0x21, 0x32, 0x01, 0xa4, 0xe7, 0x05] := by decide +kernel

theorem test_rkld : runs (.rkld c0) (box [.val 2, .val 1, .val 9]) (fun x => { x with
    ring := [.val 9]
    rkeyNext := some (((2 : Word) ++ (1 : Word))) }) id = true := by decide +kernel

theorem test_aes : (∀ p ∈ ([(.aese c0, aesRound), (.aesel c0, aesLast), (.aesd c0, aesDecRound), (.aesdl c0, aesInvLast)]
    : List (Instr × (List Byte → List Byte → List Byte))),
    leaves p.1 [.val 0xF0E0D0C0B0A09080, .val 0x7060504030201000, .val 9]
      [.val (bytesWord ((p.2 (leBytes 16 0) (wordBytes 0x7060504030201000 ++ wordBytes 0xF0E0D0C0B0A09080)).drop 8)),
        .val (bytesWord (p.2 (leBytes 16 0) (wordBytes 0x7060504030201000 ++ wordBytes 0xF0E0D0C0B0A09080))), .val 9] = true) := by decide +kernel

theorem test_gqry : tagged (.gqry c0) [.val 0] [] { dpc := 0, addr := 0, dest := .stack, res := some (.value 15 0) } &&
    tagged (.gqry c0) [.val 1] [] { dpc := 0, addr := 0, dest := .stack, res := some (.value 3 0) } = true := by decide +kernel

/-- The small state whose context owns the FP registers: register 1 holds `a`, register 2 holds `b`. -/
def fpBox (a b : Word) (l : List Slot) : State := (box l).modCore 0 (fun d => { d with
  fpOwn := some 0
  fpr := [(1, a), (2, b)] })

theorem meets_fp : Ready (fpBox 0 0 []) (.fadd c0 .f64 0x12) ∧ Stated.fpReady (fpBox 0 0 []) c0 0 0x12 ∧ ((fpBox 0 0 []).at_ c0 0).tagFree := by
  refine ⟨?_, ⟨by decide +kernel, fun f _ => ?_⟩, ?_⟩
  · unfold Ready Issues Bare; decide +kernel
  · have h : (((fpBox 0 0 []).issuing c0).core ((fpBox 0 0 []).coreKey c0)).fpPend = [] ∧
        (((fpBox 0 0 []).issuing c0).core ((fpBox 0 0 []).coreKey c0)).fpPoison = [] := by decide +kernel
    rw [h.1, h.2]
    exact ⟨rfl, rfl⟩
  · unfold Ctx.tagFree; decide +kernel

/-- The FP instruction leaves `v` in register 1 and `fl` in the ASR. -/
def fpGives (i : Instr) (a b v fl : Word) : Bool :=
  runs i (fpBox a b []) (fun x => { x with asr := fl }) (fun d => { d with fpr := tset 0 d.fpr 1 v })

/-- 1.0 and -2.0 in both formats. -/
theorem test_fpQuick : fpGives (.fmin c0 .f64 0x12) 0x3FF0000000000000 0xC000000000000000 0xC000000000000000 0 &&
    fpGives (.fmax c0 .f32 0x12) 0x3F800000 0xC0000000 0x3F800000 0 && fpGives (.fmov c0 .f32 0x12) 7 0x1C0000000 0xC0000000 0 &&
    fpGives (.fneg c0 .f64 0x12) 7 0xC000000000000000 0x4000000000000000 0 &&
    fpGives (.fabs c0 .f32 0x12) 7 0xC0000000 0x40000000 0 = true := by decide +kernel

theorem test_fpStack : runs (.fcmp c0 .f64 0x12) (fpBox 0x3FF0000000000000 0xC000000000000000 []) (fun x => { x with
      ring := [.val (BitVec.ofNat 64 (fpCmp (fp64.read 0x3FF0000000000000) (fp64.read 0xC000000000000000)).1)] }) id &&
    runs (.fmovo c0 .f32 0x10) (fpBox 0x1C0000000 0 []) (fun x => { x with ring := [.val 0xC0000000] }) id &&
    runs (.fmovi c0 .f64 0x10) (fpBox 0 0 [.val 5]) (fun x => { x with ring := [] }) (fun d => { d with fpr := tset 0 d.fpr 1 5 }) = true := by
  decide +kernel

/-- The FP instruction leaves register 1 pending on tag 0, which holds `v` and `fl`. -/
def fpPends (i : Instr) (s : State) (rest : List Slot) (v fl : Word) : Bool :=
  runsTo i s 0x1E0002 (fun x => { x with
    ring := rest
    tags := [(0, { dpc := x.pc, addr := 0, dest := .fp 1, arith := true, fp := true, gen := 0, res := some (.value v fl) })] })
    (fun d => { d with fpPend := [(1, 0)] }) (fun t => { t with tagCtr := t.tagCtr + 1 })

/-- 1.0 and 2.0 in binary64: 3, -1, 2, 1/2; the root of 4.0; 2.0 as binary32 and 5 as binary64; -2.0 as an integer; 1.0 / 0.0. -/
theorem test_fpTagged :
    (∀ x ∈ ([(.fadd c0 .f64 0x12, 0x3FF0000000000000, 0x4000000000000000, 0x4008000000000000, 0),
      (.fsub c0 .f64 0x12, 0x3FF0000000000000, 0x4000000000000000, 0xBFF0000000000000, 0),
      (.fmul c0 .f64 0x12, 0x3FF0000000000000, 0x4000000000000000, 0x4000000000000000, 0),
      (.fdiv c0 .f64 0x12, 0x3FF0000000000000, 0x4000000000000000, 0x3FE0000000000000, 0),
      (.fsqrt c0 .f64 0x12, 0, 0x4010000000000000, 0x4000000000000000, 0),
      (.fcvt c0 .f32 0x12, 0, 0x4000000000000000, 0x40000000, 0),
      (.fcvt c0 .f64 0x12, 0, 0x40000000, 0x4000000000000000, 0)] : List (Instr × Word × Word × Word × Word)),
      fpPends x.1 (fpBox x.2.1 x.2.2.1 []) [] x.2.2.2.1 x.2.2.2.2 = true) ∧
    fpPends (.fcvti c0 .f64 0x10) (fpBox 0 0 [.val 5]) [] 0x4014000000000000 0 = true ∧
    runsTo (.fcvtf c0 .f64 0x10) (fpBox 0xC000000000000000 0 []) 0x1E0002 (fun x => { x with
      ring := [.tag 0]
      tags := [(0, { dpc := x.pc, addr := 0, dest := .stack, arith := true, fp := true, res := some (.value (BitVec.ofInt 64 (-2)) 0) })] }) id (fun t => { t with tagCtr := t.tagCtr + 1 }) = true := by decide +kernel

/-! ## Control numbers, waits, debug instructions -/

/-- The small state with values in the registers that CTLRD reads. -/
def filled (l : List Slot) : State := ((box l).modCtx 0 0 (fun x => { x with
  mph := 1
  mpl := 2
  asr := 0x107
  wtime := 4
  pkeys := 5
  xlat := 6
  s1root := 7
  s2root := 8
  walka1 := 9
  walka2 := 10 })).modCore 0 (fun d => { d with evtmr := 11 })

theorem meets_controls : Ready (filled [.val 1]) (.ctlrd c0 0x011) ∧ ((filled [.val 1]).at_ c0 0).sysctl = true ∧
    ((filled [.val 1]).at_ c0 0).arithTag = none := by
  unfold Ready Issues Bare
  decide +kernel

theorem test_controlReads :
    (∀ p ∈ ([(.ctlrd c0 0x011, 3), (.ctlrd c0 0x020, 1), (.ctlrd c0 0x021, 2), (.ctlrd c0 0x050, 0x107), (.asrAccess c0 false, 0x107), (.ctlrd c0 0x061, 4),
      (.ctlrd c0 0x080, 5), (.ctlrd c0 0x081, 6), (.ctlrd c0 0x082, 7), (.ctlrd c0 0x083, 8), (.ctlrd c0 0x084, 9), (.ctlrd c0 0x085, 10),
      (.ctlrd c0 0x406, 11)] : List (Instr × Word)),
      runs p.1 (filled [.val 1]) (fun y => { y with ring := [.val p.2, .val 1] }) id = true) := by decide +kernel

/-- Every bit written as 1: what the register keeps. -/
theorem test_controlWrites :
    (∀ p ∈ ([(.ctlwr c0 0x050, fun y => { y with asr := asrWrite 0 (BitVec.allOnes 64) }),
      (.asrAccess c0 true, fun y => { y with asr := asrWrite 0 (BitVec.allOnes 64) }), (.ctlwr c0 0x061, fun y => { y with wtime := BitVec.allOnes 64 }),
      (.ctlwr c0 0x080, fun y => { y with pkeys := 0x7777777777777777 }), (.ctlwr c0 0x081, fun y => { y with xlat := 0xCFFFFFFF00000000 }),
      (.ctlwr c0 0x082, fun y => { y with s1root := 0x7FFFFFFFFF000 }), (.ctlwr c0 0x083, fun y => { y with s2root := 0x7FFFFFFFFF000 }),
      (.ctlwr c0 0x060, fun y => { y with
        prio := 3
        ct := true
        rsm := true
        wmask := 15 }),
      (.ccwWrite c0, fun y => { y with
        prio := 3
        ct := true
        rsm := true
        wmask := 15 })] : List (Instr × (Ctx → Ctx))),
      runs p.1 (box [.val (BitVec.allOnes 64), .val 9]) (fun y => p.2 { y with ring := [.val 9] }) id = true) := by decide +kernel

/-- The small state without SYSCTL authority, and with a trap that has no descriptor: the core stops for its reset. -/
def plain : State := (box [.val 1]).modCtx 0 0 (fun x => x.setSeg segT {})

theorem meets_controlRefusals : Ready plain (.ctlrd c0 0x013) ∧ Ready plain (.ctlwr c0 0x406) ∧ (plain.at_ c0 0).sysctl = false ∧
    ctlNum 0x013 = false ∧ capNum 0x090 = true ∧ (ctlNum 0x081 && !capNum 0x081 && sysctlNum 0x081) = true := by
  unfold Ready Issues Bare
  decide +kernel

/-- The instruction raises the exception `e` in the state `s`. -/
def raises (i : Instr) (s : State) (e : ExcReport) : Bool := gives (ex i s) (Stated.raised (coded s i) c0 0 (codeOf i) e)

theorem test_controlRefusals :
    raises (.ctlrd c0 0x013) plain ilReport && raises (.ctlwr c0 0x1000) plain ilReport && raises (.ctlrd c0 0x090) plain ilReport &&
    raises (.ctlrd c0 0x081) plain (cfReport cSysctl kOther segT 0) && raises (.ctlwr c0 0x406) plain (cfReport cSysctl kOther segT 0) = true := by
  decide +kernel

theorem meets_capabilityTransfers : ((held cap0 [.val 5]).at_ c0 0).segReady 5 = .ok cap0 ∧ ((held cap0 [.val 5]).at_ c0 0).sysctl = true :=
  ⟨ok_of_is (by decide +kernel), by decide +kernel⟩

theorem test_capabilityTransfers :
    runs (.tsbpSet c0) (held cap0 [.val 5]) (fun y => { y with
      ring := []
      tsbp := cap0 }) id &&
    runs (.etsbSet c0) (held cap0 [.val 5]) (fun y => { y with
      ring := []
      etsb := cap0 }) id &&
    runs (.dtpSet c0) (held cap0 [.val 5]) (fun y => { y with ring := [] }) (fun k => { k with
      dtp := cap0
      dauth := rootCap 0x04 1 0 0 }) &&
    runs (.tsbpGet c0) ((box [.val 5]).modCtx 0 0 (fun y => { y with tsbp := cap0 })) (fun y => { y.setSeg 5 cap0 with ring := [] }) id &&
    runs (.etsbGet c0) ((box [.val 5]).modCtx 0 0 (fun y => { y with etsb := cap0 })) (fun y => { y.setSeg 5 cap0 with ring := [] }) id &&
    runs (.dtpGet c0) ((box [.val 5]).modCore 0 (fun k => { k with dtp := cap0 })) (fun y => { y.setSeg 5 cap0 with ring := [] }) id = true := by
  decide +kernel

/-- The small state with a second context of the same priority ready in store 1. -/
def two (l : List Slot) : State := { box l with ctxs := [(0, ctx0 l), (1, { ctx0 [] with st := .ready })] }

theorem meets_yield : Ready (two []) (.yield c0) ∧ (two []).issuing c0 = (two []) ∧ (two []).runnable 0 1 = true ∧
    ((two []).at_ c0 0).prio.toNat ≤ ((two []).ctx 0 1).prio.toNat ∧ (∀ i, i < 16 → i ≠ 0 → (box []).runnable 0 i = false) := by
  unfold Ready Issues Bare
  decide +kernel

/-- The small state with the hold that FREE or PARK has asked for. -/
def askedBox : State := { box [] with ctxs := [(0, { ctx0 [] with hold := true })] }

theorem meets_yieldHold : Ready askedBox (.yield c0) ∧ (askedBox.at_ c0 0).hold = true ∧ (askedBox.at_ c0 0).tags = [] := by
  unfold Ready Issues Bare
  decide +kernel

theorem test_yieldHold : after (ex (.yield c0) askedBox) (fun u => decide ((u.ctx 0 0).held = true ∧ (u.core 0).run = none)) = true := by decide +kernel

theorem test_pipelineControls :
    runs (.pipecfgIcinv c0) (box [.val 4]) (fun y => { y with ring := [] }) (fun k => { k with
      bpen := false
      fuse := false
      icache := [] }) &&
    runs (.evsync c0) ((box []).modCore 0 (fun k => { k with window := some (16, 3, false) })) id
      (fun k => { k with window := some (16, 3, true) }) &&
    runs (.rsmode c0) (box [.val 1]) (fun y => { y with
      ring := []
      rsm := true }) id &&
    runs (.yield c0) (box []) id id &&
    runs (.yield c0) (two []) (fun y => { y with st := .ready }) (fun k => { k with run := none }) = true := by decide +kernel

/-- The small state with sources enabled for WAIT, and some pending. -/
def waiting (m p : BitVec 4) : State := (box []).modCtx 0 0 (fun x => { x with
  wmask := m
  pend := p })

theorem meets_wait : Ready (waiting 1 2) (.wait c0 0) ∧ ((waiting 1 2).at_ c0 0).pend &&& ((waiting 1 2).at_ c0 0).wmask = 0 ∧
    ((waiting 1 3).at_ c0 0).pend &&& ((waiting 1 3).at_ c0 0).wmask ≠ 0 := by
  unfold Ready Issues Bare
  decide +kernel

theorem test_wait : runs (.wait c0 0) (waiting 1 3) id id && runs (.wait c0 0) (waiting 0 3) id id && runs (.wait c0 1) (waiting 1 2) (fun x => { x with wwon := true }) id &&
    after (ex (.wait c0 0) (waiting 1 2)) (fun u => decide ((u.ctx 0 0).st = .sleeping ∧ (u.ctx 0 0).pc = 0x1E0002 ∧ (u.core 0).run = none)) = true := by
  decide +kernel

/-- The small state with the trace on, port 31 with it. -/
def traced : State := setB (setB (box [.val 7]) .vxTrcfg 63 true) .vxTrcfg 31 true

theorem meets_stim : Ready traced (.stim c0 31) ∧ (getB (traced.issuing c0) .vxTrcfg 63 && getB (traced.issuing c0) .vxTrcfg 31) = true ∧
    (getB (traced.issuing c0) .vxTrcfg 63 && getB (traced.issuing c0) .vxTrcfg 0) = false := by
  unfold Ready Issues Bare
  decide +kernel

theorem test_stim : runs (.stim c0 31) traced (fun y => { y with ring := [] }) (fun k => { k with stim := [Stated.stimPkt 0 0 31 0 7 0] }) &&
    runs (.stim c0 0) traced (fun y => { y with ring := [] }) id = true := by decide +kernel

/-- The small state with HALTBK set in a session that reaches shelf 0. -/
def haltBk : State := setB { box [] with vexek := { level := 3, shelves := BitVec.allOnes 64 } } .vxCtl 63 true

theorem meets_bkpt : Ready haltBk (.bkpt c0) ∧ getB (haltBk.issuing c0) .vxCtl 63 = true ∧ (haltBk.issuing c0).haltable 0 = true ∧
    (∀ g ∈ (haltBk.issuing c0).groupsOf 0, g = 0) := by
  unfold Ready Issues Bare
  decide +kernel

theorem test_bkpt : runsTo (.bkpt c0) haltBk 0x1E0000 id (fun k => { k with haltReq := true }) id &&
    raises (.bkpt c0) (box []) (plainReport dBK) = true := by decide +kernel

/-! ## Loads, stores and atomics -/

/-- Address 0x100100 of shelf 0's memory, as an offset in the data segment. -/
def at0 : Word := 0xFF000100100100

/-- Bytes 0x80 to 0x8F from address 0x100100 on. -/
def memBox (l : List Slot) : State := { box l with mem := (List.range 16).map (fun i => (0x100100 + i, byteOf (0x80 + i))) }

theorem meets_reaches : Ready (memBox [.val at0]) (.ldb c0) ∧ (∀ z ∈ [(1, 1), (2, 2), (4, 4), (8, 8)], Stated.reaches (memBox [.val at0]) c0 0 .load at0.toNat z.1 1 0x100100) ∧
    Stated.reaches (memBox [.val at0]) c0 0 .atomic at0.toNat 8 8 0x100100 ∧ Stated.reaches (memBox [.val at0]) c0 0 .ldc at0.toNat 16 16 0x100100 := by
  refine ⟨by unfold Ready Issues Bare; decide +kernel, ?_, ?_, ?_⟩
  · intro z hz
    simp only [List.mem_cons, List.not_mem_nil, or_false] at hz
    rcases hz with rfl | rfl | rfl | rfl <;>
      exact ⟨⟨0xFF000100100100, ok_of_is (by decide +kernel)⟩, by decide +kernel, by decide +kernel, by decide +kernel⟩
  all_goals exact ⟨⟨0xFF000100100100, ok_of_is (by decide +kernel)⟩, by decide +kernel, by decide +kernel, by decide +kernel⟩

theorem test_loads :
    (∀ x ∈ ([(.ldb c0, 0x80), (.ldbs c0, 0xFFFFFFFFFFFFFF80), (.ldh c0, 0x8180), (.ldhs c0, 0xFFFFFFFFFFFF8180), (.ldw c0, 0x83828180),
      (.ldws c0, 0xFFFFFFFF83828180), (.ld c0, 0x8786858483828180)] : List (Instr × Word)),
      runs x.1 (memBox [.val at0, .val 9]) (fun y => { y with ring := [.val x.2, .val 9] }) id = true) := by decide +kernel

theorem meets_stores : okIs (((memBox []).issuing c0).checkAccess 0 ((memBox []).at_ c0 0).found (((memBox []).issuing c0).dataSeg 0) .store at0.toNat 8)
    [⟨.mem 0x100100, false, at0.toNat, 8⟩] && !((memBox []).issuing c0).detOn 0 = true := by decide +kernel

theorem test_stores :
    (∀ x ∈ ([(.stb c0, [(0, 0xEF)]), (.sth c0, [(0, 0xEF), (1, 0xCD)]), (.stw c0, [(0, 0xEF), (1, 0xCD), (2, 0xAB), (3, 0x89)]),
      (.st c0, [(0, 0xEF), (1, 0xCD), (2, 0xAB), (3, 0x89), (4, 0x67), (5, 0x45), (6, 0x23), (7, 0x01)])] : List (Instr × List (Nat × Byte))),
      after (ex x.1 (memBox [.val at0, .val 0x0123456789ABCDEF, .val 9])) (fun u => decide ((u.ctx 0 0).ring = [.val 9] ∧
        (u.core 0).sbuf.flatMap (fun e => match e.block with
          | .mem a => e.bytes.map (fun b => (a + b.1 - 0x100100, b.2))
          | _ => []) = x.2 ∧ u.mem = (memBox []).mem)) = true) := by decide +kernel

/-- What `BufferedStores` says of the buffer. -/
theorem test_bufferedStores : (∀ x ∈ ([(.stb c0, 1), (.sth c0, 2), (.stw c0, 4), (.st c0, 8)] : List (Instr × Nat)),
    let s := memBox [.val at0, .val 0x0123456789ABCDEF, .val 9]
    let buf := appendEnts false [] (((s.issuing c0).modCtx 0 0 Ctx.found).storeEnts 0 0 [⟨.mem 0x100100, false, at0.toNat, x.2⟩]
      (leBytes x.2 0x0123456789ABCDEF) none)
    sbufCount buf ≤ sbufSize ∧ runs x.1 s (fun y => { y with ring := [.val 9] }) (fun d => { d with sbuf := buf }) = true) := by decide +kernel

/-- The small state after ST of a word at address 0x100100. -/
def stored : State :=
  match execSt c0 (codedAs (memBox [.val at0, .val 0x0123456789ABCDEF]) [0x4B]) with
  | .next t => t
  | _ => State.reset

theorem test_storeDrain : (stored.core 0).sbuf.length = 1 ∧ after (exec (.storeDrain c0) stored) (fun u => decide ((u.core 0).sbuf = [] ∧
    u.word 0x100100 = 0x0123456789ABCDEF ∧ u.word 0x100108 = 0x8F8E8D8C8B8A8988)) = true := by decide +kernel

theorem meets_storeDrains : stored.coreLive 0 = true ∧ (∀ e ∈ (stored.core 0).sbuf, e.sent = false ∧ e.block = .mem 0x100100 ∧
    (e.bytes.map (·.1)).Nodup) ∧ stored.shelfGone (0x100100 / 0x200000) = false := by decide +kernel

theorem test_fence : runs (.fence c0) ((box [.val 9]).modCtx 0 0 (fun x => { x with storeErrs := 3 })) (fun x => { x with
    ring := [.val 3, .val 9]
    storeErrs := 0 }) id && !((box [.val 9]).issuing c0).storePending 0 = true := by decide +kernel

theorem test_atomics :
    (∀ x ∈ ([(.cas c0, [at0, 0x8786858483828180, 5], [5, 0x8786858483828180, at0], 5), (.cas c0, [], [5, 7, at0], 0x8786858483828180),
      (.aadd c0, [], [0x7879, at0], 0x878685848382F9F9), (.aor c0, [], [0xFF, at0], 0x87868584838281FF), (.aand c0, [], [0xFF, at0], 0x80)]
      : List (Instr × List Word × List Word × Word)),
      after (ex x.1 (memBox (x.2.2.1.map .val))) (fun u => decide ((u.ctx 0 0).ring = [.val 0x8786858483828180] ∧ u.word 0x100100 = x.2.2.2 ∧
        u.word 0x100108 = 0x8F8E8D8C8B8A8988 ∧ (u.ctx 0 0).pc = 0x1E0001)) = true) := by decide +kernel

/-- `memBox` with the tag of the granule at 0x100100 set. -/
def tagBox (l : List Slot) : State := { memBox l with ctags := [(0x10010, true)] }

theorem test_ldc : runs (.ldc c0 5) (tagBox [.val at0]) (fun x => ({ x with ring := [] }).setSeg 5
    (capOfWords 0x8786858483828180 0x8F8E8D8C8B8A8988 true)) id && (tagBox []).tagAt 0x100100 = true := by decide +kernel

theorem test_stc : let s := held cap0 [.val at0]
    let buf := appendEnts false [] (((s.issuing c0).modCtx 0 0 Ctx.found).storeEnts 0 0 [⟨.mem 0x100100, false, at0.toNat, 16⟩] (fromWords cap0.words) (some true))
    cap0.g = true ∧ sbufCount buf ≤ sbufSize ∧ okIs ((s.issuing c0).checkAccess 0 (s.at_ c0 0).found ((s.issuing c0).dataSeg 0) .stc at0.toNat 16 16 false)
      [⟨.mem 0x100100, false, at0.toNat, 16⟩] = true ∧
    runs (.stc c0 5) s (fun x => { x with ring := [] }) (fun d => { d with sbuf := buf }) = true := by decide +kernel

/-! ## Long instructions -/

theorem test_emptyLong :
    runs (.bmove c0 0x57) (box [.val 0, .val 1, .val 2, .val 9]) (fun z => { z with ring := [.val 9] }) id &&
    runs (.bfill c0 0x05) (box [.val 0, .val 1, .val 2, .val 9]) (fun z => { z with ring := [.val 9] }) id &&
    runs (.crc64 c0 0x05) (box [.val 0, .val 1, .val 2, .val 9]) (fun z => { z with ring := [.val 2, .val 9] }) id &&
    runs (.stm c0 0) (box [.val 1, .val 9]) (fun z => { z with ring := [.val 9] }) id &&
    runs (.ldm c0 0) (box [.val 1, .val 9]) (fun z => { z with ring := [.val 9] }) id = true := by decide +kernel

/-- CRC64 over bytes 0x100104 on through seg.d: four bytes end at once, 20 leave 8 to do. -/
def crcBox (n : Nat) : State := memBox [.val (BitVec.ofNat 64 n), .val (at0 + 4), .val 5, .val 9]

theorem meets_crc : Ready (crcBox 4) (.crc64 c0 1) ∧ ((crcBox 4).at_ c0 0).readBad = none ∧
    okIs (((crcBox 20).at_ c0 0).checkCap 1 .load (at0 + 4).toNat 20 1 false) (rootCap 0xD7 0 0 0xFFFFFFFFFFFFFF, (at0 + 4).toNat) = true ∧
    okIs (((crcBox 20).issuing c0).checkPages 0 ((crcBox 20).at_ c0 0).found (rootCap 0xD7 0 0 0xFFFFFFFFFFFFFF) 1 .load (at0 + 4).toNat 12)
      [⟨.mem 0x100104, false, (at0 + 4).toNat, 12⟩] = true ∧
    ((crcBox 4).issuing c0).badIn 0x100104 4 = false := by
  unfold Ready Issues Bare
  decide +kernel

theorem test_crc :
    after (ex (.crc64 c0 1) (crcBox 4)) (fun u => decide ((u.ctx 0 0).ring = [.val ([0x84, 0x85, 0x86, 0x87].foldl crc64Byte 5), .val 9] ∧
      (u.ctx 0 0).pc = 0x1E0002)) &&
    after (ex (.crc64 c0 1) (crcBox 20)) (fun u => decide ((u.ctx 0 0).ring = [.val 8, .val (at0 + 16),
      .val (((memBox []).bytes 0x100104 12).foldl crc64Byte 5), .val 9] ∧ (u.ctx 0 0).pc = 0x1E0000)) = true := by decide +kernel

/-! ## Queues -/

/-- A capability for queue 1023 of shelf 0. -/
def qcap : Cap := { rights := 0xC0, otype := 0, limit := 1023, base := 1023, tag := true }

/-- `memBox` with queue 1023 present: depth 4, items of up to 8 words, 2 staging slots, at word 32. -/
def qBox (y : Queue) (e : Cap) (l : List Slot) : State :=
  (wrReg ((memBox l).modCtx 0 0 (fun x => x.setSeg 5 e)) (.shQcfg 0 1023)
    (bitIf 63 true ||| place 62 52 4 ||| place 51 43 8 ||| place 42 38 2 ||| place 15 0 0x9000)).setQueue 0 1023 y

def staged0 : Staged := { owner := .ctx 0 0, off := 0x9000, len := 8 }

theorem meets_queue : Ready (qBox {} qcap [.val 1023]) (.qwr c0) ∧ ((qBox {} qcap []).at_ c0 0).segReady segX1 = .ok qcap ∧ qcap.queueAuth true 1023 = true ∧
    qcap.queueAuth false 1023 = true ∧ (qBox {} qcap []).qAbsent 0 1023 = false ∧ (qBox {} qcap []).qArea 0 1023 8 = some 0x9000 ∧
    (qBox {} qcap []).qOwner 0 1023 0 = none ∧ (∀ j, j < 192 → ((qBox {} qcap []).src 0 (64 + j)).queue.toNat ≠ 1023) ∧
    ({ qcap with limit := 1022 } : Cap).queueAuth true 1023 = false :=
  ⟨by unfold Ready Issues Bare; decide +kernel, ok_of_is (by decide +kernel), by decide +kernel, by decide +kernel, by decide +kernel, by decide +kernel,
    by decide +kernel, by decide +kernel, by decide +kernel⟩

/-- QWR copies 32 bytes to word 7 of the staged item. -/
theorem test_qwr : let s := qBox { staged := [staged0] } qcap [.val 1023, .val 7, .val at0, .val 9]
    okIs ((s.issuing c0).checkAccess 0 (s.at_ c0 0).found ((s.issuing c0).dataSeg 0) .load at0.toNat 32 32 false) [⟨.mem 0x100100, false, at0.toNat, 32⟩] = true ∧
    after (ex (.qwr c0) s) (fun u => decide ((u.ctx 0 0).ring = [.val 9] ∧ u.bytes (areaAddr 0 0x9000 7) 32 = s.bytes 0x100100 32 ∧
      u.mem = s.mem ++ (List.range 16).map (fun i => (0x9007 * 32 + i, byteOf (0x80 + i))))) = true := by decide +kernel

/-- The queue instruction leaves queue `y` and the status word `w`. -/
def qGives (i : Instr) (s : State) (y : Queue) (w : Word) : Bool :=
  runsTo i s 0x1E0001 (fun x => { x with
    ring := [.tag 0, .val 9]
    tags := [(0, { dpc := x.pc, addr := 0, dest := .stack, gen := 0, res := some (.value w 0) })] }) id
    (fun t => { t.setQueue 0 1023 y with tagCtr := t.tagCtr + 1 })

def item0 : QItem := { off := 0x9000, len := 8 }

/-- The queue as it stands after the requester has been served. -/
def srv (y : Queue) : Queue := y.served 0 (.ctx 0 0)

theorem test_queues :
    qGives (.qres c0) (qBox {} qcap [.val 8, .val 1023, .val 9]) (srv { staged := [staged0] }) (queueWord 0 0 .ok) &&
    qGives (.qres c0) (qBox {} qcap [.val 9, .val 1023, .val 9]) {} (queueWord 0 0 .tooBig) &&
    qGives (.qres c0) (qBox { staged := [staged0, staged0] } qcap [.val 8, .val 1023, .val 9]) { staged := [staged0, staged0] } (queueWord 0 0 .busy) &&
    qGives (.qcommit c0) (qBox { staged := [staged0] } qcap [.val 1023, .val 9]) (srv { items := [item0] }) (queueWord 0 0 .ok) &&
    qGives (.qcommit c0) (qBox { staged := [{ staged0 with voided := true }] } qcap [.val 1023, .val 9]) (srv {}) (queueWord 0 0 .flushed) &&
    qGives (.qcommit c0) (qBox { staged := [staged0], items := [item0, item0, item0, item0] } qcap [.val 1023, .val 9])
      (srv { staged := [staged0], items := [item0, item0, item0, item0] }) (queueWord 0 0 .full) &&
    qGives (.qcommit c0) (qBox { denied := [.ctx 0 0] } qcap [.val 1023, .val 9]) (srv {}) (queueWord 0 0 .noAuth) &&
    qGives (.qflush ⟨c0, false⟩) (qBox { items := [item0], staged := [staged0], epoch := 0xFFFF } qcap [.val 1023, .val 9])
      { staged := [{ staged0 with voided := true }], flushAt := some 0 } (queueWord 0 0 .ok) &&
    qGives (.qpop ⟨c0, false⟩) (qBox { items := [item0] } qcap [.val 1023, .val 9]) (srv { popped := [(.ctx 0 0, item0)] }) (queueWord 0x9000 8 .ok) &&
    qGives (.qpop ⟨c0, true⟩) (qBox {} qcap [.val 1023, .val 9]) {} (queueWord 0 0 .empty) &&
    qGives (.qrel c0) (qBox { popped := [(.ctx 0 0, item0)] } qcap [.val 1023, .val 9]) (srv {}) (queueWord 0 0 .ok) &&
    qGives (.qcommit c0) (qBox { staged := [staged0] } { qcap with limit := 1022 } [.val 1023, .val 9]) { staged := [staged0] } (queueWord 0 0 .noAuth) &&
    qGives (.qflush ⟨c0, true⟩) (qBox { items := [item0] } { qcap with tag := false } [.val 1023, .val 9]) { items := [item0] } (queueWord 0 0 .noAuth) = true := by
  decide +kernel

/-! ## Ledger and global instructions -/

/-- TXN of entry 5, GEN 7, of shelf 0. -/
def txn0 : Word := BitVec.ofNat 64 (txnOf 0 5 7)

def entry0 (st : LedSt) : Entry := { st := st, gen := 7, stream := 3, partner := 0x123, npkt := 1, seqFirst := 9, ctx := 0 }

/-- The small state with entry 5 of shelf 0's ledger, which has no mirror target. -/
def ledBox (e : Entry) (l : List Slot) : State := (box l).modShelf 0 (fun h => { h with
  entries := [(5, e)]
  mode := .none })

theorem meets_ledger : Ready (ledBox (entry0 .opened) [.val 2, .val txn0]) (.ledset c0) ∧
    ((ledBox (entry0 .opened) []).issuing c0).named 0 txn0 = some (0, 5, entry0 .opened) ∧ ((ledBox (entry0 .opened) []).issuing c0).named 0 (txn0 + 1) = none ∧
    ((ledBox (entry0 .opened) []).issuing c0).adopted 0 = false ∧ (((ledBox (entry0 .opened) []).issuing c0).vol 0 5).want = none := by
  unfold Ready Issues Bare
  decide +kernel

theorem test_ledger :
    tagged (.ledrd c0) [.val 0, .val txn0] [] { dpc := 0, addr := 0, dest := .stack, res := some (.value 0 0) } &&
    after (ex (.ledrd c0) (ledBox (entry0 .opened) [.val 0x10, .val txn0])) (fun u => decide
      ((alook 0 (u.ctx 0 0).tags).map (·.res) = some (some (.value (place 63 48 1 ||| place 47 0 9) 0)))) &&
    tagged (.ledset c0) [.val 2, .val txn0] [] { dpc := 0, addr := 0, dest := .stack, res := some (.value 3 0) } &&
    after (ex (.ledset c0) (ledBox (entry0 .opened) [.val 3, .val txn0])) (fun u => decide
      ((alook 0 (u.ctx 0 0).tags).map (·.res) = some (some (.value 2 0)) ∧ u.ent 0 5 = entry0 .opened)) &&
    after (ex (.ledset c0) (ledBox (entry0 .opened) [.val 2, .val txn0, .val 9])) (fun u => decide
      ((u.ctx 0 0).ring = [.tag 0, .val 9] ∧ u.ent 0 5 = { entry0 .issued with
        prep := false
        word30 := (ledBox (entry0 .opened) []).newDeadline 0 } ∧ u.mem = [])) = true := by decide +kernel

/-- The image of a transaction of two packets and 9,000 bytes on stream 3 to partner 0x123. -/
def image0 : Entry := { npkt := 2, bytes := 9000, stream := 3, partner := 0x123, localEp := 4 }

/-- Stream record 6 of shelf 0, open, whose next packet is 9. -/
def record0 : Entry := { role := .stream, st := .opened, stream := 3, partner := 0x123, localEp := 4, seqFirst := 9 }

def openBox : State :=
  let s := (box [.val at0]).storeWords 0x100100 (image0.words 0 0)
  (wrReg s (.shLedcfg 0) (place 26 16 100)).modShelf 0 (fun h => { h with
    entries := [(6, record0)]
    streams := [(6, { origin := true })]
    mode := .none })

theorem meets_ledopen : let t := openBox.issuing c0
    let words := toWords 8 (t.bytes 0x100100 64)
    let im := entryOf words
    Ready openBox (.ledopen c0) ∧ okIs (t.checkBlock 0 0 .load at0.toNat 64) [⟨.mem 0x100100, false, at0.toNat, 64⟩] = true ∧ t.badIn 0x100100 64 = false ∧
      im.role ≠ .stream ∧ badImage words im = false ∧ t.findStream 0 true im.partner.toNat im.localEp.toNat im.stream.toNat = some (0, 6) ∧
      ownsStream (openBox.at_ c0 0).ctx (t.entNext 0 6) = true ∧ t.freeEntry 0 .origin = some 0 ∧ (t.entNext 0 6).role = .stream := by
  unfold Ready Issues Bare
  decide +kernel

theorem test_ledopen : after (ex (.ledopen c0) openBox) (fun u => decide ((u.ctx 0 0).ring = [.tag 1, .tag 0] ∧ (u.ent 0 0).st = .opened ∧
    (u.ent 0 0).role = .origin ∧ (u.ent 0 0).gen = 1 ∧ (u.ent 0 0).seqFirst = 9 ∧ (u.ent 0 0).npkt = 2 ∧ (u.ent 0 0).partner = 0x123 ∧
    (u.ent 0 6).seqFirst = 11 ∧ u.mem = openBox.mem)) = true := by decide +kernel

/-- The small state at the root of a system of one device; tag 15 has two contributors. -/
def gopBox (g : GopTag) (l : List Slot) : State := wrReg { box l with
  sys := { root := true, treeOk := true }
  gops := [(15, g)] } (.glGoptag 15) (place 63 53 2)

theorem meets_global : Ready (gopBox {} [.val 15]) (.gbar c0) ∧ ((gopBox {} []).issuing c0).localN 15 = 2 ∧ ((gopBox {} []).issuing c0).childLinks = [] ∧
    ((gopBox {} []).gop 15).status ≠ 1 := by
  unfold Ready Issues Bare
  decide +kernel

/-- The two pages of 8,192 bytes from 0x100000 on. -/
def pages0 : List Piece := [⟨.mem 0x100000, false, 0xFF000100100000, 4096⟩, ⟨.mem 0x101000, false, 0xFF000100101000, 4096⟩]

theorem test_global :
    tagged (.gbar c0) [.val 16] [] { dpc := 0, addr := 0, dest := .stack, res := some (.value 4 0) } &&
    after (ex (.gbar c0) (gopBox {} [.val 15])) (fun u => decide ((u.ctx 0 0).ring = [.tag 0] ∧ (u.gop 15).status = 1 ∧ (u.gop 15).reduce = false ∧
      (u.gop 15).locals = [{ tag := Stated.ref (gopBox {} [.val 15]) c0 0, value := 0, op := 256 }] ∧ u.gop 14 = {})) &&
    after (ex (.gred c0 4) (gopBox {} [.val 15, .val 7])) (fun u => decide ((u.ctx 0 0).ring = [.tag 1, .tag 0] ∧ (u.gop 15).status = 1 ∧
      (u.gop 15).reduce = true ∧ (u.gop 15).op = 4 ∧ (u.gop 15).acc = some 7)) &&
    after (ex (.gbcast c0) (gopBox { status := 2, inst := 3 } [.val 15, .val 0, .val at0])) (fun u => decide ((u.ctx 0 0).ring = [.tag 0] ∧
      (u.gop 15).status = 2 ∧ (u.gop 15).inst = 4 ∧ (u.gop 15).bcast = some [] ∧ (u.gop 15).bcastTaken = false)) &&
    okIs (((gopBox {} []).issuing c0).checkBlock 0 0 .store 0xFF000100100000 8192) pages0 &&
    after (ex (.grecv c0) (gopBox {} [.val 15, .val 0xFF000100100000])) (fun u => decide ((u.ctx 0 0).ring = [.tag 0] ∧
      (u.gop 15).recv = [(Stated.ref (gopBox {} []) c0 0, 0, pages0.map Piece.key)])) = true := by decide +kernel

/-! ## Pipeline events -/

/-- The small state with a result in tag 7, which two slots wait for. -/
def tagWait : State := (box [.tag 7, .val 1, .tag 7]).modCtx 0 0 (fun x => { x with
  tags := [(7, { dpc := 0, addr := 0, dest := .stack, arith := true, res := some (.value 5 fDZ) })]
  wait := some (.tag 7) })

theorem test_tagReturn : (tagWait.ctx 0 0).st ≠ .waiting ∧ gives (exec (.tagReturn c0 0 7) tagWait) (tagWait.modCtx 0 0 (fun x => { x with
    ring := [.val 5, .val 1, .val 5]
    asr := fDZ
    tags := []
    wait := none })) = true := by decide +kernel

/-- Two contexts, the first of which has waited 32 ic for a tag. -/
def switchBox : State := { two [] with
  devtime := 100000
  ctxs := [(0, { ctx0 [] with wait := some (.tag 0), waitSince := 0 }), (1, { ctx0 [] with st := .ready })] }

theorem meets_waitSwitch : switchBox.coreLive 0 = true ∧ (switchBox.ctx 0 0).wait = some (.tag 0) ∧ (WaitWhy.tag 0).long = true ∧
    switchBox.runnable 0 1 = true ∧ (switchBox.ctx 0 0).waitSince + switchBox.icNs 0 32 ≤ switchBox.now := by decide +kernel

/-- The quantum of the small state, once SH_SCHCFG gives one. -/
def quantumBox : State := { setF (box []) (.shSchcfg 0) 47 40 1 with devtime := 100000 }

/-- The small state behind a SEG prefix. -/
def prefixed : State := (box []).modCore 0 (fun d => { d with seg := some 5 })

theorem test_pipelineEvents :
    gives (ex (.seg c0 5) (box [])) ((coded (box []) (.seg c0 5)).modCore 0 (fun d => { d with seg := some 5 })) &&
    gives (ex (.seg c0 5) prefixed) (((coded prefixed (.seg c0 5)).takeExc 0 0 ilReport).stepped 0) &&
    after (exec (.waitSwitch c0) switchBox) (fun u => decide ((u.ctx 0 0).st = .waiting ∧ (u.core 0).run ≠ some 0)) &&
    decide ((quantumBox.core 0).chosenAt + quantumBox.icNs 0 256 ≤ quantumBox.now) &&
    gives (exec (.quantumExpiry c0) quantumBox) (quantumBox.modCore 0 (fun d => { d with quantumOut := true })) &&
    after (exec (.icacheFill c0) ((box []).modCore 0 (fun d => { d with fetchMiss := some 77 }))) (fun u => decide
      (((u.core 0).cached 77).map (·.data) = some ((box []).bytes (64 * 77) 64) ∧ (u.core 0).fetchMiss = none)) = true := by decide +kernel

/-! ## Translation -/

/-- A leaf with V, W and D at frame 1, and the control word of a 4-KiB page. -/
def pte0 : Word := 0x2001

theorem meets_tlbwr : Ready (box [.val 0, .val 0x5000, .val pte0]) (.tlbwr c0) ∧ tlbwrBad ((box []).at_ c0 0) pte0 0 = false ∧ tlbwrBad ((box []).at_ c0 0) 0 0 = true ∧
    firstFree 64 (((box []).core 0).tlb.filter (fun o => !o.2.displacedBy (newEntry ((box []).at_ c0 0) pte0 0x5000 0))) = some 0 := by
  unfold Ready Issues Bare
  decide +kernel

/-- The small state with a TLB entry that a write of 0x5000 displaces and TLBINV of its page removes. -/
def tlbBox (l : List Slot) : State := (box l).modCore 0 (fun d => { d with tlb := [(3, newEntry {} pte0 0x5000 0), (9, newEntry {} pte0 0x6000 0)] })

/-- Port 0 holds a line in M with a leaf at 0x1100, and a window grant that lets anyone write the first 64 KiB. -/
def lineBox (l : List Slot) : State := wrReg { box l with ports := [(0, {
  lines := [(0x1100 / 64, { st := .M, data := wordBytes pte0 ++ List.replicate 56 0 })]
  grants := [(0, [bitIf 63 true ||| bitIf 61 true ||| bitIf 59 true, 0xFFFF, 0, 0])] })] } .glGrant (bitIf 63 true)

theorem meets_probe : (lineBox []).servingPort (0x1100 / 64) = 0 ∧ (lineBox []).hostBytes 0x1100 8 = some (wordBytes pte0) ∧
    (lineBox []).ownedLine (0x1100 / 64) = true ∧ probeRes pte0 3 = 1 := by decide +kernel

theorem test_translation :
    after (ex (.probe c0) (box [.val 0, .val (BitVec.ofNat 64 (2 ^ 48))])) (fun u => decide ((u.ctx 0 0).ring = [.tag 0] ∧
      (alook 0 (u.ctx 0 0).tags).map (·.res) = some (some (.value (probeWord 4 0 0 0) 0)))) &&
    after (ex (.probe c0) (lineBox [.val 0x1003, .val 0x20000])) (fun u => decide ((u.ctx 0 0).ring = [.tag 0] ∧
      (alook 0 (u.ctx 0 0).tags).map (·.res) = some (some (.value (probeWord 1 0 3 pte0) 0)) ∧ (u.ctx 0 0).walka1 = 0x1101 ∧ (u.ctx 0 0).walka2 = 0)) &&
    runs (.tlbwr c0) (box [.val 3, .val 0x5000, .val pte0]) (fun x => { x with ring := [] }) (fun d => { d with tlbErr := true }) &&
    runs (.tlbwr c0) (tlbBox [.val 0, .val 0x5000, .val pte0]) (fun x => { x with ring := [] })
      (fun d => { d with tlb := aput 0 (newEntry {} pte0 0x5000 0) [(9, newEntry {} pte0 0x6000 0)] }) &&
    runs (.tlbinv c0) (tlbBox [.val 0, .val 0x5000]) (fun x => { x with ring := [] })
      (fun d => { d with tlb := d.tlb.filter (fun o => !o.2.inScope 0 0x5000 0 0) }) &&
    runs (.tlbinva c0) (tlbBox []) id (fun d => { d with tlb := [] }) = true := by decide +kernel

/-- An AD atomic on the leaf at 0x1100 of TLB entry 3. -/
def adBox : State := (lineBox []).modCore 0 (fun d => { d with
  tlb := [(3, { newEntry {} pte0 0x5000 0 with leaf1 := some 0x1100 })]
  adWait := some (3, 0x40) })

theorem meets_adAtomic : (∀ x ∈ adBox.leafChecks { newEntry {} pte0 0x5000 0 with leaf1 := some 0x1100 }, x.2 ≠ .fail ∧
    (match x.2 with
      | .fetch _ => false
      | _ => true) = true) := by decide +kernel

theorem test_adAtomic : after (exec (.adAtomicDone c0) adBox) (fun u => decide ((u.core 0).adWait = none ∧
    (u.core 0).tlb = [(3, { newEntry {} (pte0 ||| 0x40) 0x5000 0 with leaf1 := some 0x1100 })] ∧ u.hostBytes 0x1100 8 = some (wordBytes (pte0 ||| 0x40)))) = true := by
  decide +kernel

/-- The host port 0 may write control space in the state where the block is ready for the host. -/
theorem meets_granted : Stated.granted (tlbBox []) .warden .glTlbinv 0x8000000000000000 ∧ Stated.granted (tlbBox []) .warden .glTagrgn 0 ∧
    Stated.granted (tlbBox []) .warden .glTagtab 0 := by
  unfold Stated.granted
  decide +kernel

theorem test_glTlbinv : after (exec (.glTlbinv .warden 0xA000000000000000) (tlbBox [])) (fun u => decide ((u.core 0).tlb = [] ∧
      rdReg u .glTlbinv = 0x6000000000000000)) &&
    after (exec .glTlbinvDone (setB (tlbBox []) .glTlbinv 62 true)) (fun u => decide (rdReg u .glTlbinv = 0)) = true := by decide +kernel

/-- GL_TAGRGN with VALID 0 takes a value, with VALID 1 it is locked until VALID is cleared. -/
theorem test_tagRegion :
    gives (exec (.glTagrgnWrite .warden 0x8000000000000005) (box [])) ((box []).plainWrite .glTagrgn 0x8000000000000005) &&
    gives (exec (.glTagtabWrite .warden 0x40) (box [])) ((box []).plainWrite .glTagtab 0x40) &&
    gives (exec (.glTagrgnWrite .warden 0x8000000000000007) (setB (box []) .glTagrgn 63 true)) (setB (box []) .glTagrgn 63 true) &&
    gives (exec (.glTagtabWrite .warden 0x40) (setB (box []) .glTagrgn 63 true)) (setB (box []) .glTagrgn 63 true) &&
    after (exec (.glTagrgnWrite .warden 0) (setB (box []) .glTagrgn 63 true)) (fun u => decide (getB u .glTagrgn 63 = false ∧ u.hostTag 0 = some false)) = true := by
  decide +kernel

/-! ## Exceptions and events -/

/-- A descriptor: a handler at 0x1E1000, its code, stack and TSB in shelf 0's memory, GATE set. -/
def desc0 : Desc where
  code := rootCap 0xA0 0 0xFF000100000000 0xFF0001001FFFFF
  stack := rootCap 0xD0 0 0xFF000100150000 0xFF000100150FFF
  tsb := tsbCap 0 0x131000
  flags := bitIf 63 true ||| bitIf 60 true ||| place 55 0 0x1E1000
  word38 := 0

/-- `desc0` as descriptor `n` of the table at 0x140000. -/
def putDesc (n : Nat) (s : State) : State :=
  ((((s.storeCap (0x140000 + 64 * n) desc0.code).storeCap (0x140010 + 64 * n) desc0.stack).storeCap (0x140020 + 64 * n) desc0.tsb).storeWords
    (0x140030 + 64 * n) [desc0.flags, 0])

/-- The small state with descriptor `n` in place and TSBP at 0x130000. -/
def excBox (n : Nat) (l : List Slot) : State :=
  putDesc n (((box l).modCtx 0 0 (fun x => { x with tsbp := tsbCap 0 0x130000 })).modCore 0 (fun d => { d with
    dtp := rootCap 0x80 0 0xFF000100140000 0xFF000100140FFF }))

theorem meets_trap : Ready (excBox 63 [.val 5]) (.trap c0 31) ∧ tsbAddr 0 ((excBox 63 []).at_ c0 0).tsbp = some 0x130000 ∧
    dtpAddr 0 ((excBox 63 []).core 0).dtp = some 0x140000 ∧ (excBox 63 []).badIn (0x140000 + 64 * 63) 64 = false ∧
    (excBox 63 []).readDesc (0x140000 + 64 * 63) = desc0 ∧ desc0.valid 0 = true := by
  unfold Ready Issues Bare
  decide +kernel

/-- What `Stated.entered` says, for the small state's own TSB. -/
def enters (o : Host.Outcome State Fault Refusal) (b : State) (n pc : Nat) (cause finfo faddr : Word) : Bool :=
  let x := b.ctx 0 0
  after o fun w => let y := w.ctx 0 0
  decide ((w.core 0).lastDesc.toNat = n ∧ y.pc = 0x1E1000 ∧ y.tsbp = desc0.tsb ∧ y.etsb = x.tsbp ∧ y.seg segC = desc0.code ∧ y.seg segS = desc0.stack ∧
    y.ring = x.ring ∧ y.sp = 0 ∧ y.rstack = x.rstack ∧ y.rsFloor = x.rstack.length ∧ (w.core 0).gateOpen = false ∧
    w.word 0x130008 = BitVec.ofNat 64 pc ∧ w.word 0x130010 = cause ∧ w.word 0x130018 = finfo ∧ w.word 0x130020 = faddr ∧
    w.mem.filter (fun e => e.1 < 0x130000 ∨ 0x130200 ≤ e.1) = b.mem)

theorem test_entries :
    enters (ex (.trap c0 31) (excBox 63 [.val 5])) (excBox 63 [.val 5]) 63 0x1E0003 (ecause 0 0 false false 0 false 63) 0 0 &&
    enters (exec (.exceptionEntry c0 { desc := 10, finfo := 3, faddr := 4 }) (excBox 10 [.val 5])) (excBox 10 [.val 5]) 10 0x1E0000
      (ecause 0 0 false false 0 false 10) 3 4 &&
    ({ desc := 10, finfo := 3, faddr := 4 } : ExcReport).ok = true := by decide +kernel

/-- The small state with CDB pending at PRIO 15. -/
def eventBox : State := (excBox 31 [.val 5]).modCore 0 (fun d => { d with srcs := [(4, { en := true, sense := 1, prio := 15, edges := 1 })] })

theorem meets_eventEntry : eventBox.mayEnter 0 = true ∧ eventBox.delivering 0 = some (4, 15) ∧ ((eventBox.schedule 0).core 0).run = some 0 := by
  decide +kernel

theorem test_eventEntry : enters (exec (.eventEntry c0) eventBox) eventBox 31 0x1E0000 (ecause 0 0 false false 15 true 31) 0 0 &&
    after (exec (.eventEntry c0) eventBox) (fun u => decide ((u.core 0).rps = [15] ∧ (u.core 0).claim = some 4)) = true := by decide +kernel

/-- The state in the handler of TRAP 31, where ERET is fetched. -/
def inHandler : State :=
  match execTrap c0 31 (codedAs (excBox 63 [.val 5]) [0xF0, 0x05, 31]) with
  | .next t => t.modCore 0 (fun d => { d with icache := [(0, { ways := [(0, { line := 0x7840, data := [0xF0, 0x04] })] })] })
  | _ => State.reset

theorem meets_eret : Issues inHandler c0 0 [0xF0, 0x04] ∧ tsbAddr 0 (inHandler.at_ c0 0).etsb = some 0x130000 ∧ (inHandler.at_ c0 0).sp = 0 := by
  unfold Issues
  decide +kernel

theorem test_eret : after (exec (.eret c0) inHandler) (fun w => decide ((w.ctx 0 0).pc = 0x1E0003 ∧ (w.ctx 0 0).ring = [.val 5] ∧
    (w.ctx 0 0).tsbp = tsbCap 0 0x130000 ∧ (List.range 8).all (fun i => (w.ctx 0 0).seg i == (ctx0 []).seg i) = true ∧ w.mem = inHandler.mem)) = true := by decide +kernel

/-- EVCLAIM of source 16, whose 255 edges have saturated; EVEOI of core source 4. -/
def claimBox : State := ((box [.val 4]).modCore 0 (fun d => { d with
  claim := some 16
  lastChosen := 0
  rps := [7]
  srcs := [(4, { sense := 1, act := true })] })).setSrc 0 16 { sense := 1, edges := 255, sat := true }

theorem meets_claim : Ready claimBox (.evclaim c0) ∧ (16 < 6 ∨ (16 ≤ 16 ∧ reservedShared 16 = false)) ∧ (claimBox.bankSrc 0 16).pending (coreData 0 16) = true ∧
    (claimBox.at_ c0 0).sysctl = true := by
  unfold Ready Issues Bare
  decide +kernel

theorem test_eventRegisters :
    after (ex (.evclaim c0) claimBox) (fun w => decide ((w.ctx 0 0).ring = [.val (bitIf 24 true ||| place 23 16 255 ||| 16), .val 4] ∧
      w.bankSrc 0 16 = { sense := 1, act := true })) &&
    after (ex (.eveoi c0) claimBox) (fun w => decide ((w.core 0).rps = [] ∧ (w.ctx 0 0).ring = [] ∧ (w.core 0).eoiErr = false ∧
      (w.bankSrc 0 4).act = false)) &&
    runs (.eveoi c0) (box [.val 4]) (fun y => { y with ring := [] }) (fun d => { d with eoiErr := true }) &&
    after (ex (.evwdogWrite c0) (box [.val 5])) (fun w => decide ((w.core 0).wcount = 5 ∧ (w.core 0).wexpAt = some ((box []).icNs 0 5) ∧
      (w.core 0).wexp = false)) = true := by decide +kernel

/-- A shared level source, a data source whose CTIME has ended, a timer and a watchdog that are due. -/
def inputs : State := { ((box []).setSrc 0 64 { counted := 1, coalDue := some 9 }).modCore 0 (fun d => { d with
  evtmr := 10
  wexpAt := some 10
  srcs := [(4, { sense := 1 })] }) with
  devtime := 10
  holdoff := [(3, 10)] }

theorem test_eventInputs : inputs.shelfGone 0 = false ∧ reservedShared 16 = false ∧ reservedShared 51 = false ∧
    after (exec (.sourceInputChange (.shared 0) 16 true) inputs) (fun u => decide ((u.src 0 16).input = true ∧ (u.src 0 16).pending false = true ∧
      u.src 0 17 = inputs.src 0 17 ∧ u.regs = inputs.regs)) = true ∧
    after (exec (.coalesceTimer 0 64) inputs) (fun u => decide ((u.src 0 64).dpend = true ∧ (u.src 0 64).counted = 0 ∧ (u.src 0 64).coalDue = none ∧ u.regs = inputs.regs)) = true ∧
    gives (exec (.holdoffExpiry 0 3) inputs) { inputs with holdoff := [] } = true ∧
    after (exec (.evtmrMatch c0) inputs) (fun u => decide ((tget {} (u.core 0).srcs 0).input = true)) = true ∧
    after (exec (.wdogExpire c0) inputs) (fun u => decide ((u.core 0).wexp = true ∧ (tget {} (u.core 0).srcs 1).input = true)) = true ∧
    after (exec (.evCdb .warden 0 0x8000000000000000) inputs) (fun u => decide ((tget {} (u.core 0).srcs 4).edges = 1)) = true := by decide +kernel

/-! ## Contexts -/

/-- The operand of CTXCMD: command, store 1 of core 0 of shelf 0, context 0x77. -/
def ctxcmd (op : Nat) : Word := place 63 60 op ||| place 51 48 1 ||| place 19 0 0x77

/-- The small state with that operand, seg.x3 at 0x131000, and store 1 as given. -/
def moveBox (op : Nat) (x : Ctx) : State := ({ box [.val (ctxcmd op)] with ctxs := [(0, ctx0 [.val (ctxcmd op)]), (1, x)] }).modCtx 0 0
  (fun y => y.setSeg segX3 (tsbCap 0 0x131000))

def parked : Ctx := { st := .ready, ctx := 0x77, pc := 0x1E0040, asr := 3, tsbp := tsbCap 0 0x132000 }

theorem meets_contextCommands : Ready (moveBox 1 {}) (.ctxLoad c0) ∧ ((moveBox 1 {}).issuing c0).cmdCore 0 (ctxcmd 1) = 0 ∧ ((moveBox 1 {}).issuing c0).handingOver 0 = false ∧
    ((moveBox 1 {}).issuing c0).slotClosed 0 = false ∧ okIs (((moveBox 1 {}).issuing c0).checkAccess 0 ((moveBox 1 {}).at_ c0 0).found segX3 .load 0 512)
      [⟨.mem 0x131000, false, 0xFF000100131000, 512⟩] = true ∧
    (capFault parked.tsbp .store 0 512).isNone = true ∧ spaceOf 0 parked.tsbp.base.toNat = .at (.mem 0x132000) false ∧ closedTo 0x132000 = false := by
  unfold Ready Issues Bare
  decide +kernel

theorem test_contextCommands :
    (∀ p ∈ ([(.ctxLoad c0, 1), (.ctxNewload c0, 2)] : List (Instr × Nat)), after (ex p.1 (moveBox p.2 {})) (fun w => decide ((w.ctx 0 0).ring = [] ∧
      w.ctx 0 1 = { st := .loading, ctx := 0x77 } ∧ (w.core 0).ctxRes = ctxresWord true 0 0x77 ∧ (w.core 0).mov = some { op := p.2, core := 0, store := 1, ctx := 0x77, src := [(.mem 0x131000, 512)], ea := 0xFF000100131000 })) = true) ∧
    after (ex (.ctxFree c0) (moveBox 4 parked)) (fun w => decide ((w.ctx 0 0).ring = [] ∧ w.ctx 0 1 = {} ∧
      (w.core 0).mov = some { op := 4, core := 0, store := 1, ctx := 0x77 })) = true ∧
    after (ex (.ctxPark c0) (moveBox 3 parked)) (fun w => decide ((w.ctx 0 0).ring = [] ∧ w.ctx 0 1 = {} ∧ w.word 0x132008 = 0x1E0040 ∧
      w.word 0x132028 = 3 ∧ w.word 0x132000 = ({ parked with st := .parked } : Ctx).ccw 1)) = true := by decide +kernel

/-- The small state after LOAD of a TSB whose PC is 0x1E0040. -/
def loading : State :=
  match execCtxLoad c0 (codedAs ((moveBox 1 {}).storeWords 0x131008 [0x1E0040]) [0xF2, 0x00, 0x07]) with
  | .next t => t
  | _ => State.reset

theorem meets_ctxcmdDone : ((loading.core 0).mov.map (fun m => decide (m.later = none ∧ m.op ≤ 2 ∧ (loading.placesBytes m.src).isSome ∧
    (loading.tsbTags m.src).isSome))) = some true ∧ (loading.ctx 0 1).lateWakes = [] := by decide +kernel

theorem test_ctxcmdDone : after (exec (.ctxcmdDone c0) loading) (fun u => decide ((u.ctx 0 1).st = .ready ∧ (u.ctx 0 1).pc = 0x1E0040 ∧
    (u.ctx 0 1).ctx = 0x77 ∧ (u.ctx 0 1).ring = [] ∧ (u.core 0).mov = none ∧ (u.core 0).ctxRes = ctxresWord false 0 0x77)) = true := by decide +kernel

/-- The small state with 41 ring slots and a stack segment at 0x150000. -/
def spillBox (l : List Slot) : State := (box l).modCtx 0 0 (fun x => x.setSeg segS (rootCap 0xD0 0 0xFF000100150000 0xFF000100150FFF))

theorem test_spillAndFill :
    after (exec (.spill c0 0) (spillBox (List.replicate 40 (.val 1) ++ [.val 7]))) (fun u => decide (u.word 0x150000 = 7 ∧
      (u.ctx 0 0).ring = List.replicate 40 (.val 1) ∧ (u.ctx 0 0).sp = 8)) &&
    after (exec (.fill c0 0) (((spillBox [.val 1]).modCtx 0 0 (fun x => { x with sp := 8 })).storeWords 0x150000 [7])) (fun u => decide
      ((u.ctx 0 0).ring = [.val 1, .val 7] ∧ (u.ctx 0 0).sp = 0)) = true := by decide +kernel

/-- Context 1 waits for the FP registers, which context 0 owns. -/
def fpWait (o : Option Nat) : State := { ((two []).modCtx 0 0 (fun x => { x with tsbp := tsbCap 0 0x130000 })).modCtx 0 1 (fun x => { x with
  st := .running
  wait := some .fpOwner
  tsbp := tsbCap 0 0x131000 }) with cores := [(0, { run := some 1, fpOwn := o, fpr := [(15, 9)] })] }

theorem test_fpHandover : (fpWait none).coreLive 0 = true ∧ (fpWait none).fprAddr 0 0 = some 0x130100 ∧ (fpWait none).fprAddr 0 1 = some 0x131100 ∧
    after (exec (.fpHandover c0) (fpWait none)) (fun u => decide ((u.core 0).fpOwn = some 1 ∧ (u.core 0).fpr = [])) = true ∧
    after (exec (.fpHandover c0) (fpWait (some 0))) (fun u => decide ((u.core 0).fpOwn = some 1 ∧ u.word 0x130178 = 9 ∧ u.word 0x130170 = 0)) = true := by
  decide +kernel

/-- A context that WTIME wakes, and one that a post wakes. -/
def sleeper : State := { (box []).modCtx 0 0 (fun x => { x with
  st := .sleeping
  wmask := 3
  wtime := 5 }) with devtime := 5 }

theorem meets_post : Stated.granted sleeper .warden (.shPost 0) 0x8000123400000000 ∧ sleeper.findCtx 0 = some (0, 0) := by
  unfold Stated.granted
  decide +kernel

theorem test_wakes : gives (exec (.wtimeExpiry c0 0) sleeper) (sleeper.modCtx 0 0 (fun x => { x.wake wakeTMR 0 with wtime := 0 })) &&
    gives (exec (.shPost .warden 0 0x8000123400000000) sleeper) (sleeper.modCtx 0 0 (fun x => x.wake wakeSYNC 0x1234)) &&
    decide (((ctx0 []).wake 2 0).pend = 2 ∧ ((sleeper.ctx 0 0).wake 2 0).st = .ready) = true := by decide +kernel

/-- A held wake for queue 5, which holds an item. -/
def holdBox : State := (setF (setB (wrReg { box [] with queues := [(5, { items := [item0] })] } (.shQcfg 0 5)
  (bitIf 63 true ||| place 62 52 4 ||| place 51 43 8 ||| place 42 38 2 ||| place 15 0 0x9000)) (.shSchcfg 0) 63 true) (.shSchcfg 0) 57 48 5).modShelf 0
    (fun h => { h with holdList := [{ ctx := 7, src := 1, code := 2 }] })

theorem test_holdCommit : holdBox.qAbsent 0 5 = false ∧ holdBox.qArea 0 5 1 = some 0x9008 ∧
    ((holdBox.queue 0 5).bound.contains unitSched || (holdBox.queue 0 5).mayBind 0 (holdBox.qStage 0 5) unitSched) = true ∧ 1 ≤ holdBox.qMax 0 5 ∧ (∀ j, j < 192 → (holdBox.src 0 (64 + j)).queue.toNat ≠ 5) ∧
    after (exec (.wakeHoldCommit 0) holdBox) (fun u => decide ((u.shelf 0).holdList = [] ∧
      (u.queue 0 5).items = [item0, { off := 0x9008, len := 1, ct := false, byGlaze := false }] ∧ u.word (areaAddr 0 0x9008 0) = wakeItem 7 1 2)) = true := by
  decide +kernel

/-- A shelf without a runnable context whose idle time is over. -/
def idleBox : State := { setF (box []) (.shSchcfg 0) 39 24 1 with
  ctxs := []
  cores := []
  devtime := 100000 }

theorem test_idleTimeout : idleBox.shelfActive 0 = true ∧ idleBox.shelfIdle 0 = true ∧ (idleBox.shelf 0).idleSince + idleBox.icNs 0 64 ≤ idleBox.now ∧
    gives (exec (.idleTimeout 0) idleBox) (idleBox.modShelf 0 (fun h => { h with idleAsked := true })) = true := by decide +kernel

/-! ## Control space, frames, remote access -/

/-- The small state with a firmware that runs, in a session at WARDEN level, so that every party has authority somewhere. -/
def sysBox : State := { box [] with
  power := { block := .hostReady, pgd := 0x3FF, pen := 0x3FF }
  warden := { st := .running }
  vexek := { level := 3, shelves := BitVec.allOnes 64 } }

theorem meets_gated : Stated.granted sysBox .warden (.shPost 0) 0 ∧ Stated.granted sysBox .warden .glRingcmd (ringCmd 4 65535) ∧
    sysBox.partyOpen (.host 0) (Reg.shLedcfg 0).off = true ∧ sysBox.permitted (.core 0 false) (Reg.shLedcfg 0).off true = false ∧
    sysBox.shelfRangeOff (Reg.shLedcfg 0).off = false ∧ { sysBox with power := {} }.partyOpen (.host 0) (Reg.shLedcfg 0).off = false ∧
    sysBox.shelfRangeOff (Reg.shLedcfg 63).off = true := by
  unfold Stated.granted
  decide +kernel

theorem test_gated : gives (exec (.shLedcfgWrite .warden 0 5) sysBox) (sysBox.plainWrite (.shLedcfg 0) 5) &&
    gives (exec (.shLedcfgWrite (.core 0 false) 0 5) sysBox) (sysBox.violate (.core 0 false) true (Reg.shLedcfg 0).off) &&
    gives (exec (.shLedcfgWrite .warden 63 5) sysBox) sysBox &&
    gives (exec (.ringQuery .warden 65535) sysBox) (sysBox.ringQuery 65535) = true := by decide +kernel

theorem test_control :
    gives (exec (.controlRegisterWrite .warden ⟨(Reg.shLedcfg 0).off, by decide⟩ .full 5 0 0) sysBox)
      (sysBox.writeReg .warden (.shLedcfg 0) (sysBox.fullVal (.shLedcfg 0) .full 5) (accLanes .full) 0 0) &&
    gives (exec (.controlRegisterWrite .warden ⟨(Reg.shLedcfg 0).off, by decide⟩ .bad 5 0 0) sysBox) (sysBox.violate .warden true (Reg.shLedcfg 0).off) &&
    decide ((Reg.at (Reg.shLedcfg 0).off) = some (.shLedcfg 0)) &&
    decide ((sysBox.ctlRead (.host 0) (Reg.glBootstat).off .full).1 = sysBox.view .glBootstat &&& ~~~ accMask (Reg.glBootstat).fields .wo) &&
    gives (exec (.ctlRd 3 0 true 7) sysBox) ((sysBox.ctlRead (.host 3) 0 .full).2.sendMsg 3 (.ctlData 7 0 (sysBox.ctlRead (.host 3) 0 .full).1)) &&
    gives (exec (.ctlWr 3 4 true 7 5) sysBox) (match sysBox.ctlStatus 4 with
      | some st => sysBox.emit (.host 3 (.ctlAck 7 st))
      | none => (sysBox.ctlWrite (.host 3) 4 .bad 5).sendMsg 3 (.ctlAck 7 0)) = true := by decide +kernel

theorem test_frames :
    gives (exec (.vxRead 1 (vxHcrc 1 1 + 1)) sysBox) (sysBox.emit (.vexek .silent)) &&
    gives (exec (.vxRead 1 (vxHcrc 1 1)) sysBox) (((sysBox.ctlRead .debugger 8 .full).2).emit (.vexek (.ok (some (sysBox.ctlRead .debugger 8 .full).1)))) &&
    gives (exec (.vxWrite 1 (vxHcrc 2 1) 5 (crc8 64 5)) sysBox) ((sysBox.emit (.vexek (.ok none))).ctlWrite .debugger 8 .full 5) &&
    gives (exec (.vxWrite 1 (vxHcrc 2 1) 5 (crc8 64 5 + 1)) sysBox) (setB (sysBox.emit (.vexek (.ok none))) .vxStat 63 true) &&
    gives (exec .vxIdleReset sysBox) sysBox && !sysBox.vxFaulty && !sysBox.vxNeedsHalt 8 = true := by decide +kernel

def linkBox (st : LinkSt) : State := { sysBox with links := [(5, { st := st })] }

/-- A management packet routed by its path, which ends here, has arrived on link 5. -/
def mgmtPkt : Packet := hwPacket 0xFFF 0 0xFFF00 0x30 0 0 0 0
def comes (s : State) : State := s.modLink 5 (fun k => { k with
  st := .active
  rxFifo := [{ vc := 3, pkt := mgmtPkt }] })
def taken (s : State) : State := (comes s).takeRx 5 3

/-- A request lies in the firmware mailbox. -/
def fwBox : State := setB sysBox .wdMbstat 60 true

/-- A read of another device's register has waited 1 ms. -/
def remoteBox : State := { sysBox with
  warden := { st := .running, remote := some (0, true) }
  devtime := 1000000 }

theorem meets_mgmt : mgmtPkt.byPath = true ∧ (comes sysBox).rxHead 5 (fun p => cmdClass p.cmd == some .management && (comes sysBox).forMe p) =
    some { vc := 3, pkt := mgmtPkt } ∧ (comes remoteBox).mgmtLink = some 5 ∧ fwBox.wardenUp = true ∧ fwBox.fwAsked = true := by decide +kernel

theorem test_access :
    gives (exec (.regwr .here 8 5) fwBox) ((fwBox.ctlWrite .warden 8 .full 5).fwReply opRegwr 0 []) = true ∧
    gives (exec (.regwr .here 9 5) fwBox) ((fwBox.ctlWrite .warden 9 .full 5).fwReply opRegwr stBadArg []) = true ∧
    gives (exec (.regrd .here 8) fwBox) ((fwBox.ctlRead .warden 8 .full).2.fwReply opRegrd 0 [(fwBox.ctlRead .warden 8 .full).1]) = true ∧
    after (exec (.regwr (.device 3) 8 5) fwBox) (fun u => decide (u.warden.remote = some (0, false))) = true ∧
    gives (exec (.remoteAccess 5 1 true 8 5) (comes sysBox)) (((taken sysBox).wsrc 19 EvSrc.pulse).violate .remote true 8) = true ∧
    after (exec (.remoteAccess 5 0 true 8 5) (comes sysBox)) (fun u => decide (u.outbox = [.link 5 (.accessReply 0 0)] ∧
      u.regs = (((taken sysBox).wsrc 19 EvSrc.pulse).ctlWrite .remote 8 .full 5).regs)) = true ∧
    gives (exec (.remoteAccessReply 0 9) (comes remoteBox)) (((taken remoteBox).modWarden (fun w => { w with remote := none })).fwReply opRegrd 0 [9]) = true ∧
    gives (exec .remoteTimeout remoteBox) ((remoteBox.modWarden (fun w => { w with remote := none })).fwReply opRegrd stTimeout []) = true := by
  decide +kernel

/-! ## Shelves, flue, rings -/

theorem meets_retire : sysBox.isRetired 0 = false ∧ sysBox.shelfGone (buddy 0) = true ∧ (sysBox.shelf 0).rehomed = [] := by decide +kernel

theorem test_retire : after (exec (.shelfRetire ⟨0, .router⟩) sysBox) (fun u => decide (u.retired = 1 ∧ u.routerBad = 1 ∧ u.ctx 0 0 = {} ∧ u.mem = sysBox.mem)) &&
    after (exec (.shelfRetire ⟨27, .router⟩) { sysBox with retired := 0x8000000 }) (fun u => decide (u.retired = 0x8000000 ∧ u.routerOf 0 .warden = 36)) = true := by
  decide +kernel

/-- A message from the warden, whose router is 27, for shelf 0: along row 3 to column 0, then by three routers to row 0 (R20, R22). -/
def flueBox : State := sysBox.sendFlue .warden (.shelf 0) (.prepared 3)

/-- The same message waiting at router 0, and come back. -/
def flue0 : FlueMsg := { src := .warden, dst := .shelf 0, body := .prepared 3, inp := 8, path := [0] }
def backBox0 : State := { sysBox with returned := [flue0] }

theorem meets_flue : sysBox.fluePath .warden (.shelf 0) = [27, 26, 25, 24, 16, 8, 0] ∧ meshPath 8 56 63 = [56, 60, 61, 62, 63] ∧
    (flueBox.flueNext (.shelf 0)).map (fun x => (x.1.flue, x.2)) = some ([flue0], flue0) ∧
    flueBox.shelfGone 0 = false ∧ (flueBox.shelf 0).phase ≠ .gated := by decide +kernel

theorem test_flue : after (exec (.flueMessage (.shelf 0)) flueBox) (fun u => decide (u.flue = [] ∧ u.arrived = [flue0])) &&
    after (exec (.flueMessage (.shelf 0)) { flueBox with retired := 1 }) (fun u => decide (u.flue = [] ∧ u.returned = [flue0])) &&
    after (exec (.flueMessage (.shelf 0)) (flueBox.modShelf 0 (fun h => { h with phase := .gated }))) (fun u => decide (u.arrived = [] ∧ u.flue = [flue0] ∧
      (u.shelf 0).wakeArmed = true)) &&
    gives (exec (.notPresent .warden) backBox0) ({ backBox0 with returned := [] }.reportAbsent .warden) = true := by decide +kernel

/-- Shelves 0 and `altShelf 7` are active; shelf 1, the home of link 7, is gone. -/
def altBox : State := { sysBox with
  shelves := [(0, { phase := .active }), (altShelf 7, { phase := .active })]
  retired := 2 }

/-- Link 0 is on its alternate shelf, and its home is back. -/
def backBox : State := { altBox with
  retired := 0
  linkAlt := 1
  shelves := [(0, { phase := .active }), (altShelf 0, { phase := .active, rehomed := [0] })] }

theorem test_rehome : altBox.shelfGone 1 = true ∧ altBox.onAlt 7 = false ∧ altBox.shelfGone (altShelf 7) = false ∧
    after (exec (.linkRehome 7) altBox) (fun u => decide (u.onAlt 7 = true ∧ 7 ∈ (u.shelf (altShelf 7)).rehomed)) = true ∧
    backBox.onAlt 0 = true ∧ backBox.shelfActive 0 = true ∧
    after (exec (.linkReturn 0) backBox) (fun u => decide (u.onAlt 0 = false ∧ (u.shelf (altShelf 0)).rehomed = [])) = true := by decide +kernel

/-- A SUBMIT or other ring of 64 slots: its type, its interest mask for every port. -/
def ringDesc (ty : Nat) : List Word := [place 11 10 ty ||| place 4 0 6, place 63 48 0xFFFF ||| 5, 0, 0, 0, 0, 0, 0]

/-- The first slot of a DATA packet of 100 bytes: 3 slots, as R85 says. -/
def slot0 : List Word := [3, 1, 0, 100, 0, 0, 0, 0]

def ringBox (r : Ring) : State := { sysBox with rings := [(65535, r)] }

theorem meets_slot : let r := ringBox { en := true, desc := ringDesc 0, p := 3 } |>.ring 65535
    slot0.length = 8 ∧ r.ty = 0 ∧ r.fetched ≠ r.p ∧ fld (slot0.getD 0 0) 7 0 = nslotOf (fld (slot0.getD 3 0) 13 0) ∧ 3 ≤ r.size ∧
    cmdClass (fld (slot0.getD 1 0) 7 0) = some .ledger ∧ (sysBox.freeMover r.noticeShelf).isSome = true := by decide +kernel

theorem test_slot : after (exec (.submitSlotFetch 65535 ⟨slot0, [List.replicate 8 0x0101010101010101, List.replicate 8 2], 0x140000⟩) (ringBox { en := true, desc := ringDesc 0, p := 3 })) (fun u => decide
    ((u.ring 65535).fetched = 3 ∧ u.word 0x140000 = 1 ∧ u.word 0x140038 = 0x0101010101010101 ∧ u.word 0x140080 = 2 ∧ (u.ring 65535).runs = [{ first := 0, slots := 3, stream := 0, partner := 0, released := false }])) = true := by
  decide +kernel

/-- P = 2^32 - 2 and C = P - 40: doorbells for 2^32 + 22 (24 more), for P, for 25 more than fit, and on a RECEIVE ring. -/
def bellRing (ty : Nat) : Ring := { en := true, desc := ringDesc ty, p := 0xFFFFFFFE, c := 0xFFFFFFD6 }

theorem test_doorbell : (ringBox (bellRing 0)).power.block = .hostReady ∧ fld ((bellRing 0).word 1) 63 63 = 1 ∧
    gives (exec (.doorbell 15 65535 22) (ringBox (bellRing 0))) (((ringBox (bellRing 0)).setRing 65535 { bellRing 0 with p := 0x100000016 }).notice 65535) = true ∧
    gives (exec (.doorbell 15 65535 0xFFFFFFFE) (ringBox (bellRing 0))) (ringBox (bellRing 0)) = true ∧
    gives (exec (.doorbell 15 65535 23) (ringBox (bellRing 0))) (ringBox { bellRing 0 with ovr := 1 }) = true ∧
    gives (exec (.doorbell 15 65535 0xFFFFFFFE) (ringBox (bellRing 2))) (ringBox { bellRing 2 with c := 0xFFFFFFFE }) = true := by decide +kernel

/-- A notice held for queue 5 of shelf 0, which holds an item, and an event that is due. -/
def noticeBox : State := { wrReg (ringBox { bellRing 0 with held := some 9, evDue := some 0 }) (.shQcfg 0 5)
  (bitIf 63 true ||| place 62 52 4 ||| place 51 43 8 ||| place 42 38 2 ||| place 15 0 0x9000) with
  queues := [(5, { items := [{ off := 0x9000, len := 8 }] })]
  rings := [(65535, { bellRing 0 with desc := [place 4 0 6, place 41 32 5, 0, 0, 0, 0, 0, 0], held := some 9, evDue := some 0 })] }

theorem test_notice : noticeBox.qAbsent 0 5 = false ∧ noticeBox.qArea 0 5 1 = some 0x9008 ∧ noticeBox.qOwner 0 5 1 = none ∧
    after (exec (.heldNoticeCommit 65535) noticeBox) (fun u => decide ((u.ring 65535).held = none ∧
      u.word (areaAddr 0 0x9008 0) = noticeItem 65535 0xFFFFFFFE ∧ (u.queue 0 5).items.length = 2)) = true ∧
    gives (exec (.ringEventTimer 65535) noticeBox) (noticeBox.sendRingEvent 65535) = true := by decide +kernel

/-- The small state with the ring table in place. -/
def tableBox (r : Ring) : State := setB (ringBox r) .glRingtab 0 true

theorem test_ringCommands : badDesc (ringDesc 2) = false ∧ badDesc (ringDesc 3) = true ∧
    after (exec (.ringEnable .warden 65535 (BitVec.allOnes 44)) (tableBox {})) (fun u => decide (getB u .glRingstat 63 = true ∧ getF u .glRingstat 47 32 = 65535 ∧
      (u.ringDescArrived 65535 (ringDesc 2)).ring 65535 = { en := true, desc := ringDesc 2 } ∧ getF (u.ringDescArrived 65535 (ringDesc 2)) .glRingstat 62 60 = 0 ∧
      (u.ringDescArrived 65535 (ringDesc 3)).rings = u.rings ∧ getF (u.ringDescArrived 65535 (ringDesc 3)) .glRingstat 62 60 = 1)) = true ∧
    after (exec (.ringEnable .warden 65535 0) (ringBox {})) (fun u => decide (getF u .glRingstat 62 60 = 3)) = true ∧
    (tableBox (bellRing 0)).ringNamed 65535 = false ∧
    after (exec (.ringDisable .warden 65535) (tableBox (bellRing 0))) (fun u => decide ((u.ring 65535).en = false ∧ getF u .glRingstat 62 60 = 0)) = true ∧
    after (exec (.ringFlush .warden 65535) (tableBox (bellRing 0))) (fun u => decide ((u.ring 65535).c = 0xFFFFFFFE ∧ (u.ring 65535).runs = [])) = true ∧
    after (exec (.ringQuery .warden 65535) (tableBox (bellRing 0))) (fun u => decide (getF u .glRingidx 63 32 = 0xFFFFFFFE ∧
      getF u .glRingidx 31 0 = 0xFFFFFFD6)) = true ∧
    after (exec (.shQflush .warden 0 ⟨bitIf 63 true ||| 5, false⟩) noticeBox) (fun u => decide ((u.queue 0 5).items = [] ∧ (u.queue 0 5).epoch = 1)) = true := by
  decide +kernel

/-! ## Ledger commits and timers -/

def image1 (st : LedSt) : Image := { region := 0, idx := 5, entry := entry0 st }
def commit0 : Commit := { id := 3, images := [image1 .issued], awaiting := [0] }

/-- Shelf 0 has entry 5 OPEN and commit 3 under way; its buddy is active; `m` has arrived at shelf `n`. -/
def comBox (n : Fin 64) (b : FlueBody) : State := { sysBox with
  shelves := [(0, { phase := .active, entries := [(5, entry0 .opened)], commits := [commit0] }), (buddy 0, { phase := .active })]
  arrived := [{ src := .shelf 0, dst := .shelf n, body := b }] }

/-- The buddy of shelf 0, as a number of the table. -/
def b0 : Fin 64 := ⟨buddy 0 % 64, by decide⟩

theorem meets_commits : b0.val = buddy 0 ∧ attShelf 0 = .shelf 0 ∧ attShelf b0.val = .shelf b0 ∧ ((comBox 0 (.prepared 3)).shelf 0).adopt = none ∧
    (comBox 0 (.prepared 3)).adopted 0 = false ∧ ((comBox 0 (.prepared 3)).shelf 0).mode = .buddy ∧ ((comBox 0 (.prepared 3)).vol 0 5).lost = false ∧
    (comBox 0 (.prepared 3)).arrived.find? (fun m => m.dst == attShelf 0 && (match m.body with
      | .prepared _ => true
      | _ => false)) = some { src := .shelf 0, dst := .shelf 0, body := .prepared 3 } := by decide +kernel

theorem test_commits :
    after (exec (.prepare b0 true) (comBox b0 (.prepare 3 [image1 .issued]))) (fun u => decide (u.flue = [Stated.onWay sysBox (.shelf b0) (.shelf 0) (.prepared 3)] ∧
      (u.shelf (buddy 0)).mirror = [(5, { entry0 .issued with prep := true })])) &&
    after (exec (.prepare b0 false) (comBox b0 (.prepare 3 [image1 .issued]))) (fun u => decide (u.flue = [Stated.onWay sysBox (.shelf b0) (.shelf 0) (.resend 3)] ∧
      (u.shelf (buddy 0)).mirror = [])) &&
    after (exec (.commit b0) (comBox b0 (.commit [image1 .issued]))) (fun u => decide (u.flue = [] ∧
      (u.shelf (buddy 0)).mirror = [(5, entry0 .issued)])) &&
    after (exec (.resend 0) (comBox 0 (.resend 3))) (fun u => decide ((u.shelf 0).commits = [{ commit0 with resent := true }] ∧
      u.flue = [Stated.onWay sysBox (.shelf 0) (.shelf b0) (.prepare 3 [(comBox 0 (.resend 3)).prepImage 0 (image1 .issued)])])) &&
    after (exec (.prepared 0) (comBox 0 (.prepared 3))) (fun u => decide ((u.shelf 0).commits = [] ∧
      u.ent 0 5 = { entry0 .issued with word30 := (comBox 0 (.prepared 3)).newDeadline 0 } ∧
      u.flue.map (fun m => match m.body with
        | .commit [i] => (m.src, m.dst, i.idx, i.entry.st)
        | _ => (.warden, .warden, 0, .retired)) = [(.shelf 0, .shelf b0, 5, .issued)])) = true := by decide +kernel

/-- Shelf 0 resyncs toward the host, with nothing left to copy. -/
def resyncBox : State := (sysBox).modShelf 0 (fun h => { h with mode := .resync })

theorem test_mirror : resyncBox.copying 0 = false ∧ gives (exec (.mirrorResyncDone 0) resyncBox) (ledRun (resyncBox.setMode 0 .host) [.pump 0]) = true ∧
    sysBox.shelfGone (buddy 0) = true ∧ sysBox.fbValid 0 = false ∧
    after (exec (.ledgerAdopt 0) sysBox) (fun u => decide ((u.shelf 0).adopt = some (buddy 0) ∧ (u.shelf 0).preps = 0)) = true ∧
    after (exec (.adoptionEnd 0) { sysBox with shelves := [(0, { phase := .active, adopt := some (buddy 0) }), (buddy 0, { phase := .active })] })
      (fun u => decide ((u.shelf 0).adopt = none ∧ (u.shelf 0).mirror = [])) = true := by decide +kernel

/-- Entry 5 ISSUED with its timers due at 10, on a unit without a mirror target, in the small state at 20. -/
def dueBox (e : Entry) (v : EntryVol) : State := { (box []).modShelf 0 (fun h => { h with
  entries := [(5, e), (6, { record0 with partner := 0x123, localEp := 0 })]
  vol := [(5, v)]
  streams := [(6, { origin := e.role == .origin })]
  mode := .none }) with devtime := 20 }

theorem test_ledgerTimers :
    ((dueBox (entry0 .issued) {}).findCtx 0 = some (0, 0) ∧ (dueBox (entry0 .issued) {}).adopted 0 = false) ∧
    after (exec (.ackTimeout 0 5) (dueBox (entry0 .issued) { ackDue := some 10, ackStep := 8 })) (fun u => decide
      (u.ent 0 5 = { entry0 .issued with retries := 1 } ∧ (u.vol 0 5).ackDue = some 18 ∧ (u.ctx 0 0).pend = wakeSYNC ∧ (u.ctx 0 0).code = 0xFFFF)) = true ∧
    gives (exec (.deadlineExpiry 0 5) (dueBox (entry0 .issued) {})) (ledRun (dueBox (entry0 .issued) {}) [.finish 0 5 3]) = true ∧
    (dueBox { entry0 .opened with role := .target } { idleDue := some 10 }).findStream 0 false 0x123 0 3 = some (0, 6) ∧
    gives (exec (.targetIdleTimeout 0 5) (dueBox { entry0 .opened with role := .target } { idleDue := some 10 }))
      (ledThen ((dueBox { entry0 .opened with role := .target } { idleDue := some 10 }).discardOpen 0 0 6)) = true := by decide +kernel

/-- An acknowledged write of completion slot 4, for entry 5 and for no entry. -/
def ackBox (i : Nat) : State := { (box []).modShelf 0 (fun h => { h with
  entries := [(5, { entry0 .complete with cidx := 4 })]
  mode := .none }) with slotWrites := [{ ring := 65535, index := 4, shelf := 0, idx := i, acked := true }] }

theorem test_completionWriteAck : ((ackBox 5).ring 65535).en = false ∧ (ackBox 5).findStream 0 true 0x123 0 3 = none ∧
    after (exec (.completionWriteAck 65535) (ackBox 5)) (fun u => decide ((u.ent 0 5).st = .retired ∧ u.slotWrites = [])) = true ∧
    gives (exec (.completionWriteAck 65535) (ackBox noEntry)) (State.countSlot { ackBox noEntry with slotWrites := [] } 65535) = true := by decide +kernel

/-! ## Packets -/

/-- A packet from endpoint 0x23 of device 1 to endpoint 4 of device 0. -/
def pkt (cmd seq : Nat) : Packet := hwPacket 1 0x23 4 cmd 3 seq 0 1

/-- Link 5 is ACTIVE toward device 1, the packet has arrived there in its channel; endpoint 4 is served by shelf 0, which knows the partner and
has an open target record whose NEXTIN and FRONTIER are 9. -/
def netBox (p : Packet) (g : Option GlazeOutcome) : State := wrReg { sysBox with
  shelves := [(0, { phase := .active, entries := [(6, { record0 with localEp := 4 })], streams := [(6, { frontier := 9 })]
                    partners := [{ pid := 0x123, valid := true, rclass := 0 }] }),
    (1, { phase := .active, partners := [{ pid := 0x123, valid := true, rclass := 0 }] })]
  links := [(5, { st := .active, peerDev := 1, rxFifo := [{ vc := vcOf p.cmd, pkt := p, glazed := g }] })] } (.glEp 4) (bitIf 63 true)

theorem meets_packets : (netBox (pkt 1 9) (some (.ok []))).rxHead 5 (fun q => q.cmd == 1 && (netBox (pkt 1 9) none).forMe q) =
      some { vc := 0, pkt := pkt 1 9, glazed := some (.ok []) } ∧ getB (netBox (pkt 1 9) none) (.glEp 4) 63 = true ∧
    (netBox (pkt 1 9) none).epUnit 4 = 0 ∧ ((netBox (pkt 1 9) none).damperIn 5 0 { vc := 0, pkt := pkt 1 9 }).2 = .pass ∧
    (netBox (pkt 1 9) none).findStream 0 false 0x123 4 3 = some (0, 6) := by decide +kernel

theorem test_ledgerPackets :
    let t := fun (s : State) => (s.damperIn 5 0 { vc := 0, pkt := pkt 1 9 }).1.heardFrom 0 0x123
    gives (exec (.data 5) (netBox (pkt 1 8) (some (.ok [])))) (((t (netBox (pkt 1 8) (some (.ok [])))).takeRx 5 0).dups 0) &&
    gives (exec (.request 5) (netBox (pkt 2 10) (some (.ok [])))) (((t (netBox (pkt 2 10) (some (.ok [])))).takeRx 5 0).sendNakGap 0 6 9) &&
    gives (exec (.programCommand 5) (setB (netBox (pkt 0xBF 9) (some (.ok []))) (.glEp 4) 63 false))
      (((setB (netBox (pkt 0xBF 9) (some (.ok []))) (.glEp 4) 63 false).takeRx 5 0).dropCnt 5) = true := by decide +kernel

/-- `netBox` with an OPEN transaction of the stream at entry 7. -/
def openTxn : State := (netBox (pkt 1 9) (some (.ok []))).modShelf 0 (fun h => { h with
  entries := [(6, { record0 with localEp := 4 }), (7, { role := .target, st := .opened, gen := 1, stream := 3, partner := 0x123, localEp := 4, seqFirst := 9 })]
  mode := .none })

theorem meets_deliver :
    let h := (openTxn.damperIn 5 0 { vc := 0, pkt := pkt 1 9 }).1.heardFrom 0 0x123
    h.findOtxn 0 (h.entNext 0 6) 0 = some (0, 7, h.ent 0 7) ∧ h.entBusy 0 7 = false ∧ (h.ent 0 7).st = .opened ∧ (pkt 1 9).seq = (h.svol 0 6).frontier.toNat := by
  decide +kernel

/-- Every row of `ReceivedPackets` on a packet that passes, on one from an unknown partner while GL_PART is not valid, and on one whose partner is
then fetched. -/
theorem test_receivedPackets : (∀ p ∈ ([(.ack 5, 0x18), (.streamState 5, 0x1B), (.nakGap 5, 0x19), (.nakClosed 5, 0x1A), (.streamOpen 5, 0x10), (.streamClose 5, 0x11),
      (.streamQuery 5, 0x12), (.barrier 5, 0x20), (.reduce 5, 0x21), (.result 5, 0x26), (.broadcast 5, 0x22), (.sysreset 5, 0x24), (.snapshot 5, 0x23),
      (.timesync 5, 0x25), (.gabort 5, 0x27)] : List (Instr × Nat)),
    let s := netBox (pkt p.2 9) none
    let x : RxPkt := { vc := vcOf p.2, pkt := pkt p.2 9 }
    let here := if 0x20 ≤ p.2 then 1 else 0
    s.rxHead 5 (fun q => q.cmd == p.2 && s.forMe q) = some x ∧ (s.damperIn 5 here x).2 = .pass ∧
      after (exec p.1 s) (fun u => decide ((u.link 5).rxFifo = [])) = true) := by decide +kernel

/-- Link 5 leads to a child, link 6 to the parent; tag 15 is BUSY in instance 9. -/
def treeBox : State := setF (setF { sysBox with
  sys := { treeOk := true }
  gops := [(15, { status := 1, inst := 9 })]
  links := [(5, { st := .active, peerDev := 1 }), (6, { st := .active, peerDev := 2, delay := 7 })] } (.lkCfg 5) 56 55 2) (.lkCfg 6) 56 55 1

theorem test_packetEffects : treeBox.treeRole 5 = 2 ∧ treeBox.treeRole 6 = 1 ∧
    ((treeBox.upPacket 5 15 false { pkt 0x20 9 with w1 := place 63 16 9 ||| 15 }).gop 15).children = [5] ∧
    ((treeBox.gotResult 6 { pkt 0x26 9 with w1 := place 63 16 9 ||| 15 }).gop 15).status = 2 ∧
    ((treeBox.gotGabort 6 { pkt 0x27 9 with payload := [15] }).gop 15).status = 3 ∧
    (treeBox.gotTimesync 6 { pkt 0x25 9 with payload := wordBytes 100 ++ wordBytes 3 }).sys.slew = 110 := by decide +kernel

/-- A packet for device 3, whose route leads through link 7. -/
def far : Packet := hwPacket 1 0x23 0x304 1 3 9 0 5

def fwdBox (r : Word) : State := wrReg { netBox far none with
  links := [(5, { st := .active, peerDev := 1, rxFifo := [{ vc := 0, pkt := far }] }), (7, { st := .active })] } (.glRt 3) r

theorem test_forward : (fwdBox 0).rxHead 5 (fun q => !(fwdBox 0).forMe q) = some { vc := 0, pkt := far } ∧
    gives (exec (.packetForward 5) (fwdBox 0)) (((fwdBox 0).takeRx 5 0).dropCnt 5) = true ∧
    after (exec (.packetForward 5) (fwdBox (bitIf 63 true ||| place 61 54 7))) (fun u => decide ((u.link 7).fwdq = [hwPacket 1 0x23 0x304 1 3 9 0 4])) = true := by
  decide +kernel

/-- A reply for the device at the end of link 5. -/
def reply : Packet := hwPacket 0 4 0x123 0x18 3 9 0 1

def outBox : State := ({ netBox reply none with sys := { idv := true } }).modLink 5 (fun k => { k with
  rxFifo := []
  respq := [reply]
  peerIdv := true
  farIdv := true
  stormUntil := none })

theorem test_damperRelease : outBox.linkOpen 5 (vcOf 0x18) = true ∧
    after (exec (.damperRelease 5) (outBox.modShelf 1 (fun h => { h with partners := [{ pid := 0x123, valid := true, rclass := 0 }] }))) (fun u => decide
      ((u.link 5).respq = [] ∧ (u.link 5).txq = [{ vc := vcOf 0x18, bytes := reply.bytes }])) = true := by decide +kernel

theorem test_stormEnd : after (exec (.stormEnd 5) ({ outBox with devtime := 9 }.modLink 5 (fun k => { k with stormUntil := some 9 }))) (fun u => decide
    ((u.link 5).stormUntil = none ∧ (u.link 5).bucketAt = 9)) = true := by decide +kernel

/-! ## Packets that wait to leave -/

/-- The first packet of ISSUED transaction 0, for the device at the end of link 5. -/
def sent : Packet := hwPacket 0 4 0x123 1 3 9 0 1

/-- The item of the feeding queue of link 5; a glaze engine has committed it, or software has. -/
def feedItem (g : Bool) : QItem := { off := 0, len := 2, byGlaze := g }

/-- `outBox` with transaction 0 ISSUED (SEQ 9), its partner in class 0, and `sent` either held at the port or in the queue that feeds link 5. -/
def leaveBox (held fwd : List Packet) (st : LedSt) : State :=
  let s : State := { outBox with
    mem := putMem [] (areaAddr 1 0 0) sent.bytes
    queues := [(1024 + (Config.linkQueue 5 false).toNat, { items := [feedItem true] })] }
  let t := (s.modLink 5 (fun k => { k with
    respq := []
    heldOut := held
    fwdq := fwd
    bucket := 1000000 })).modShelf 1 (fun h => { h with partners := [{ pid := 0x123, valid := true, rclass := 0, bucket := 1000000 }] })
  setF (t.modShelf 0 (fun h => { h with
    entries := [(0, { role := .origin, st := st, seqFirst := 9, npkt := 1, partner := 0x123, localEp := 4, stream := 3 })] })) (.glPclass 0) 63 56 1

/-- A packet of device 3 for device 1. -/
def passing : Packet := hwPacket 3 4 0x123 1 3 9 0 1

/-- What the damper does with it: 0 lets it out, 1 drops it, 2 has it wait. -/
def verdict : Release → Nat
  | .leaves _ => 0
  | .drops _ => 1
  | .waits _ => 2

theorem meets_packetsOut :
    let h := leaveBox [sent] []
    (h .issued).outHeads 5 = [(.held, sent)] ∧ (h .issued).servingShelf 5 = 1 ∧ (h .issued).ledgerLets sent = true ∧
    verdict ((h .issued).damperOut 5 1 sent false) = 0 ∧ (h .complete).outHeads 5 = [(.held, sent)] ∧ (h .complete).ledgerLets sent = false ∧
    (leaveBox [] [passing] .issued).outHeads 5 = [(.forward, passing)] ∧
    verdict ((leaveBox [] [passing] .issued).damperOut 5 1 passing true) = 0 := by decide +kernel

theorem meets_feed :
    (leaveBox [] [] .issued).outHeads 5 = [] ∧ (leaveBox [] [] .issued).linkOpen 5 0 = true ∧
    (leaveBox [] [] .issued).inTurn { packetOf ((leaveBox [] [] .issued).itemBytes 1 (feedItem true)) with bad := none } = true ∧
    packetOf ((leaveBox [] [] .issued).itemBytes 1 (feedItem true)) = sent ∧
    verdict ((leaveBox [] [] .issued).damperOut 5 1 sent false) = 0 := by decide +kernel

/-- The queue that feeds link 5, whichever it is, has the item in front. -/
theorem meets_feedQueue : ((leaveBox [] [] .issued).queue 1 ((leaveBox [] [] .issued).feedQueue 5)).items = [feedItem true] := by
  show (tget {} [(1024 + (Config.linkQueue 5 false).toNat, ({ items := [feedItem true] } : Queue))] (1024 * 1 + (Config.linkQueue 5 false).toNat)).items = _
  simp [tget]

theorem test_packetsOut :
    after (exec (.damperRelease 5) (leaveBox [sent] [] .issued)) (fun u => decide ((u.link 5).heldOut = [] ∧ (u.link 5).txq = [{ vc := 0, bytes := sent.bytes }] ∧
      (u.vol 0 0).released = 1 ∧ (u.vol 0 0).links = [5])) &&
    after (exec (.damperRelease 5) (leaveBox [sent] [] .complete)) (fun u => decide ((u.link 5).heldOut = [] ∧ (u.link 5).txq = [])) &&
    after (exec (.damperRelease 5) (leaveBox [] [passing] .issued)) (fun u => decide ((u.link 5).fwdq = [] ∧
      (u.link 5).txq = [{ vc := 0, bytes := passing.bytes }])) = true := by decide +kernel

/-! ## Links and partners -/

def param0 : LinkParam := { serial := 9, devId := 1, idv := true, link := 0, credCmd := 255, credRsp := 255, credGlb := 255, credMgt := 255, ownErr := 200000, farErr := 200000 }

/-- Link 255 in a state since time 0, now 60 ms later. -/
def lk (st : LinkSt) : State := { sysBox with
  links := [(255, { st := st })]
  devtime := 60000000 }

theorem test_linkStates :
    (∀ x ∈ ([(.symbolLock 255, .detect, .eq), (.lockDone 255, .lock, .param), (.retrainTimeout 255, .retrain, .eq), (.failedTimeout 255, .failed, .detect),
      (.eqTimeout 255, .eq, .failed), (.lockTimeout 255, .lock, .failed), (.paramTimeout 255, .param, .failed)] : List (Instr × LinkSt × LinkSt)),
      after (exec x.1 (lk x.2.1)) (fun u => decide ((u.link 255).st = x.2.2 ∧ (u.link 255).since = 60000000 ∧
        (u.link 255).fell = (x.2.2 == .failed && getF (lk .eq) (.lkCfg 255) 62 61 == 0))) = true) ∧
    gives (exec (.symbolLock 255) (setF (lk .detect) (.lkCfg 255) 60 58 3)) (((setF (lk .detect) (.lkCfg 255) 60 58 3).linkGoto 255 .eq).modLink 255 (fun k => { k with
      preset := 3
      taps := presetTaps 3 })) = true ∧
    after (exec (.eqDone 255 ⟨7, [0, -1, 1, 0]⟩ true) (lk .eq)) (fun u => decide ((u.link 255).st = .lock ∧ (u.link 255).preset = 7 ∧
      (u.link 255).precode = getB (lk .eq) (.lkCfg 255) 57 ∧ (u.link 255).taps = stepTaps 7 [0, -1, 1, 0])) = true := by decide +kernel

/-- Rows 0 to 2 of Table 4.2: the amplitude is 1 in each. -/
theorem test_taps : (List.range 8).all (fun p => ((presetTaps (BitVec.ofNat 3 p)).map Int.natAbs).foldl (· + ·) 0 == 1600) = true := by decide +kernel

/-- The home shelf of link 255 is up, and the link is enabled. -/
def lk3 (st : LinkSt) : State := setB ((lk st).modShelf 63 (fun h => { h with phase := .active })) (.lkCfg 255) 63 true

theorem meets_param : (lk3 .param).linkHoused 255 = true ∧ tooManyErrors param0 = false := by decide +kernel

theorem test_param :
    after (exec (.paramExchange 255 param0) (lk3 .param)) (fun u => decide ((u.link 255).st = .active ∧ (u.link 255).peerSerial = some 9 ∧
      (u.link 255).peerDev = 1)) &&
    after (exec (.paramExchange 255 param0) ((lk3 .param).modLink 255 (fun k => { k with peerSerial := some 8 })))
      (fun u => decide ((u.link 255).st = .detect ∧ (u.link 255).peerSerial = none)) &&
    after (exec (.paramExchange 255 { param0 with ownErr := 200001 }) (lk3 .param)) (fun u => decide ((u.link 255).st =
      (if tooManyErrors { param0 with ownErr := 200001 } then .detect else .active))) &&
    after (exec (.retrainDone 255 param0) (lk3 .retrain)) (fun u => decide ((u.link 255).st = .active)) &&
    after (exec (.lossOfSignal 255) (lk3 .active)) (fun u => decide ((u.link 255).st = .retrain)) &&
    after (exec (.flitSilenceTimeout 255) (lk3 .active)) (fun u => decide ((u.link 255).st = .detect)) &&
    gives (exec (.flitSilenceTimeout 255) ((lk3 .active).modLink 255 (fun k => { k with lastValid := 59998001 })))
      ((lk3 .active).modLink 255 (fun k => { k with lastValid := 59998001 })) = true := by decide +kernel

/-- An IDLE, a RETRY-REQ, a SYNC, a DATA and an ABORT flit with FSEQ 4095 and ACK 254, and one with a bad CRC. -/
def flit0 (ty : Nat) : List Byte := ({ rxExp := 255 } : Link).flit 4095 ty []
def badFlit : List Byte := (flit0 0).take 255 ++ [(flit0 0).getD 255 0 + 1]

def flitBox : State := (lk3 .active).modLink 255 (fun k => { k with rxExp := 4095 })

theorem meets_flits : badFlit.length = 256 ∧ flitOk badFlit = false ∧ (∀ ty ∈ [0, 1, 2, 4, 11], (flit0 ty).length = 256 ∧ flitOk (flit0 ty) = true ∧
    flitType (flit0 ty) = ty ∧ flitSeq (flit0 ty) = 4095) := by decide +kernel

/-- The link in the codeword that the flit ends in. -/
def cwBox (ok : Bool) : State := flitBox.modLink 255 (fun k => k.codewords ok)

theorem meets_fec : (flitBox.link 255).fecPasses true = true ∧ (flitBox.link 255).cwStarts = true ∧ (flitBox.link 255).fecPasses false = false ∧
    (flitBox.modLink 255 (fun k => { k with cwPos := 100, cwBad := true }) |>.link 255).fecPasses true = false := by decide +kernel

theorem test_flits :
    gives (exec (.idleFlit 255 (flit0 0) true) flitBox) ((cwBox true).goodFlit 255 (flit0 0)) &&
    gives (exec (.retryReq 255 (flit0 1) true) flitBox) ((cwBox true).goodFlit 255 (flit0 1)) &&
    gives (exec (.sync 255 (flit0 2) true) flitBox) ((cwBox true).goodFlit 255 (flit0 2)) &&
    gives (exec (.dataFlit 255 (flit0 4) true) flitBox) ((cwBox true).goodFlit 255 (flit0 4)) &&
    gives (exec (.abort 255 (flit0 11) true) flitBox) ((cwBox true).goodFlit 255 (flit0 11)) &&
    gives (exec (.idleFlit 255 badFlit true) flitBox) ((cwBox true).modLink 255 Link.discard) &&
    gives (exec (.idleFlit 255 (flit0 0) false) flitBox) (((cwBox false).modLink 255 Link.discard).uncorrectable 255) &&
    decide (((flitBox.goodFlit 255 (flit0 11)).link 255).rxExp = 0) &&
    gives (exec (.sync 255 (flit0 2) true) (lk3 .param)) (((lk3 .param).modLink 255 (fun k => k.codewords true)).modLink 255
      (fun k => k.gotSync 60000000 (flit0 2))) = true := by decide +kernel

/-- A packet of 56 bytes waits in channel 0 of a link with credit. -/
def sendBox (q : List TxPkt) : State := (lk3 .active).modLink 255 (fun k => { k with
  txNext := 4095
  txq := q
  credits := [(0, 1)]
  reqSent := some (0, 14, 0) })

theorem meets_flitSend : ((sendBox []).link 255).nextVc = none ∧ ((sendBox [{ vc := 0, bytes := reply.bytes }]).link 255).nextVc = some 0 ∧
    (fillFlit 8 0 248 [{ vc := 0, bytes := reply.bytes }] []).2.2.map (fun x => x.bytes) = [reply.bytes] ∧
    (fillFlit 8 0 248 [{ vc := 0, bytes := List.replicate 300 7 }] []).2.2 = [] := by decide +kernel

theorem test_flitSend :
    gives (exec (.flitSend 255) (sendBox [])) ((sendBox []).putFlit 255 4095 0 []) &&
    gives (exec (.retryReqRepeat 255) (sendBox [])) ((sendBox []).modLink 255 (fun k => { k with reqWanted := true })) &&
    after (exec (.flitSend 255) (sendBox [{ vc := 0, bytes := List.replicate 300 7 }])) (fun u => decide ((u.link 255).txNext = 0 ∧
      (u.link 255).retryBuf = [(4095, 4, List.replicate 248 7)] ∧ tget 0 (u.link 255).credits 0 = 0)) = true := by decide +kernel

/-- Shelf 0 with partner 0x123 and an open record of a stream to it that has an entry; now 1 s after the partner's last packet. -/
def partnerBox (p : Partner) : State := setF (setF { (box []).modShelf 0 (fun h => { h with
  partners := [p]
  entries := [(5, entry0 .issued), (6, { record0 with localEp := 0 })]
  fetching := [7] }) with devtime := 1000000000 } .glPart 22 15 1) .glPart 63 52 1

def partner0 : Partner := { pid := 0x123, valid := true, rclass := 0 }

theorem test_partners : ((partnerBox partner0).activeRecord 0 0x123).map (fun a => (a.1, a.2.1)) = some (0, 6) ∧
    after (exec (.partnerFetchDone 0 7 (bitIf 63 true ||| place 62 59 9)) (partnerBox partner0)) (fun u => decide ((u.shelf 0).fetching = [] ∧
      (u.partner 0 7).map (fun p => (p.valid, p.rclass)) = some (true, 9))) = true ∧
    after (exec (.probetoExpiry 0 0x123) (partnerBox partner0)) (fun u => decide ((u.partner 0 0x123).map (·.probeSent) = some (some 1000000000))) = true ∧
    after (exec (.probetoExpiry 0 0x123) (partnerBox { partner0 with probeSent := some 0 })) (fun u => decide
      (u.partner 0 0x123 = some { partner0 with st := .suspect, since := 1000000000 })) = true ∧
    gives (exec (.plosttoExpiry 0 0x123) (partnerBox { partner0 with st := .suspect })) ((partnerBox { partner0 with st := .suspect }).losePartner 0 0x123) = true ∧
    gives (exec (.epclose 5 1 0x23) (comes (linkBox .active))) ((taken (linkBox .active)).loseEverywhere 0x123) = true := by decide +kernel

/-- A device that has heard no lower serial for 1 ms; link 5 and link 6 are ACTIVE. -/
def electBox : State := { sysBox with
  fuses := { serial := 9 }
  sys := { rootSer := 9, dist := 0 }
  links := [(5, { st := .active }), (6, { st := .active })]
  devtime := 1000000 }

/-- The root in a snapshot whose cut is due, without children. -/
def snapBox (frozen : Bool) : State := { sysBox with
  sys := { root := true, snapActive := true, snapCt := 5, snapFrozen := frozen }
  devtime := 1000005 }

/-- A packet routed by its path that has a hop left has come by link 5. -/
def hopBox : State := electBox.modLink 5 (fun k => { k with rxFifo := [{ vc := 3, pkt := hwPacket 0xFFF 0 0xFFF00 0x30 0 0 0 1 }] })

theorem test_deviceTree :
    after (exec (.elect 5 8 3) (comes electBox)) (fun u => decide (u.sys.rootSer = 8 ∧ u.sys.dist = 4 ∧ u.sys.electAt = 1000000 ∧ u.sys.root = false ∧
      u.outbox.length = 2)) &&
    gives (exec (.elect 5 10 0) (comes electBox)) (taken electBox) &&
    gives (exec .rootElectTimeout electBox) (electBox.modSys (fun y => { y with root := true })) &&
    after (exec (.discover 5 []) (comes electBox)) (fun u => match u.outbox with
      | [.link 5 (.discovered _ serial links)] => decide (serial = 9 ∧ links.length = 256)
      | _ => false) &&
    after (exec (.discover 5 [6, 1]) hopBox) (fun u => decide ((u.link 6).txq = [{ vc := 3, bytes := (hwPacket 0xFFF 0 0xFFF00 0x30 0 0 0 0).bytes }] ∧
      (u.link 5).rxFifo = [])) &&
    after (exec (.idassign 5 [6] 3) hopBox) (fun u => decide ((u.link 6).txq.length = 1 ∧ u.sys.idv = false)) &&
    after (exec (.idassign 5 [] 3) (comes electBox)) (fun u => decide (u.sys.idv = true ∧ u.sys.devId = 3)) &&
    after (exec (.idassign 5 [] 3) (comes (electBox.modSys (fun y => { y with idv := true })))) (fun u => decide (u.sys.idv = true ∧ u.sys.devId = 0)) &&
    gives (exec .snapshotCut (snapBox false)) ((snapBox false).modSys (fun y => { y with
      snapFrozen := true
      snapCut := (snapBox false).cut })) &&
    decide ((snapBox true).cutting = false ∧ (snapBox true).childLinks = []) &&
    after (exec .snapshotCutWritten (snapBox true)) (fun u => decide (u.sys.snapActive = false ∧ getB u .glSnap 1 = true)) &&
    gives (exec .timesyncSend (snapBox true)) (((snapBox true).modSys (fun y => { y with timesyncAt := 1000005 })).sendDown 0x25 0 0 (timesyncPayload 1000005 0)) &&
    after (exec (.glEpWrite .warden 255 (BitVec.allOnes 64)) sysBox) (fun u => decide (rdReg u (.glEp 255) = (bitIf 63 true ||| place 62 57 63))) = true := by
  decide +kernel

/-! ## Glaze engines and keys -/

/-- A glaze item: command word, words to 3, header, payload. -/
def glItem (w0 w1 w2 : Word) (rest : List Byte) : GlazeReq := { bytes := wordBytes w0 ++ wordBytes w1 ++ wordBytes w2 ++ wordBytes 0 ++ rest, ct := false, since := 0 }

/-- LINKOUT of 32 bytes, plain or sealed under slot 2 of shelf 0, with a SEQ; OUTQ and STATQ are 0xFFFF. -/
def linkout0 (enc : Bool) (seq : Nat) : GlazeReq :=
  glItem (place 63 48 0xFFFF ||| place 47 32 0xFFFF ||| 1) 0 0
    (fromWords [place 63 56 1 ||| place 55 36 4 ||| place 35 16 0x123 ||| bitIf 8 enc ||| 1, place 63 16 seq, place 31 16 2 ||| 32, 0] ++ List.replicate 32 7)

/-- Shelf 0 with a link key in slot 2 (FLOOR 100) and an XTS key in slot 3. -/
def key0 : KeySlot := { key1 := 5, valid := true, mode := 0, localId := 4, peer := 0x123, floor := 100 }
def glBox (k : KeySlot) (h : Shelf → Shelf) : State := (box []).modShelf 0 (fun s => h { s with homeKeys := [(2, k), (3, { key0 with mode := 2 })] })
def running (r : GlazeReq) (k : KeySlot) : State := glBox k (fun h => { h with engines := [(3, { req := some r }), (5, { req := some r })] })

theorem meets_linkout : (linkout0 true 100).badCmd = false ∧ (linkout0 true 100).badLen = false ∧ (linkout0 true 100).compresses = false ∧
    (linkout0 true 100).packet.cmp = false ∧ (linkPacket 0 (linkout0 true 100) 0 (linkout0 true 100).packet.payload).enc = true ∧
    (linkPacket 0 (linkout0 true 100) 0 (linkout0 true 100).packet.payload).keySlot = 2 ∧ (linkPacket 0 (linkout0 true 100) 0 (linkout0 true 100).packet.payload).src = 4 ∧
    (linkPacket 0 (linkout0 true 100) 0 (linkout0 true 100).packet.payload).seq = 100 := by decide +kernel

/-- The outcome of engine 3. -/
def outOf (i : Instr) (s : State) (res : Nat) : Bool := after (exec i s) (fun u => decide ((u.engine 0 3).out.map (·.result) = some res))

theorem test_linkout :
    outOf (.linkout 0 3) (running (linkout0 false 9) key0) 0 && outOf (.linkout 0 3) (running (linkout0 true 100) {}) 4 &&
    outOf (.linkout 0 3) (running (linkout0 true 100) { key0 with peer := 0x124 }) 8 && outOf (.linkout 0 3) (running (linkout0 true 99) key0) 5 = true := by
  decide +kernel

/-- The sealed packet keeps its length and header, and its tag is that of AES-GCM. -/
theorem test_linkoutSealed : after (exec (.linkout 0 3) (running (linkout0 true 100) key0)) (fun u =>
    match (u.engine 0 3).out with
    | some o => decide (o.result = 0 ∧ o.len = 32 ∧ (packetOf o.data).enc = true ∧ (packetOf o.data).len = 32 ∧ (packetOf o.data).payload ≠ List.replicate 32 7)
    | none => false) = true := by decide +kernel

theorem test_glazeDispatch :
    after (exec (.glazeDispatch 0) (glBox key0 (fun h => { h with cryptoPool := [linkout0 true 9] }))) (fun u => decide
      ((u.engine 0 0).req = some (linkout0 true 9) ∧ (u.shelf 0).cryptoPool = [])) &&
    after (exec (.glazeDispatch 0) (glBox key0 (fun h => { h with compPool := [linkout0 true 9] }))) (fun u => decide
      ((u.engine 0 4).req = some (linkout0 true 9) ∧ (u.shelf 0).compPool = [])) = true := by decide +kernel

/-- The glaze queue of shelf 0 is queue 5, and holds one item: a command word with OP 9. -/
def glQueue : State := (setF (setB (wrReg { box [] with
    queues := [(5, { items := [{ off := 0x9000, len := 1 }] })] } (.shQcfg 0 5)
  (bitIf 63 true ||| place 62 52 4 ||| place 51 43 8 ||| place 42 38 2 ||| place 15 0 0x9000)) (.shGlcfg 0) 63 true) (.shGlcfg 0) 9 0 5).storeWords
    (areaAddr 0 0x9000 0) [place 63 48 0xFFFF ||| 9]

theorem test_glazeBadCmd : glQueue.qAbsent 0 5 = false ∧ glQueue.shareOut 0 0 = none ∧
    after (exec (.glazeDispatch 0) glQueue) (fun u => decide ((u.queue 0 5).items = [] ∧ (u.engine 0 0).out.map (·.result) = some 7)) = true := by decide +kernel

/-- XTS of 32 bytes with the key in slot 3, both ways. -/
def xts0 (op : Nat) : GlazeReq := glItem (place 63 48 0xFFFF ||| place 47 32 0xFFFF ||| BitVec.ofNat 64 op) 1 (place 47 32 3) (List.replicate 32 7)

theorem test_xts : outOf (.xtsenc 0 3) (running (xts0 2) key0) (xtsResult true { key0 with mode := 2 } (xts0 2)).1 &&
    outOf (.xtsdec 0 3) (running (xts0 3) key0) (xtsResult false { key0 with mode := 2 } (xts0 3)).1 &&
    after (exec (.compressWaitExpiry 0) { glBox key0 (fun h => { h with compPool := [xts0 1], engines := [(4, { req := some (xts0 1) }), (5, { req := some (xts0 1) })] }) with
      devtime := 15000 }) (fun u => decide ((u.shelf 0).compPool = [] ∧ (u.engine 0 0).req = some ((xts0 1).bypass 1))) = true := by decide +kernel

/-- An engine with an output whose status queue is none, and one whose status queue is absent. -/
def outBox0 (res statq : Nat) : State := glBox key0 (fun h => { h with engines := [(5, { out := some { outq := 0, statq := BitVec.ofNat 16 statq, tagv := 0, form := 0, result := res, len := 0, data := [] } })] })

theorem test_glazeComplete : after (exec (.glazeOpComplete 0 5) (outBox0 4 0xFFFF)) (fun u => decide (u.engine 0 5 = {})) &&
    after (exec (.glazeOpComplete 0 5) (outBox0 3 0xFFFF)) (fun u => decide (u.engine 0 5 = {})) &&
    after (exec (.glazeOpComplete 0 5) (outBox0 4 7)) (fun u => decide (u.engine 0 5 = {})) = true := by decide +kernel

/-- A packet of the command channel that a crypto engine of the link's shelf has taken. -/
def workBox : State := (netBox (pkt 1 9) none).modLink 5 (fun k => { k with rxFifo := [{ vc := 0, pkt := pkt 1 9, eng := some 0 }] })

theorem test_inboundGlaze : (netBox (pkt 1 9) none).wantsGlaze { vc := 0, pkt := pkt 1 9 } = true ∧ (netBox (pkt 1 9) none).shelfActive 1 = true ∧
    (netBox (pkt 1 9) none).startWaiting 1 = none ∧
    after (exec (.glazeDispatch 1) (netBox (pkt 1 9) none)) (fun u => decide ((u.link 5).rxFifo.map (fun x => x.eng) = [some 0])) = true ∧
    after (exec (.inboundGlaze 5) workBox) (fun u => decide ((u.link 5).rxFifo.map (fun x => (x.pkt, x.glazed, x.eng)) =
      [(pkt 1 9, some (openPlain (pkt 1 9) []), none)])) = true := by
  decide +kernel

/-- Engine 5 free at 60 s, and in a test that began 4 us ago. -/
def testBox (x : Engine) : State := wrReg { glBox key0 (fun h => { h with engines := [(5, x)] }) with devtime := 60000000000 } (.shGlstat 0) (place 63 58 63)

theorem test_selfTest : (lastDue 60000000000 5).isSome = true ∧ (testBox {}).engineFree 0 5 = true ∧ (testBox {}).noTest 0 = true ∧
    after (exec (.glazeSelfTest 0 5) (testBox {})) (fun u => decide ((u.engine 0 5).testAt = some 60000000000)) = true ∧
    after (exec (.glazeTestDone 0 5 true) (testBox { testAt := some 59999996000 })) (fun u => decide (getF u (.shGlstat 0) 31 0 = 1)) = true ∧
    after (exec (.glazeTestDone 0 5 false) (testBox { testAt := some 59999996000 })) (fun u => decide (getB u (.shGlstat 0) (passBit 5) = false)) = true := by
  decide +kernel

def keyBox : State := { sysBox with shelves := [(0, { phase := .active, homeKeys := [(2, key0)] })] }

theorem test_keyCommands : keyBox.keyCopy 2 = some key0 ∧ keyBox.keyGrant 2 = false ∧
    after (exec (.keyLoad .warden (place 63 60 1 ||| 2)) keyBox) (fun u => decide ((u.keyCmd.map (·.slot)) = some 2 ∧ getB u .glKeystat 63 = true)) = true ∧
    gives (exec (.keyErase .warden (place 63 60 2 ||| 2)) keyBox) ((keyBox.keyStore 2 {}).keyDone 2 0) = true ∧
    gives (exec (.keyErase .debugger (place 63 60 2 ||| 2)) keyBox) ((keyBox.keyDone 2 1).violate .debugger true 0x500) = true ∧
    gives (exec (.keyLoad .warden (place 63 60 1 ||| 0xFFFF)) keyBox) (keyBox.keyDone 0xFFFF 4) = true ∧
    after (exec (.keyQuery .warden (place 63 60 3 ||| 2)) keyBox) (fun u => decide (getB u .glKeyattr 63 = true ∧ getF u .glKeyattr 39 20 = 0x123)) = true ∧
    gives (exec (.keyErase .warden (place 63 60 2 ||| 2)) (setB keyBox .glWipe 63 true)) ((setB keyBox .glWipe 63 true).keyDone 2 1) = true := by decide +kernel

/-- The record of a link key with FLOOR 50, loaded over one with FLOOR 100. -/
def rec0 : List Byte := List.replicate 32 5 ++ List.replicate 40 0 ++ wordBytes (place 59 40 4 ||| place 39 20 0x123) ++ wordBytes 50 ++ List.replicate 40 0

theorem test_keyRecord : rec0.length = 128 ∧ recordOk false rec0 = true ∧ (slotOf (slice rec0 0 64) rec0 key0).floor = 100 ∧
    after (exec (.keyRecordFetched rec0) { keyBox with keyCmd := some { slot := 2, kek := 0, wrap := false, warden := true } }) (fun u => decide
      (u.keyCopy 2 = some (slotOf (slice rec0 0 64) rec0 key0))) = true ∧
    after (exec (.keyFillDone 0 2) (keyBox.modShelf 0 (fun h => { h with
      keyMiss := [(2, false)]
      transportKey := some 1 }))) (fun u => decide ((u.shelf 0).keyCache = [(2, key0)] ∧ (u.shelf 0).keyMiss = [])) = true := by decide +kernel

/-! ## Fault tolerance and shelf memory -/

/-- Shelf 0 PAIRED with a persistence window of 256 instructions; core 0 ran `c` instructions since its last retry. -/
def ftBox (c : Option Nat) : State := (setF sysBox (.shFtcfg 0) 63 56 1).modCore 0 (fun d => { d with sinceRetry := c })

def counted (c : Option Nat) (hi lo : Nat) : State := bumpF (ftBox c) (.shFtstat 0) hi lo 1

/-- A parity error of core 0 has been counted at this ic. -/
def marked (c : Option Nat) : State := (counted c 31 16).modShelf 0 (fun h => { h with parityAt := tset none h.parityAt 0 (some 0) })

theorem meets_faults : (ftBox none).paired 0 = true ∧ (ftBox none).slotOff 0 0 = false ∧ (counted (some 256) 47 32).persistent 0 = false ∧
    (counted (some 255) 47 32).persistent 0 = true ∧ (ftBox none).slotOf 0 0 = some 0 ∧ ((ftBox none).core 0).run = some 0 := by decide +kernel

theorem test_coreFaults :
    gives (exec (.pairMismatch 0 0) (ftBox none)) ((counted none 47 32).retryCore 0) &&
    gives (exec (.pairLag 0 0) (ftBox (some 256))) ((counted (some 256) 47 32).retryCore 0) &&
    gives (exec (.pairMismatch 0 0) (ftBox (some 255))) ((counted (some 255) 47 32).spareSlot 0 ((counted (some 255) 47 32).leaver 0 0).1
      ((counted (some 255) 47 32).leaver 0 0).2 1) &&
    gives (exec (.parityError 0 0 .checkpoint) (ftBox none)) ((marked none).spareSlot 0 0 0 3) &&
    gives (exec (.parityError 0 0 (.icache 5 2)) (ftBox none)) (((marked none).modCore 0 (fun c => c.invalidate (.icache 5 2))).retryCore 0) &&
    gives (exec (.parityError 63 16 (.hostWrite 15)) sysBox) (sysBox.modPort 15 (fun x => { x with parity := true })) &&
    gives (exec (.pairMismatch 0 0) (marked none)) (marked none) &&
    gives (exec (.coreReset c0) ((ftBox none).modCore 0 (fun c => { c with resetDue := true })))
      (((ftBox none).modCore 0 (fun c => { c with resetDue := true })).spareSlot 0 0 0 4) = true := by decide +kernel

theorem test_coretestDone :
    gives (exec (.coretestDone 0 16 true) (sysBox.modShelf 0 (fun h => { h with coreTest := [16] })) ) (sysBox.setSpare 0 16) &&
    gives (exec (.coretestDone 0 16 false) (sysBox.modShelf 0 (fun h => { h with coreTest := [16] }))) (setB sysBox (.shCorestat 0) 58 true) = true := by
  decide +kernel

theorem test_dupMismatch :
    gives (exec (.dupMismatch (.shelfSteward 0)) sysBox) (sysBox.retireShelf 0) &&
    after (exec (.dupMismatch (.groupSteward 7)) sysBox) (fun u => decide (u.power.groupPassed = 0x80 ∧ u.retired = 0)) &&
    gives (exec (.dupMismatch (.grantChecker 15)) sysBox) ((sysBox.modPort 15 (fun x => { x with grantBroken := true })).reaction (portShelf 15) 2 (rdReg sysBox (.hpStat 15))) &&
    gives (exec (.dupMismatch (.damper 255)) sysBox) ((sysBox.modLink 255 (fun x => { x with damperBroken := true })).reaction 63 2 (rdReg sysBox (.lkDamp 255))) = true := by
  decide +kernel

/-- A hand-over of shelf 0 since time 0, DRAINTO 50 us, now 50 us later, whose contexts are held. -/
def handBox (split : Bool) : State := setB (setF { sysBox with
  shelves := [(0, { phase := .active, handover := some { split := split, since := 0 } })]
  cores := []
  ctxs := []
  devtime := 50000 } (.shPaircfg 0) 55 40 50) (.shPaircfg 0) 60 true

theorem meets_handover : (handBox true).holdShelf 0 = handBox true ∧ (handBox true).allHeld 0 = true ∧ ((handBox true).shelf 0).detWaiting = false := by
  decide +kernel

theorem test_handover :
    after (exec (.draintoExpiry 0) (handBox true)) (fun u => decide ((u.shelf 0).handover = some { split := true, since := 0, drained := true })) &&
    after (exec (.pairHandoverSwitch 0) (handBox true)) (fun u => decide (getB u (.shPaircfg 0) 56 = true ∧ (u.shelf 0).handover = none)) &&
    after (exec (.pairHandoverSwitch 0) (setB (handBox false) (.shPaircfg 0) 56 true)) (fun u => decide (getB u (.shPaircfg 0) 56 = false)) &&
    after (exec (.handoverTimeout 0) (handBox true)) (fun u => decide ((u.shelf 0).handover = none ∧ getB u (.shPaircfg 0) 61 = true ∧
      getB u (.shPaircfg 0) 60 = false ∧ getB u (.shPaircfg 0) 56 = false)) = true := by decide +kernel

/-- The last words of shelf 0's memory: a corrected error, and one in a word that reads as uncorrectable. -/
theorem test_eccRewrite :
    gives (exec (.eccRewrite 0 ⟨2097151, .corrected⟩) sysBox) ((setF (bumpF sysBox (.shEcc 0) 63 48 1) (.shEcc 0) 20 0 2097144).raise 0 17) &&
    gives (exec (.eccRewrite 0 ⟨8, .corrected⟩) { sysBox with bad := [(1, true)] }) { sysBox with bad := [(1, true)] } &&
    gives (exec (.eccRewrite 0 ⟨0xC0019, .word⟩) sysBox) (sysBox.spoil 0xC0018 8) && gives (exec (.eccRewrite 0 ⟨0xC0019, .granule⟩) sysBox) (sysBox.spoil 0xC0010 16) &&
    gives (exec (.eccRewrite 0 ⟨8, .word⟩) sysBox) ((sysBox.eccUnc 8).otherCopy 0 8) && (inGeneral 0xC0000 && !inGeneral 0xBFFF8) = true := by decide +kernel

/-- Wedging of shelf 0 is on and has reached region `r`; a step began at time 0. -/
def wedgeBox (r : Nat) (w : Option WedgeStep) : State := (setF (setB { sysBox with devtime := 100000 } (.shWedge 0) 63 true) (.shWedge 0) 13 0 r).modShelf 0
  (fun h => { h with wedge := w })

theorem meets_wedge : ((wedgeBox 7232 none).shelf 0).freeSpares (7232 / 512) = [112, 113, 114, 115, 116, 117, 118, 119] ∧ (wedgeBox 7232 none).icNs 0 384 ≤ 100000 := by decide +kernel

/-- Row 7,232 lies in bank 14, and its first failure takes spare row 0 of that bank. -/
theorem test_wedge :
    after (exec (.wedgeStep 0) (wedgeBox 7232 none)) (fun u => decide (((u.shelf 0).wedge.map (·.region)) = some 7232)) &&
    after (exec (.wedgeStepEnd 0 false) (wedgeBox 8319 (some { region := 8319, since := 0 }))) (fun u => decide ((u.shelf 0).wedge = none ∧ getF u (.shWedge 0) 13 0 = 0)) &&
    gives (exec (.wedgeStepEnd 0 true) (wedgeBox 7232 (some { region := 7232, since := 0 })))
      ((((wedgeBox 7232 none).takeSpare 0 112 7232).raise 0 20).wedgeAdvance 0) = true := by decide +kernel

theorem test_wipe :
    gives (exec .tamper keyBox) ((keyBox.startWipe 1).wipeEnds) && decide (((keyBox.startWipe 1).shelf 0).homeKeys = []) &&
    after (exec (.wipeDone 0 true) (sysBox.modShelf 0 (fun h => { h with wiping := some 2 }))) (fun u => decide ((u.shelf 0).wiping = none)) &&
    after (exec (.wipeDone 0 false) (sysBox.modShelf 0 (fun h => { h with wiping := some 1 }))) (fun u => decide ((u.shelf 0).wiping = some 2)) &&
    after (exec (.wipeDone 0 false) (sysBox.modShelf 0 (fun h => { h with wiping := some 2 }))) (fun u => decide (u.isRetired 0 = true)) = true := by decide +kernel

/-! ## Clocks, power, start-up -/

/-- The island of shelf 0 at a target of 1,600 MHz. -/
def clkBox : State := setF sysBox (.shClk 0) 63 52 1600

theorem test_frequency : clkBox.islandOn (.shelf 0) = true ∧ freqBad 1601 1600 0 = false ∧ freqBad 2001 1600 0 = true ∧
    after (exec (.frequencyLoopWindow (.shelf 0) 1601) clkBox) (fun u => decide (getF u (.shClk 0) 51 40 = 1601 ∧ getF u (.shClk 0) 27 20 = 1)) = true ∧
    after (exec (.frequencyLoopWindow (.shelf 0) 2001) { clkBox with power := { clkBox.power with badWindows := [(0, 15)] } }) (fun u => decide (u.isRetired 0 = true)) = true ∧
    gives (exec (.frequencyLoopWindow (.shelf 0) 1601) { clkBox with power := { clkBox.power with refLost := true } })
      { clkBox with power := { clkBox.power with refLost := true } } = true := by decide +kernel

/-- A request of domain 9 for code 10 asks for code 20; its answer is late. -/
def busyBox : State := { sysBox with
  power := { block := .hostReady, pen := 0x3FF, pgd := 0x3FF, vstb := 0x200, vreq := [(9, 20)] }
  devtime := 100000 }

theorem test_voltage : clampCode 9 10 = 20 ∧ clampCode 8 127 = 60 ∧ sysBox.vBusy 9 = false ∧ busyBox.vBusy 9 = true ∧
    after (exec (.voltageRequest 9 10) sysBox) (fun u => decide (u.outbox = [.vreq 9 20 true] ∧ u.vBusy 9 = true)) = true ∧
    after (exec (.voltageAck 9) busyBox) (fun u => decide (u.vBusy 9 = false)) = true ∧
    after (exec (.voltageAckTimeout 9) busyBox) (fun u => decide (u.outbox = [.vreq 9 20 true] ∧ getF u .glTscfg 47 32 = 1)) = true := by decide +kernel

def sample (p : Nat) (t : Int) : LimiterSample := { power := p, temp := t, tempNorth := 800, tempSouth := 840 }

theorem test_limiter : sysBox.powerCeiling = 800 ∧
    gives (exec (.limiterSample 0 (sample 101 800)) sysBox) ((setB (setB sysBox .glLimstat 40 true) .glLimstat 48 false).limTighten 0) = true ∧
    gives (exec (.limiterSample 0 (sample 100 841)) sysBox) ((setB (setB sysBox .glLimstat 40 false) .glLimstat 48 true).limTighten 0) = true ∧
    gives (exec (.limiterSample 0 (sample 94 799)) sysBox) ((setB (setB sysBox .glLimstat 40 false) .glLimstat 48 false).limEase 0) = true ∧
    gives (exec (.limiterSample 0 (sample 100 840)) sysBox) (setB (setB sysBox .glLimstat 40 false) .glLimstat 48 false) = true := by decide +kernel

theorem test_trip : after (exec (.thermalTrip 87 1000) sysBox) (fun u => decide (u.power.block = .poweredDown ∧ u.power.thermtrip = true ∧ u.power.pen = 0 ∧
      u.mem = [] ∧ u.outbox.head? = some (.thermtrip true))) &&
    gives (exec (.thermalTrip 87 999) sysBox) sysBox = true := by decide +kernel

/-- TSYNC_IN 999 ns and 1 us after the last one. -/
def tsBox (t : Nat) : State := setF { sysBox with
  power := { sysBox.power with tsyncAt := some 1000 }
  devtime := BitVec.ofNat 64 t } .glTscfg 19 0 2

theorem test_tsync : gives (exec .tsyncIn (tsBox 1999)) (tsBox 1999) && after (exec .tsyncIn (tsBox 2000)) (fun u => decide (rdReg u .glTscap = 2000)) &&
    gives (exec .tsyncOutPeriod (tsBox 4000)) ((tsBox 4000).emit (.tsyncOut true)) && gives (exec .tsyncOutPeriod sysBox) sysBox &&
    after (exec .refclkLost sysBox) (fun u => u.power.refLost) && after (exec .refclkRestored sysBox) (fun u => !u.power.refLost) = true := by decide +kernel

/-- A shelf that has asked to be gated, and a gated one with a wake armed. -/
def gateBox (p : Phase) : State := setF { sysBox with
  shelves := [(0, { phase := p, idleAsked := p == .active, wakeArmed := p == .gated })]
  cores := []
  ctxs := [] } (.shPwr 0) 47 32 65535

theorem meets_gating : (gateBox .active).shelfIdle 0 = true ∧ (gateBox .active).coresQuiet 0 = true ∧ (gateBox .active).unitsQuiet 0 = true ∧
    (gateBox .gated).wakeDue 0 = false := by decide +kernel

theorem test_gating :
    after (exec (.shelfGate 0) (gateBox .active)) (fun u => decide ((u.shelf 0).phase = .gated ∧ getF u (.shPwr 0) 47 32 = 0)) &&
    after (exec (.shelfWake ⟨0, true⟩) (gateBox .gated)) (fun u => decide ((u.shelf 0).phase = .active ∧ (u.shelf 0).wakeArmed = false)) &&
    gives (exec (.shelfWake ⟨0, false⟩) (gateBox .gated)) ((gateBox .gated).resetShelf 0) &&
    gives (exec (.shelfWake ⟨0, true⟩) ((gateBox .gated).modShelf 0 (fun h => { h with wakeArmed := false }))) ((gateBox .gated).modShelf 0 (fun h => { h with wakeArmed := false })) &&
    gives (exec (.shelfGate 0) sysBox) sysBox = true := by decide +kernel

theorem test_starts :
    after (exec .coldStart State.reset) (fun u => decide (u.power.block = .inReset ∧ u.power.pen = 0x300 ∧ u.power.pgd = 0 ∧ u.mem = [])) &&
    gives (exec .coldStart sysBox) sysBox && gives (exec .coldReset sysBox) (sysBox.coldReset .inReset) && gives (exec .pwrgdFall sysBox) (sysBox.coldReset .unpowered) &&
    after (exec .warmReset sysBox) (fun u => decide (u.power.block = .inReset ∧ u.power.warm = true ∧ u.ctxs = [] ∧ getF u .glBootstat 59 58 = 1 ∧
      (u.shelf 0).phase = .reset)) = true := by decide +kernel

def powBox (pen pgd : BitVec 10) : State := { State.reset with
  power := { pen := pen, pgd := pgd }
  devtime := 500000 }

theorem test_domains :
    after (exec (.pgdRise 6) (powBox 0x340 0x300)) (fun u => decide (u.power.pgd = 0x340 ∧ u.power.pen = 0x3C0)) &&
    after (exec (.pgdRise 8) (powBox 0x300 0x200)) (fun u => decide (u.power.pgd = 0x300 ∧ u.power.pen = 0x301)) &&
    after (exec (.pgdRise 9) (powBox 0x300 0x100)) (fun u => decide (u.power.pgd = 0x300 ∧ u.power.pen = 0x301)) &&
    gives (exec (.pgdTimeout 7) (powBox 0x380 0x300)) (((powBox 0x380 0x300).retireGroup 7).nextPen 7) &&
    gives (exec (.pgdFall 7) (powBox 0x380 0x380)) ((powBox 0x380 0x300).retireGroup 7) &&
    gives (exec (.pgdFall 8) (powBox 0x380 0x380)) ((powBox 0x380 0x280).coldReset .inReset) = true := by decide +kernel

/-- A shelf that waits for its test, and the test's result. -/
def startBox (started : Bool) : State := { sysBox with shelves := [(0, { started := started })] }
def pass0 : StartupResult := { coresPass := 0x1FFFF, cryptoPass := 15, compPass := 3, routerOk := true, clockOk := true, saggarOk := true, failRows := [] }

theorem meets_startup : (startBox false).inTest 0 = true ∧ (startBox true).inTest 0 = true ∧ ((startBox false).applyTest 0 pass0).testFatal 0 pass0 = false ∧
    ((startBox false).applyTest 0 { pass0 with routerOk := false }).testFatal 0 { pass0 with routerOk := false } = true ∧
    sysBox.shelfActive (buddy 0) = false ∧ sysBox.isRetired (buddy 0) = false := by decide +kernel

theorem test_shelfStart :
    after (exec (.shelfStartupTestDone 0 pass0) (startBox false)) (fun u => decide ((u.shelf 0).phase = .active ∧ (u.shelf 0).started = true)) &&
    after (exec (.shelfStartupTestDone 0 { pass0 with routerOk := false }) (startBox false)) (fun u => decide (u.isRetired 0 = true)) &&
    after (exec (.shelfResetDone 0 pass0) (startBox true)) (fun u => decide ((u.shelf 0).phase = .active)) &&
    after (exec (.shelfResetDone 0 { pass0 with saggarOk := false }) (startBox true)) (fun u => decide (u.isRetired 0 = true)) = true := by decide +kernel

theorem test_shelfReset :
    after (exec (.shelfReset .warden 0 (bitIf 61 true)) keyBox) (fun u => decide ((u.shelf 0).phase = .reset ∧ (u.shelf 0).homeKeys = (keyBox.shelf 0).homeKeys ∧
      u.ctx 0 0 = {} ∧ getF u (.shPwr 0) 31 16 = 1)) &&
    after (exec (.rtgo .warden 0 (bitIf 60 true)) { sysBox with ctxs := [] }) (fun u => decide ((u.ctx 0 0).st = .ready ∧ (u.ctx 0 0).pc = 0x1E0000)) = true := by
  decide +kernel

/-! ## Host ports -/

def lineA : List Byte := List.replicate 64 7

/-- Port 0 with lines A and B, a line that is being written back, a fill of line 12, an eviction, a write and a raise outstanding. -/
def fill12 : HostReq := { op := .acqShare, line := 12, se := false, who := .store 0, data := [], be := 0 }
def evict13 : HostReq := { op := .evictDirty, line := 13, se := false, who := .evict, data := lineA, be := BitVec.allOnes 64 }
def put14 : HostReq := { op := .putLine, line := 14, se := false, who := .ledger 0 resyncId, data := lineA, be := BitVec.allOnes 64 }
def raise11 : HostReq := { op := .acqRaise, line := 11, se := false, who := .payload 0 0, data := [], be := 0 }
def through15 : HostReq := { op := .readThrough, line := 15, se := true, who := .debugger, data := [], be := 0, off := 8 }
def hostPort : Port := {
  lines := [(10, { st := .M, data := lineA }), (11, { st := .E, data := lineA })]
  wbuf := [(13, lineA)]
  reqs := [(1, fill12), (2, evict13), (3, put14), (4, raise11), (5, through15)] }

def hostBox : State := { sysBox with ports := [(0, hostPort)] }

theorem meets_recalls : (hostBox.port 0).holdsRecall 12 = true ∧ (∀ a ∈ [10, 11, 13, 16], (hostBox.port 0).holdsRecall a = false) ∧
    lineDirty .M = true ∧ lineDirty .E = false := by decide +kernel

theorem test_recalls :
    gives (exec (.recallOwn 0 12 9) hostBox) (hostBox.setPort 0 { hostPort with heldRecalls := [{ line := 12, own := true, rctag := 9 }] }) &&
    after (exec (.recallOwn 0 10 9) hostBox) (fun u => decide ((u.port 0).lineSt 10 = .I ∧ (u.port 0).outq = [.datRecall 9 lineA true false false])) &&
    after (exec (.recallShare 0 10 9) hostBox) (fun u => decide ((u.port 0).lineSt 10 = .O ∧ (u.port 0).outq = [.datRecall 9 lineA true true false])) &&
    after (exec (.recallOwn 0 11 9) hostBox) (fun u => decide ((u.port 0).lineSt 11 = .I ∧ (u.port 0).outq = [.ansNone 9])) &&
    after (exec (.recallShare 0 11 9) hostBox) (fun u => decide ((u.port 0).lineSt 11 = .S ∧ (u.port 0).outq = [.ansKept 9])) &&
    gives (exec (.recallOwn 0 13 9) hostBox) ((bumpF hostBox (.hpCnt 0) 31 16 1).sendMsg 0 (.datRecall 9 lineA true false true)) &&
    gives (exec (.recallShare 0 16 9) hostBox) (hostBox.sendMsg 0 (.ansNone 9)) &&
    gives (exec (.recallShare 0 16 9) State.reset) (State.reset.emit (.host 0 (.ansNone 9))) = true := by decide +kernel

theorem test_hostAnswers :
    gives (exec (.ansDone 0 3 .I 0) hostBox) ((hostBox.dropReq 0 3).kickPort 0) &&
    after (exec (.ansDone 0 4 .E 0) hostBox) (fun u => decide ((u.port 0).lineSt 11 = .E ∧ (u.port 0).reqs.length = 4)) &&
    gives (exec (.ansDone 0 4 .E 2) hostBox) (((bumpF (hostBox.dropReq 0 4) (.hpCnt 0) 47 32 1).fillFailed raise11 3).kickPort 0) &&
    after (exec (.ansEvict 0 2) hostBox) (fun u => decide ((u.port 0).wbuf = [] ∧ (u.port 0).reqs.length = 4)) &&
    after (exec (.datFill 0 1 .E 0 false lineA) hostBox) (fun u => decide ((u.port 0).lineSt 12 = .E ∧ (u.port 0).reqs.length = 4)) &&
    gives (exec (.ansDone 0 6 .E 0) hostBox) hostBox &&
    gives (exec (.homeReservedOpcode 0 0x23) hostBox) (bumpF hostBox (.hpCnt 0) 15 0 1) &&
    after (exec (.creditGrant 0 .rspo) (hostBox.sendMsg 0 (.ansNone 9))) (fun u => decide ((u.port 0).outq = [] ∧ u.outbox = [.host 0 (.ansNone 9)])) = true := by
  decide +kernel

theorem meets_readThrough : hostBox.hpmapNew = none ∧ alook 5 hostPort.reqs = some through15 ∧
    through15.op = .readThrough ∧ homeOpcode 0x23 = false := by decide +kernel

/-- Grant entry 2^24 - 1 is being fetched; GL_HPMAP is being changed; GL_GRINV is BUSY; the flush of port 0 has nothing left. -/
def mapBox (l : List (Nat × HostReq)) : State := setB (wrReg { sysBox with
  ports := [(0, { grantFetch := [16777215], reqs := l })]
  hpmapNew := some 5
  hpmapReply := [(3, 1)] } .glGrinv (bitIf 62 true ||| 16777215)) (.hpCtl 0) 62 true

def grantUser : HostReq := { op := .putLine, line := 14, se := false, who := .payload 0 0, data := lineA, be := BitVec.allOnes 64, grant := some 16777215 }

theorem meets_maps : (mapBox []).portsIdle = true ∧ (mapBox [(1, grantUser)]).portsIdle = false ∧ (mapBox []).usesGrant 16777215 = false ∧
    (mapBox [(1, grantUser)]).usesGrant 16777215 = true ∧ getF (mapBox []) .glGrinv 23 0 = 16777215 := by decide +kernel

theorem test_maps :
    after (exec (.grantFetchDone 0 16777215 [1, 2, 3, 4]) (mapBox [])) (fun u => decide ((u.port 0).grants = [(16777215, [1, 2, 3, 4])] ∧ (u.port 0).grantFetch = [])) &&
    after (exec .glHpmapDone (mapBox [])) (fun u => decide (rdReg u .glHpmap = 5 ∧ u.hpmapNew = none)) &&
    gives (exec .glHpmapDone (mapBox [(1, grantUser)])) (mapBox [(1, grantUser)]) &&
    after (exec .glGrinvDone (mapBox [])) (fun u => decide (rdReg u .glGrinv = 0)) &&
    gives (exec .glGrinvDone (mapBox [(1, grantUser)])) (mapBox [(1, grantUser)]) &&
    after (exec (.portCacheFlushDone 0) (mapBox [])) (fun u => decide (getB u (.hpCtl 0) 62 = false)) &&
    gives (exec (.portCacheFlushDone 0) ((mapBox []).modPort 0 (fun x => { x with flushLeft := [10] }))) ((mapBox []).modPort 0 (fun x => { x with flushLeft := [10] })) = true := by
  decide +kernel

/-! ## The warden and its management -/

/-- The second expiry of the watchdog is 100 ms old; the image has run 2 s in trial. -/
def wdBox (level : Nat) (now : Nat) : State := setB { (sysBox.modCore wardenKey (fun c => { c with wexp := true, wexpAt := some 5 })) with
  vexek := { level := level }
  warden := { st := .running, entered := some 0 }
  devtime := BitVec.ofNat 64 now } .wdBoot 61 true

theorem test_wardenTimers :
    after (exec .wardenWdogReset (wdBox 2 100000005)) (fun u => decide (u.warden.st = .reset ∧ getF u .wdBoot 47 32 = 1)) &&
    after (exec .wardenWdogReset (wdBox 3 100000005)) (fun u => decide (u.warden.st = .running ∧ u.vexek.wdLogOnly = true)) &&
    after (exec .bootTrialTimeout (wdBox 2 2000000000)) (fun u => decide (u.warden.st = .reset ∧ u.warden.trialFailed = some false)) &&
    gives (exec .bootTrialTimeout (wdBox 2 1999999999)) (wdBox 2 1999999999) = true := by decide +kernel

/-- A header that is well formed, of an image without a body. -/
def hdr0 (kind gen : Nat) : List Byte := leBytes 4 0x57444E4F ++ leBytes 2 1 ++ leBytes 2 kind ++ leBytes 4 0 ++ leBytes 4 gen ++ leBytes 8 0 ++
  leBytes 2 0x0CE1 ++ List.replicate 230 0

/-- The warden island has been reset with no image in the NOR, the SRAM domain up. -/
def bootBox (a b : FwImage) : State := { State.reset with
  power := { pgd := 0x200 }
  warden := { norA := a, norB := b } }

theorem meets_boot : ({ hdr := hdr0 1 3 } : FwImage).wellFormed 1 = true ∧ (bootBox { hdr := hdr0 1 3 } { hdr := hdr0 1 4 }).warden.firstSlot = true ∧
    (bootBox { hdr := hdr0 1 4 } { hdr := hdr0 1 4 }).warden.firstSlot = false ∧ (bootBox {} {}).warden.trialFailed = none := by decide +kernel

theorem test_boot :
    gives (exec .wardenReset (bootBox {} {})) (bootBox {} {}).enterRecovery &&
    decide ((bootBox {} {}).enterRecovery.warden.st = .recovery) &&
    after (exec (.recovery []) (setB (bootBox {} {}).enterRecovery .wdMbstat 60 true)) (fun u => decide (u.warden.st = .recovery ∧ getB u .wdMbstat 60 = false)) &&
    gives (exec (.recovery []) fwBox) (fwBox.fwReply 4 3 [0]) &&
    gives (exec (.recovery []) sysBox) sysBox = true := by decide +kernel

/-- Sensor 87 has read ok; a request waits for its answer. -/
def sensBox : State := { sysBox with
  warden := { st := .running, snap := [(87, { time := 0, st := 0, aux := 0, value := 1 })], waiting := [{ binding := .i3c, at_ := 5, spdm := true }] } }

theorem meets_sensor : sensorUsed 87 = true ∧ sensorUsed 88 = false ∧ sensBox.sensorOff 87 = false ∧ sensBox.sensorOff 63 = true ∧
    (tget {} sensBox.warden.snap 87).st ≠ 3 ∧ sensBox.warden.evReceiver = none := by decide +kernel

theorem test_wardenEvents :
    decide ((tget {} (sensBox.takeReading { sensor := 63, value := 9, aux := 9 }).warden.snap 63).st = 3) &&
    gives (exec (.sensorSample []) { sysBox with power := { block := .poweredDown } }) { sysBox with power := { block := .poweredDown } } &&
    gives (exec .responderTimeout { sensBox with devtime := 10000005 })
      ((({ sensBox with devtime := 10000005 } : State).modWarden (fun x => { x with waiting := [] })).mgmtReply .i3c (busyReply true)) &&
    gives (exec .responderTimeout { sensBox with devtime := 10000004 }) { sensBox with devtime := 10000004 } &&
    after (exec (.entdaa 0x51) sysBox) (fun u => decide (u.warden.dynAddr = some 0x51)) &&
    gives (exec .spiTransferComplete sysBox) (sysBox.wsrc 23 EvSrc.pulse) &&
    gives (exec (.mctpUnsupported .i3c 6) sysBox) sysBox = true := by decide +kernel

theorem meets_lcreq : sysBox.wardenUp = true ∧ sysBox.lcAllowed 1 = true ∧ sysBox.lcAllowed 2 = false ∧ sysBox.lcAllowed 3 = true ∧ fwBox.fwAsked = true ∧ fwBox.wardenUp = true ∧
    ({ sysBox with fuses := { lc := 2, returns := 15 } } : State).lcAllowed 1 = false ∧ sysBox.warden.shadowLc = none := by decide +kernel

/-- The I3C queue holds four requests, or three. -/
def mgmtBox (n : Nat) : State := { sysBox with warden := { st := .running, waiting := List.replicate n { binding := .i3c, at_ := 0, spdm := false } } }

theorem test_mgmt :
    gives (exec (.getTid .i3c true) (mgmtBox 4)) ((mgmtBox 4).mgmtReply .i3c (busyReply false)) &&
    after (exec (.getVersion .hostMailbox false) (setB State.reset .wdMbstat 61 true)) (fun u => decide (u.outbox = [.mgmt .hostMailbox { busy := true }])) &&
    gives (exec (.getVersion .hostMailbox false) State.reset) State.reset &&
    after (exec (.getTid .i3c true) (mgmtBox 3)) (fun u => decide (u.outbox = [.mgmt .i3c { data := [1] }])) &&
    after (exec (.getTid .i3c false) (mgmtBox 3)) (fun u => decide (u.warden.waiting.length = 4 ∧ u.outbox = [])) &&
    after (exec (.setEndpointId .hostMailbox true 9) (setB sysBox .wdMbstat 61 true)) (fun u => decide (u.warden.eid = 9)) &&
    after (exec (.requestUpdate .i3c true) sysBox) (fun u => decide (u.warden.upd = .learn)) &&
    after (exec (.requestUpdate .i3c true) (sysBox.modWarden (fun w => { w with upd := .learn }))) (fun u => decide (u.outbox = [.mgmt .i3c { code := 1 }])) &&
    after (exec (.getMeasurements .i3c true 1) sysBox) (fun u => decide (u.outbox = [.mgmt .i3c { code := 4 }])) &&
    after (exec (.getSensorReading .i3c 87) sensBox) (fun u => decide (u.outbox = [.mgmt .i3c { data := [0, 1] }])) &&
    after (exec (.getPdr .i3c true (sensorList.length + 64)) sysBox) (fun u => decide (u.outbox = [.mgmt .i3c { data := [1, 64] }])) = true := by decide +kernel

/-! ## The Vexek port -/

theorem meets_sessions : (∀ op, op ≤ 4 → Stated.granted sysBox .debugger .vxSess (place 63 60 op)) ∧ sysBox.fuses.lc = 0 ∧ sysBox.vexek.lockUntil = none ∧
    sysBox.vexek.pwd1 ++ sysBox.vexek.pwd0 = sysBox.fuses.pwd ∧
    issuerOk sysBox.fuses.lc (credIssuer (sysBox.sbufBytes 0 256)) (credSerial (sysBox.sbufBytes 0 256)) sysBox.fuses.serial = false ∧
    issuerOk 1 0 0 0 = true ∧ issuerOk 2 0 5 6 = false ∧ issuerOk 2 0 5 5 = true := by
  refine ⟨fun op h => ?_, by decide +kernel⟩
  have : ∀ op : Fin 5, Stated.granted sysBox .debugger .vxSess (place 63 60 op.val) := by
    unfold Stated.granted
    decide +kernel
  exact this ⟨op, by omega⟩

def failBox (n : Nat) (pwd : Word) (lc : BitVec 2) : State := { sysBox with
  vexek := { fails := n, pwd0 := pwd }
  fuses := { lc := lc } }

theorem test_sessions :
    after (exec .openPwd (failBox 3 0 0)) (fun u => decide (u.vexek.level = 3 ∧ u.vexek.fails = 0)) &&
    after (exec .openPwd (failBox 6 1 0)) (fun u => decide (u.vexek.level = 0 ∧ u.vexek.fails = 7 ∧ getB u .vxStat 61 = true ∧ u.vexek.lockUntil = none)) &&
    after (exec .openPwd (failBox 7 1 0)) (fun u => decide (u.vexek.fails = 0 ∧ u.vexek.lockUntil = some 10000000000)) &&
    gives (exec .openPwd (failBox 3 0 1)) (setB (failBox 3 0 1) .vxStat 61 true) &&
    gives (exec .openCred (failBox 3 0 1)) (failBox 3 0 1).authFail &&
    after (exec .close sysBox) (fun u => decide (u.vexek.level = 0 ∧ u.vexek.shelves = 0)) &&
    gives (exec .vxLockExpiry { sysBox with vexek := { lockUntil := some 0 } }) { sysBox with vexek := {} } = true := by decide +kernel

/-- Core 0 is selected; it is halted, or runs and belongs to halt group 15. -/
def dbgBox (h : Bool) : State := (setF sysBox (.vxShtrg 0) 3 0 15).modCore 0 (fun c => { c with halted := h })

theorem meets_runControl : (dbgBox false).selCore = 0 ∧ (dbgBox true).selScope = true ∧
    Stated.granted (dbgBox true) .debugger .vxStdata 5 ∧ Stated.granted (dbgBox true) .debugger .vxMdata 5 ∧ Stated.granted (dbgBox true) .debugger .vxQuar 5 ∧
    Stated.granted (dbgBox true) .debugger .vxRun (bitIf 63 true) ∧ (dbgBox true).groupCores (bitIf 63 true) = [] ∧
    (dbgBox false).haltable 0 = true ∧ (dbgBox false).groupCores 0x8000 = [0] ∧ Stated.granted (dbgBox false) .debugger .vxHalt 0x8000 ∧ ((dbgBox true).core 0).halted = true := by
  unfold Stated.granted
  decide +kernel

/-- Core 0 has been asked to halt, and has no store out. -/
def askBox : State := sysBox.modCore 0 (fun c => { c with haltReq := true })

theorem test_runControl :
    after (exec (.vxHalt 0x8000) (dbgBox false)) (fun u => decide ((u.core 0).haltReq = true ∧ (u.core 0).halted = false)) &&
    after (exec (.vxRun 0x8000) (dbgBox true)) (fun u => decide ((u.core 0).halted = false)) &&
    after (exec (.coreHalted c0) askBox) (fun u => decide ((u.core 0).halted = true ∧ (u.core 0).haltReq = false)) &&
    after (exec (.vxStep 0) (dbgBox true)) (fun u => decide ((u.core 0).halted = false ∧ (u.core 0).step = true)) &&
    gives (exec (.vxStateWrite 5) (dbgBox false)) (setB (dbgBox false) .vxStat 62 true) &&
    after (exec (.vxStateWrite 5) (dbgBox true)) (fun u => decide (u.vexek.stWrites = [(0, 0, 0, 5)])) &&
    gives (exec (.vxMemoryWrite 5) (setF (dbgBox true) .vxMaddr 51 3 0x20000)) ((setF (dbgBox true) .vxMaddr 51 3 0x20000).storeWords 0x100000 [5]) &&
    after (exec .vxMemoryRead (setF ((dbgBox true).storeWords 0x100000 [5]) .vxMaddr 51 3 0x20000)) (fun u => decide (u.outbox = [.vexek (.ok (some 5))])) &&
    after (exec .vxMemoryRead (dbgBox false)) (fun u => decide (u.outbox = [.vexek .fault])) &&
    after (exec (.vxQuarantine 5) (dbgBox false)) (fun u => decide (u.vexek.draining = some (0, 4, 0))) &&
    after (exec (.vxQuarantineClear 5) { dbgBox false with vexek := { sysBox.vexek with quar := [(0, 4)] } }) (fun u => decide (u.vexek.quar = [])) &&
    after (exec (.vxQuarantine 0x3F0) { dbgBox false with vexek := { level := 3, shelves := 1 } }) (fun u => decide (u.vexek.draining = none)) &&
    after (exec .quarantineDone { sysBox with vexek := { draining := some (0, 5, 0) } }) (fun u => decide (u.vexek.quar = [(0, 5)])) &&
    after (exec .quarantineTimeout { sysBox with vexek := { draining := some (0, 0, 0) }, devtime := 1000000 }) (fun u => decide (u.vexek.draining = none ∧
      getB u .vxStat 58 = true)) = true := by decide +kernel

/-- The warden's core has one packet. -/
def traceBox : State := sysBox.modCore wardenKey (fun c => { c with stim := [{ time := 0, shelf := 0, slot := 0, port := 3, kind := 0, ctx := 0, value := 9, drops := 0 }] })

theorem test_trace :
    after (exec .traceCollect traceBox) (fun u => decide (u.vexek.trace = (traceBox.core wardenKey).stim ∧ (u.core wardenKey).stim = [])) &&
    gives (exec .vxTrpop { sysBox with vexek := { sysBox.vexek with trace := (traceBox.core wardenKey).stim } }) sysBox = true := by decide +kernel

/-- A session at a level in a life-cycle state, with the value to program. -/
def fuseBox (level : Nat) (lc : BitVec 2) (v : Word) : State := { sysBox with
  vexek := { level := level, fuse0 := v }
  fuses := { lc := lc } }

theorem meets_fuses : Stated.granted (fuseBox 3 0 7) .debugger .vxFusecmd (setFld 0 1 0 1 ||| bitIf 63 true) ∧
    Stated.granted (fuseBox 3 0 7) .debugger .vxFusecmd (setFld 0 1 0 2 ||| bitIf 63 true) := by
  unfold Stated.granted
  decide +kernel

theorem test_fuses :
    after (exec (.fuseSerial 0) (fuseBox 3 0 7)) (fun u => decide (u.vexek.fusing = some 1 ∧ u.fuses.serNew = 7 ∧ u.fuses.serial = 0)) &&
    gives (exec (.fuseSerial 0) (fuseBox 3 0 0)) (setF (fuseBox 3 0 0) .vxFusecmd 61 60 1) &&
    after (exec (.fusePassword 0) (fuseBox 3 0 7)) (fun u => decide (u.vexek.fusing = some 2 ∧ u.fuses.pwdNew = 7)) &&
    after (exec (.fusePassword 0) (fuseBox 3 1 7)) (fun u => decide (u.vexek.fusing = none ∧ getF u .vxFusecmd 61 60 = 1)) &&
    after (exec (.fuseProgramDone true) { sysBox with vexek := { fusing := some 1 }, fuses := { serNew := 7 } }) (fun u => decide (u.fuses.serSet = true ∧
      u.fuses.serNew = 7 ∧ u.vexek.fusing = none)) = true := by decide +kernel

/-! ## The whole block -/

theorem test_queue : (match step { sysBox with pending := [.coldStart, .warmReset] } with
    | .next t => decide (t = { sysBox with pending := [.warmReset] })
    | _ => false) = true ∧ sysBox.tick = { sysBox with devtime := 1 } ∧ State.reset.power.block ≠ .unpowered ∧
    ({ State.reset with power := { block := .unpowered } } : State).tick = { State.reset with power := { block := .unpowered } } := by decide +kernel

theorem meets_hostTags : Stated.granted (setB sysBox .glTagrgn 63 true) .warden .glTagtab 0 ∧
    Stated.granted (setB sysBox .glTagrgn 63 true) .warden .glTagrgn 0 ∧ getB (setB sysBox .glTagrgn 63 true) .glTagrgn 63 = true := by
  unfold Stated.granted
  decide +kernel

/-- Link 86 is link 2 of shelf 21 (row 2, column 5); its alternate is shelf 21 XOR 5 = 16, in column 0 of the same row (R27). -/
theorem test_alternate : altShelf 86 = 16 := by decide

theorem meets_inv : Stated.inv State.reset ∧ Stated.inv { sysBox with
    mem := [(0xC0000, 5)]
    pending := [.coldStart] } := by
  unfold Stated.inv
  decide +kernel

/-- ACQ-RAISE of line 11 under tag 3: OP 0x13, the tag from bit 6, the line from bit 16; ANS-CTLACK of tag 9 with STATUS 2 in bits 79:78 (R424). -/
theorem test_hostSignals : (HostMsg.request 3 raise11).signal.2.toNat = 0x13 + 3 * 2 ^ 6 + 11 * 2 ^ 16 ∧
    (HostMsg.ctlAck 9 2).signal.2.toNat = 0x34 + 9 * 2 ^ 6 + 2 * 2 ^ 78 ∧ (HostMsg.request 3 raise11).signal.1 = 65 ∧
    ((HostMsg.datWr 1023 (List.replicate 64 0) (BitVec.allOnes 64) true).signal.2.toNat / 2 ^ 80) % 8 = 1 := by decide +kernel

/-! ## RECEIVE rings -/

/-- A packet with `k` payload bytes. -/
def rxPkt (k : Nat) : Packet := { w0 := 1, w1 := 2, w2 := place 13 0 k, w3 := 4, payload := List.replicate k 7, pcrc := 0, tag := 0 }

/-- RECEIVE ring 65535 of 64 slots at 0, whose grant the port holds. -/
def rxBox (r : Ring) : State := wrReg ((ringBox { r with en := true, desc := ringDesc 2 }).modPort 0 (fun x => { x with
  grants := [(0, [bitIf 63 true ||| bitIf 61 true ||| bitIf 59 true, 0xFFFF, 0, 0])] })) .glGrant (bitIf 63 true)

/-- What ring 65535 has still to write: first index, open slots, whether the first slot is written. -/
def rxSeen (s : State) : List (Option Nat × List Nat × Bool) := (s.ring 65535).rx.map (fun x => (x.first, x.left, x.shown))

/-- The open slot writes of the host port: their slot index. -/
def rxOpen (s : State) : List (Nat × Bool) := s.slotWrites.map (fun w => (w.index, w.acked))

theorem test_nslot : [0, 24, 25, 88, 89, 4056, 4057, 8192].map nslotOf = [1, 1, 2, 2, 3, 64, 65, 129] := by decide

theorem meets_receive : let s := rxBox {}
    (s.ring 65535).en = true ∧ (s.ring 65535).ty = 2 ∧ (rxPkt 24).len = 24 ∧ (rxPkt 25).len = 25 ∧ s.power.block = .hostReady ∧
    (s.hostWrite (.slot 65535 0) 2 (some (s.ring 65535).grant) none ((s.ring 65535).slotAddr 0) (List.replicate 64 0)).2 = .wait ∧
    (s.port 0).grants.length = 1 ∧ s.servingPort 0 = 0 := by decide +kernel

theorem test_receive :
    rxSeen ((rxBox {}).rxPut 65535 (rxPkt 24) 5 3 4) = [(some 0, [0], true)] ∧
    rxOpen ((rxBox {}).rxPut 65535 (rxPkt 24) 5 3 4) = [(0, false)] ∧
    (((rxBox {}).rxPut 65535 (rxPkt 24) 5 3 4).ring 65535).p = 1 ∧
    rxSeen ((rxBox {}).rxPut 65535 (rxPkt 89) 5 3 4) = [(some 0, [1, 2], false)] ∧
    (((rxBox {}).rxPut 65535 (rxPkt 89) 5 3 4).ring 65535).p = 3 ∧
    rxSeen (((rxBox {}).rxPut 65535 (rxPkt 25) 5 3 4).rxDone 65535 1) = [(some 0, [0], true)] ∧
    rxSeen ((((rxBox {}).rxPut 65535 (rxPkt 25) 5 3 4).rxDone 65535 1).rxDone 65535 0) = [] ∧
    ((rxBox {}).rxPut 65535 (rxPkt 25) 5 3 4).rxBusy 65535 3 4 = true := by decide +kernel

/-- A full ring: the packet waits until a doorbell frees two slots of it. -/
theorem test_receiveFull :
    let t := (rxBox { p := 64 }).rxPut 65535 (rxPkt 25) 5 3 4
    rxSeen t = [(none, [], false)] ∧ rxOpen t = [] ∧
    after (exec (.doorbell 15 65535 1) t) (fun u => decide (rxSeen u = [(none, [], false)] ∧ (u.ring 65535).c = 1)) = true ∧
    after (exec (.doorbell 15 65535 2) t) (fun u => decide (rxSeen u = [(some 64, [65], false)] ∧ (u.ring 65535).p = 66)) = true := by decide +kernel

/-- A refused write switches the ring off. -/
theorem test_receiveRefused :
    let t := (wrReg (rxBox {}) .glGrant 0).rxPut 65535 (rxPkt 24) 5 3 4
    (t.ring 65535).en = false ∧ rxSeen t = [] ∧ rxOpen t = [] := by decide +kernel

end Sys2Proof.Tests
end

section
/-!
Home and alternate shelf of a link (R27). The offset 2k + 1 from the home shelf is odd and below 8, so XOR with it keeps the row (the bits above the
column) and flips the lowest bit of the column. XOR with an offset is its own inverse, so for each index k exactly one link has a given shelf as its
alternate, and the four offsets being different its home shelf is another one for each k.
-/
namespace Sys2Proof.Machine

/-- The link of index `k` whose alternate is shelf `n`: its home shelf is `n` XOR (2k + 1), as Table 1.4 read backwards says. -/
def linkOfAlternate (n : Fin 64) (k : Fin 4) : Fin 256 :=
  ⟨4 * (n.val ^^^ (2 * k.val + 1)) + k.val, by
    have := Nat.xor_lt_two_pow (n := 6) n.isLt (show 2 * k.val + 1 < 2 ^ 6 by omega)
    omega⟩

theorem linkOfAlternate_home (n : Fin 64) (k : Fin 4) : (linkOfAlternate n k).val / 4 = n.val ^^^ (2 * k.val + 1) := by
  simp only [linkOfAlternate]
  omega

theorem linkOfAlternate_index (n : Fin 64) (k : Fin 4) : (linkOfAlternate n k).val % 4 = k.val := by
  simp only [linkOfAlternate]
  omega

theorem altShelf_lt (l : Fin 256) : altShelf l.val < 64 :=
  Nat.xor_lt_two_pow (n := 6) (by omega) (by omega)

theorem altShelf_row (l : Nat) : altShelf l / 8 = l / 4 / 8 := by
  have offset : (2 * (l % 4) + 1) / 2 ^ 3 = 0 := by omega
  calc altShelf l / 2 ^ 3 = (l / 4 / 2 ^ 3) ^^^ ((2 * (l % 4) + 1) / 2 ^ 3) := Nat.xor_div_two_pow
    _ = l / 4 / 2 ^ 3 := by rw [offset, Nat.xor_zero]

/-- The offset is odd, so a shelf and the alternate of its links differ in the lowest bit of their column. -/
theorem altShelf_parity (l : Nat) : altShelf l % 2 ≠ l / 4 % 2 := by
  have parity : altShelf l % 2 = (l / 4 + (2 * (l % 4) + 1)) % 2 := Nat.xor_mod_two_eq
  omega

theorem groupOf_altShelf_ne (l : Nat) : groupOf (altShelf l) ≠ groupOf (l / 4) := by
  have parity := altShelf_parity l
  simp only [groupOf]
  omega

theorem altShelf_eq_iff_home (l n : Nat) : altShelf l = n ↔ l / 4 = n ^^^ (2 * (l % 4) + 1) := by
  constructor
  · rintro rfl
    exact (Nat.xor_xor_cancel_right ..).symm
  · intro home
    rw [altShelf, home, Nat.xor_xor_cancel_right]

theorem altShelf_linkOfAlternate (n : Fin 64) (k : Fin 4) : altShelf (linkOfAlternate n k).val = n.val := by
  rw [altShelf_eq_iff_home, linkOfAlternate_home, linkOfAlternate_index]

theorem altShelf_eq_iff_exists (l : Fin 256) (n : Fin 64) : altShelf l.val = n.val ↔ ∃ k, l = linkOfAlternate n k := by
  constructor
  · intro alt
    have home := (altShelf_eq_iff_home ..).mp alt
    refine ⟨⟨l.val % 4, by omega⟩, Fin.ext ?_⟩
    simp only [linkOfAlternate, ← home]
    omega
  · rintro ⟨k, rfl⟩
    exact altShelf_linkOfAlternate n k

theorem linkOfAlternate_home_injective (n : Fin 64) : Function.Injective (fun k => (linkOfAlternate n k).val / 4) := by
  intro j k same
  simp only [linkOfAlternate_home, Nat.xor_right_inj] at same
  omega

/-- Settles O56: the alternate of each link by its offset, the four links of a shelf by `linkOfAlternate`, one for each index. -/
theorem alternateShelves : Obligations.AlternateShelves := by
  refine ⟨fun l => ⟨rfl, altShelf_lt l, altShelf_row l.val, groupOf_altShelf_ne l.val⟩, fun n => ?_, fun l s => rfl⟩
  refine ⟨linkOfAlternate n 0, linkOfAlternate n 1, linkOfAlternate n 2, linkOfAlternate n 3, fun l => ?_, ?_⟩
  · simp [altShelf_eq_iff_exists, Fin.exists_fin_succ]
  · have homes : ((List.finRange 4).map fun k => (linkOfAlternate n k).val / 4).Nodup :=
      (List.nodup_finRange 4).map (linkOfAlternate_home_injective n)
    simpa [List.finRange_succ] using homes

end Sys2Proof.Machine
end

section
/-!
Division (R218, Table 8.1). The four instructions are one action, `divAction`, so what they leave is one rule, `runs_division`, over what `divide`
answers; `value_divide` states that answer as the rows of Table 8.1. The quotient and the remainder of the integers satisfy the division identity, and
a word keeps sums and products modulo 2^64.
-/
namespace Sys2Proof.Machine

/-- The last row of Table 8.1: what R218 gives where no special case overrides it. -/
def ordinaryDivision : (signed rem : Bool) → Word → Word → Word
  | true, false, a, b => BitVec.ofInt 64 (a.toInt.tdiv b.toInt)
  | true, true, a, b => BitVec.ofInt 64 (a.toInt.tmod b.toInt)
  | false, false, a, b => BitVec.ofNat 64 (a.toNat / b.toNat)
  | false, true, a, b => BitVec.ofNat 64 (a.toNat % b.toNat)

theorem divide_zero (signed rem : Bool) (a : Word) : divide signed rem a 0 = (a, fDZ) := rfl

theorem divide_overflow (rem : Bool) : divide true rem minInt64 (BitVec.allOnes 64) = (if rem then 0 else minInt64, fDV) := rfl

theorem divide_ordinary (signed rem : Bool) (a b : Word) (hb : b ≠ 0)
    (ho : ¬ (signed = true ∧ a = minInt64 ∧ b = BitVec.allOnes 64)) :
    divide signed rem a b = (ordinaryDivision signed rem a b, 0) := by
  rw [divide, if_neg hb, if_neg ho]
  cases signed with
  | true => cases rem <;> rfl
  | false => cases rem <;> simp [ordinaryDivision, BitVec.udiv_def, BitVec.umod_def]

/-- Table 8.1, as the result that the tag of a division holds. -/
theorem value_divide (signed rem : Bool) (a b : Word) :
    TagRes.value (divide signed rem a b).1 (divide signed rem a b).2 =
      if b = 0 then .value a fDZ
      else if signed = true ∧ a = minInt64 ∧ b = BitVec.allOnes 64 then .value (if rem then 0 else a) fDV
      else .value (ordinaryDivision signed rem a b) 0 := by
  split
  next hb => rw [hb, divide_zero]
  next hb =>
    split
    next ho =>
      obtain ⟨rfl, rfl, rfl⟩ := ho
      rw [divide_overflow]
    next ho => rw [divide_ordinary signed rem a b hb ho]

/-- What a division does with its operands, `b` on top: its tag's result is there at once. -/
def deliverDivision (signed rem : Bool) (vs : List Word) (q : TagRef) (t : State) : State :=
  t.tagDone q (.value (divide signed rem (vs.getD 1 0) (vs.getD 0 0)).1 (divide signed rem (vs.getD 1 0) (vs.getD 0 0)).2)

theorem divAction_eq (signed rem : Bool) : divAction signed rem = tagged 2 true (deliverDivision signed rem) := rfl

theorem deliverDivision_operands (signed rem : Bool) (a b : Word) (q : TagRef) (t : State) :
    deliverDivision signed rem [b, a] q t = t.tagDone q (.value (divide signed rem a b).1 (divide signed rem a b).2) := rfl

/-- A division leaves a pending slot whose tag holds the row of Table 8.1 for its operands. -/
theorem runs_division (i : Instr) (signed rem : Bool) (code : List Byte) (c : CoreId) (s : State) (r : Nat) (a b : Word) (rest : List Slot)
    (he : exec i s = .next (issue c { code := code, act := divAction signed rem } s)) (h : Issues s c r code) (hp : Bare s c)
    (ht : (s.at_ c r).tagFree) (hv : (s.at_ c r).ring = .val b :: .val a :: rest) (hr : rest.length < ringSize) :
    RunsTagged i s c r code rest { dpc := 0, addr := 0, dest := .stack, arith := true, res := some (
      if b = 0 then .value a fDZ
      else if signed = true ∧ a = minInt64 ∧ b = BitVec.allOnes 64 then .value (if rem then 0 else a) fDV
      else .value (ordinaryDivision signed rem a b) 0) } := by
  rw [← value_divide]
  exact runs_tagged i c { code := code, act := divAction signed rem } s r 2 true (deliverDivision signed rem) (.value _ _) [b, a] rest
    he h hp rfl (fun _ _ => by rw [divAction_eq]) (deliverDivision_operands signed rem a b) hv rfl hr ht

/-- The division identity holds of the integers, and a word keeps it. -/
theorem tdiv_mul_add_tmod (a b : Word) : BitVec.ofInt 64 (a.toInt.tdiv b.toInt) * b + BitVec.ofInt 64 (a.toInt.tmod b.toInt) = a :=
  calc BitVec.ofInt 64 (a.toInt.tdiv b.toInt) * b + BitVec.ofInt 64 (a.toInt.tmod b.toInt)
      = BitVec.ofInt 64 (a.toInt.tdiv b.toInt * b.toInt + a.toInt.tmod b.toInt) := by
        rw [BitVec.ofInt_add, BitVec.ofInt_mul, BitVec.ofInt_toInt]
    _ = a := by rw [Int.tdiv_mul_add_tmod, BitVec.ofInt_toInt]

/-- Settles O3: the identity by `tdiv_mul_add_tmod`, and each instruction by `runs_division`. -/
theorem divisions : Obligations.Divisions := by
  refine ⟨fun a b _ _ => (tdiv_mul_add_tmod a b).symm, fun c s r a b rest p hp issues bare free ring room => ?_⟩
  simp only [List.mem_cons, List.not_mem_nil, or_false] at hp
  rcases hp with rfl | rfl | rfl | rfl
  · exact runs_division (.div c) true false [0x39] c s r a b rest rfl issues bare free ring room
  · exact runs_division (.divu c) false false [0x3A] c s r a b rest rfl issues bare free ring room
  · exact runs_division (.rem c) true true [0x3B] c s r a b rest rfl issues bare free ring room
  · exact runs_division (.remu c) false true [0x3C] c s r a b rest rfl issues bare free ring room

end Sys2Proof.Machine
end

section
/-!
The registers of the tagged host region (R276). A write of one field leaves the bits outside the field, so after a write of GL_TAGRGN its VALID bit is
the written one; a region that is not valid holds no granule.
-/
namespace Sys2Proof.Machine

theorem bitAt_clear_outside (w x : Word) (i : Nat) (out : bitAt x i = false) : bitAt (w &&& ~~~ x) i = bitAt w i := by
  unfold bitAt at out ⊢
  simpa [out] using fun set => BitVec.lt_of_getLsbD set

/-- A write of a field leaves the bits outside the field, whatever the field's access code. -/
theorem bitAt_fldWrite_outside (v m w : Word) (f : Fld) (i : Nat) (out : bitAt f.mask i = false) :
    bitAt (fldWrite v m w f) i = bitAt w i := by
  have outAnd : ∀ x, bitAt (x &&& f.mask) i = false := fun x => by
    unfold bitAt at out ⊢
    simp [out]
  cases acc : f.acc with
  | rw =>
    have cleared : bitAt (w &&& ~~~ (f.mask &&& m)) i = bitAt w i :=
      bitAt_clear_outside w _ i (by rw [BitVec.and_comm]; exact outAnd m)
    simp only [fldWrite, acc]
    split
    · unfold bitAt at cleared out ⊢
      simp only [BitVec.getLsbD_or, cleared, BitVec.getLsbD_and, out, Bool.and_false, Bool.false_and, Bool.or_false]
    · rfl
  | w1c =>
    simp only [fldWrite, acc]
    split
    · exact bitAt_clear_outside w _ i (outAnd (v &&& m))
    · split
      · rfl
      · exact bitAt_clear_outside w f.mask i out
  | _ => simp only [fldWrite, acc]

theorem bitAt_regWrite_outside (v m : Word) (i : Nat) (fs : List Fld) (w : Word) (out : ∀ f ∈ fs, bitAt f.mask i = false) :
    bitAt (regWrite fs v m w) i = bitAt w i := by
  induction fs generalizing w with
  | nil => rfl
  | cons f fs ih =>
    have later : bitAt (regWrite fs v m (fldWrite v m w f)) i = bitAt (fldWrite v m w f) i :=
      ih _ fun g hg => out g (List.mem_cons_of_mem f hg)
    exact later.trans (bitAt_fldWrite_outside v m w f i (out f List.mem_cons_self))

theorem fld_bit_le_one (w : Word) (i : Nat) : fld w i i ≤ 1 := by
  rw [fld, Nat.add_sub_cancel_left]
  omega

/-- A one-bit RW field that may hold 0 and 1 takes the written bit. -/
theorem bitAt_fldWrite_bit (v w : Word) (i rst : Nat) (h : i < 64) :
    bitAt (fldWrite v (BitVec.allOnes 64) w ⟨i, i, .rw, rst, 0, 1⟩) i = bitAt v i := by
  have takes : fldWrite v (BitVec.allOnes 64) w ⟨i, i, .rw, rst, 0, 1⟩ =
      (w &&& ~~~ (fmask i i &&& BitVec.allOnes 64)) ||| (v &&& fmask i i &&& BitVec.allOnes 64) :=
    if_pos ⟨Nat.zero_le _, fld_bit_le_one _ i⟩
  have inside : (fmask i i).getLsbD i = true := (bitAt_fmask i i i).trans (by simp [h])
  rw [takes]
  simp only [bitAt, BitVec.getLsbD_or, BitVec.getLsbD_and, BitVec.getLsbD_not, BitVec.getLsbD_allOnes, inside, h, decide_true, Bool.and_true,
    Bool.not_true, Bool.and_false, Bool.false_or]

/-- A write of GL_TAGRGN that acts leaves VALID as written: none of the register's other fields has that bit. -/
theorem getB_plainWrite_tagrgnValid (s : State) (v : Word) : getB (s.plainWrite .glTagrgn v) .glTagrgn 63 = bitAt v 63 := by
  rw [State.plainWrite, getB_wrReg_same]
  exact (bitAt_regWrite_outside v _ 63 [⟨51, 30, .rw, 0, 0, 4194303⟩, ⟨5, 0, .rw, 30, 30, 40⟩] _ (by decide)).trans
    (bitAt_fldWrite_bit v _ 63 0 (by decide))

theorem State.inTagRegion_invalid (s : State) (a z : Nat) (invalid : getB s .glTagrgn 63 = false) : s.inTagRegion a z = false := by
  rw [getB] at invalid
  simp only [State.inTagRegion, invalid, Bool.false_and]

/-- Without a valid region every host tag reads 0. -/
theorem State.hostTag_invalid (s : State) (a : Nat) (invalid : getB s .glTagrgn 63 = false) : s.hostTag a = some false := by
  rw [State.hostTag, s.inTagRegion_invalid a 16 invalid]
  rfl

theorem State.writeTagtab_locked (s : State) (v : Word) (valid : getB s .glTagrgn 63 = true) : s.writeTagtab v = s := if_pos valid

theorem State.writeTagrgn_locked (s : State) (v : Word) (valid : getB s .glTagrgn 63 = true) (keeps : bitAt v 63 = true) :
    s.writeTagrgn v = s := if_pos ⟨valid, keeps⟩

theorem State.writeTagrgn_clears (s : State) (v : Word) (clears : bitAt v 63 = false) : s.writeTagrgn v = s.plainWrite .glTagrgn v := by
  simp [State.writeTagrgn, clears]

theorem exec_glTagtabWrite_granted (who : Party) (v : Word) (s : State) (may : Stated.granted s who .glTagtab v) :
    exec (.glTagtabWrite who v) s = .next (s.writeTagtab v) := by
  obtain ⟨port, range, authority, warden⟩ := may
  exact congrArg Host.Outcome.next (s.gateWrite_acts who .glTagtab v _ port range authority warden)

theorem exec_glTagrgnWrite_granted (who : Party) (v : Word) (s : State) (may : Stated.granted s who .glTagrgn v) :
    exec (.glTagrgnWrite who v) s = .next (s.writeTagrgn v) := by
  obtain ⟨port, range, authority, warden⟩ := may
  exact congrArg Host.Outcome.next (s.gateWrite_acts who .glTagrgn v _ port range authority warden)

/-- Settles O55: a write that leaves VALID at 1 finds the registers locked, and one that clears it leaves no tagged region. -/
theorem hostTagRegisters : Obligations.HostTagRegisters := by
  intro who v s valid
  refine ⟨fun may => ?_, fun may => ⟨fun keeps => ?_, fun clears => ?_⟩⟩
  · rw [exec_glTagtabWrite_granted who v s may, s.writeTagtab_locked v valid]
  · rw [exec_glTagrgnWrite_granted who v s may, s.writeTagrgn_locked v valid keeps]
  · have cleared : getB (s.plainWrite .glTagrgn v) .glTagrgn 63 = false := (getB_plainWrite_tagrgnValid s v).trans clears
    refine ⟨s.plainWrite .glTagrgn v, ?_, cleared, fun a => State.hostTag_invalid _ a cleared⟩
    rw [exec_glTagrgnWrite_granted who v s may, s.writeTagrgn_clears v clears]

end Sys2Proof.Machine
end
